-- ==== Sys2Proof/Word.lean ====
section
/-! DEFINITION. The word and byte types of the register space (R8: registers are 32 bits wide). -/

namespace Sys2Proof

/-- A register word (R8). -/
abbrev Word := BitVec 32

/-- A byte of a memory, an image or a message. -/
abbrev Byte := BitVec 8

end Sys2Proof
end

