-- ==== Sys2Proof/Syntax.lean ====
section
/-! DEFINITION. The commands the part takes: one constructor per row of spec/opcode_table.json, with its operands, and the
shapes of what arrives from outside with a command. -/

namespace Sys2Proof

/-- An access path: 0 is HSPI, 1 to 4 are network sessions (R58, R61). -/
abbrev Path := Fin 5

/-- A lane: 0 to 23 are L0 to L23, 24 and 25 are X0 and X1 (R136, R163). -/
abbrev LaneId := Fin 26

/-- A cell number (R14). -/
abbrev CellId := Fin 288

/-- An LV channel: 0 to 15 are the pairs, 16 and 17 the choppers (R253). -/
abbrev ChanId := Fin 18

/-- An LV pair (R253). -/
abbrev PairId := Fin 16

/-- A comparator window (R306). -/
abbrev WinId := Fin 16

/-- A network port: PA, PB, PM (R366). -/
abbrev PortId := Fin 3

/-- A recorder (R400). -/
abbrev RecId := Fin 8

/-- Which wipe has ended (R112, R116): SRAM, the DRAM pass, the final staging-region wipe. -/
inductive WipeKind where | sram | dram | staging
  deriving DecidableEq, Repr

/-- The PLLs of R414: control, network, acquisition, DRAM, and the link PLLs Q0 to Q5 and XL. -/
inductive PllId where | cpll | npll | apll | dpll | link (q : Fin 7)
  deriving DecidableEq, Repr

/-- The monitored clocks, numbered as the bits of CLK_ALARM.ALARM (R419, R434). -/
abbrev ClockId := Fin 15

/-- One gather or command record as it arrived: its eight words, whether its last block came after T_OPEN, whether a block had a code
error, and whether a word failed the parity of the crossing from the quad (R35, R39, R156, R169). -/
structure GatherRec where
  words : List Word
  late : Bool
  codeErr : Bool
  parity : Bool := false
  deriving DecidableEq, Repr

/-- A returned gather frame: NREC of its END block, the pin-to-pin round trip in 1/16 CT, the largest control-island round trip in CT,
the lengths of the FLAKE runs received since the frame before, the FLAKE blocks inside the frame, the other code errors with it, the
round trip and the Dp_i of the far end's loop measurement in 1/16 CT (duplex only), and its records by position (R144, R146, R147,
R156). -/
structure GatherRx where
  lane : BitVec 5
  nrec : Nat
  rtt16 : Nat
  rttCt : Nat
  runs : List Nat
  inFrame : Nat
  codeErrs : Nat
  farR : Option Nat
  farDp : List Nat
  recs : List GatherRec
  deriving DecidableEq, Repr

/-- An ECC report of a slice in the compute window (R211). -/
structure EccReport where
  slice : Fin 3
  inst : Nat
  correctable : Bool
  deriving DecidableEq, Repr

/-- What the head sees of one slice at the allocator (R339, R210): finish in CT after T_OPEN, whether its values differ
from those the loop graph gives, the item kind and index that differs, whether the voter copies agree, and its value of P* (R212). -/
structure SliceVote where
  slice : Fin 3
  finish : Nat
  differs : Bool
  kind : BitVec 2
  index : BitVec 9
  votersAgree : Bool
  pstar : BitVec 32
  deriving DecidableEq, Repr

/-- Which fields a BUFFERED_WRITE_APPLY reaches (R9): the next packet on a port, the next link frame on a lane, the next
reload of a PWM channel, or the next boundary. -/
inductive ApplyTarget where
  | packet (port : PortId)
  | frame (lane : LaneId)
  | pwm (chan : ChanId)
  | period
  deriving DecidableEq, Repr

/-- One entry of a REG segment (R325): a forwarded write, or a transaction command with its value. -/
inductive RegKind where
  | write | staged | commit | activation | rollback
  deriving DecidableEq, Repr

structure RegEntry where
  addr : Nat
  val : Word
  path : Nat
  kind : RegKind
  deriving DecidableEq, Repr

/-- What a crosslink frame carries around its data blocks (R325): the low 32 bits of the sender's period, and whether its CRC over them is
right; `parity`: a word of it fails the parity of its crossing (R35). -/
structure XlHead where
  period : Word
  crcOk : Bool := true
  parity : Bool := false
  deriving DecidableEq, Repr

/-- A crosslink frame as it arrived: the lane and what stands around its data (R163, R325). -/
structure XlSeg where
  lane : Fin 2
  head : XlHead
  deriving DecidableEq, Repr

/-- The INPUT segment (R325): fast, housekeeping and dataset values with their validity, and sources 0x920 and 0x921. -/
structure XlInput where
  seg : XlSeg
  fast : List (Int × Bool)
  hk : List (Int × Bool)
  net : List (Int × Bool)
  therm : Int
  safe : Int
  deriving DecidableEq, Repr

/-- The STATE segment (R325): cell states and record validity, DIR and POL of each group, the CRCs, m_A, the apply count
and the sender's role. -/
structure XlState where
  seg : XlSeg
  cells : List Nat
  valid : List Bool
  dir : List Bool
  pol : List Bool
  ceCrc : Word
  cfgCrc : Word
  mA : Int
  applyCount : Word
  role : BitVec 4
  deriving DecidableEq, Repr

/-- A resign condition of R332; `event` names the source. -/
inductive ResignCond where
  | cfgCrc | ecc | clock | deadline | thermal | majority | event (src : Fin 1024) | conflict
  deriving DecidableEq, Repr

/-- A whiteout cause of R345: its class and index. -/
structure WhiteoutCause where
  cls : BitVec 4
  index : BitVec 10
  deriving DecidableEq, Repr

/-- One copy of a telegram (R357): bytes 0 to 15 as fields, whether FCS and padding are right, and its destination MAC address. -/
structure Telegram where
  tgid : Nat
  ver : Nat
  flags : Nat
  seq : Nat
  zero : Nat
  scrc : Nat
  fcsOk : Bool
  padOk : Bool
  dst : Nat
  parity : Bool := false
  deriving DecidableEq, Repr

/-- A measurement of the pump's supply: PU_VM in 0.1 V, and whether the bootstrap voltage of the PWM phase is below 7.0 V (R285, R290). -/
structure PumpSense where
  vm : BitVec 10
  bootLow : Bool
  deriving DecidableEq, Repr

/-- A received Ethernet frame as the classifier sees it (R367): EtherType, VID of a tag, length, whether its FCS is right,
whether an ARP request or an IPv4 packet is for the port's address, and its UDP port. -/
structure NetFrame where
  etype : Nat
  tag : Option Nat
  len : Nat
  fcsOk : Bool
  forMe : Bool
  udp : Nat
  deriving DecidableEq, Repr

/-- A change of link state at a port (R366): whether the interface is up, and whether in-band auto-negotiation gave 1000 Mb/s full duplex,
which SGMII asks for. -/
structure LinkState where
  up : Bool
  gigFull : Bool
  deriving DecidableEq, Repr

/-- What a PTP message is checked for (R371): versionPTP, minorVersionPTP, domainNumber, transportSpecific or majorSdoId, whether its length
is right for its type, and its correctionField in 2⁻¹⁶ ns. -/
structure PtpHead where
  version : Nat
  minor : Nat
  domain : Nat
  sdo : Nat
  lenOk : Bool
  corr : Int
  deriving DecidableEq, Repr

/-- A Sync offset sample (R369 to R373): the message's head, the master's origin time with its corrections less the MAC ingress stamp, in
units of 2⁻¹⁶ ns, the port, and the mean peer delay that the MAC stamps give there, in 2⁻¹⁶ ns. -/
structure PtpSample where
  head : PtpHead
  ofs : Int
  port : Fin 2
  pdelay : Nat
  deriving DecidableEq, Repr

/-- An Announce message (R371): its port, its head, the fields that IEEE 1588 compares, currentUtcOffset where it carries one, and the
bytes of an ALTERNATE_TIME_OFFSET_INDICATOR TLV. Byte i of `gm` is bits 8i + 7 to 8i; `sender` is the sender's portIdentity as a number,
its first byte the most significant. -/
structure PtpAnnounce where
  port : Fin 2
  head : PtpHead
  prio1 : Nat
  gmClass : Nat
  accuracy : Nat
  variance : Nat
  prio2 : Nat
  gm : BitVec 64
  steps : Nat
  sender : Nat
  utc : Option Nat
  altTime : Option (List Byte) := none
  deriving DecidableEq, Repr

/-- A Pdelay_Req (R371): its head, its sequence number, and in 1/16 ns its MAC ingress stamp and the MAC egress stamp of the Pdelay_Resp
that answers it. -/
structure PdelayReq where
  head : PtpHead
  seq : Nat
  stamp16 : Nat
  txStamp16 : Nat
  deriving DecidableEq, Repr

/-- The value of one GOOSE element (R385); a FLOAT32 by its bits, a bit string by its bits in order. -/
inductive GVal where
  | bool (b : Bool)
  | int (z : Int)
  | uint (n : Nat)
  | float (bits : Word)
  | dbpos (p : BitVec 2)
  | bits (l : List Bool)
  deriving DecidableEq, Repr

/-- A GOOSE element with whether its quality is good. -/
structure GElem where
  val : GVal
  good : Bool
  deriving DecidableEq, Repr

/-- A GOOSE message (R382, R383); `cbCrc` is the CRC-32C of its gocbRef, `tal` its timeAllowedtoLive in ms. `parity`, here and below: a
word of it fails the parity of its crossing (R35). -/
structure GooseMsg where
  port : Fin 2
  dst : Nat
  appid : Nat
  cbCrc : Word
  confRev : Word
  sim : Bool
  nds : Bool
  entries : Nat
  st : Word
  sq : Word
  tal : Nat
  vals : List GElem
  parity : Bool := false
  deriving DecidableEq, Repr

/-- One ASDU (R384): smpCnt, smpSynch, and its values; a value's quality is good where it is good and carries no test bit. -/
structure SvAsdu where
  cnt : Nat
  synch : Nat
  vals : List GElem
  deriving DecidableEq, Repr

/-- A Sampled Values frame (R382, R384). -/
structure SvMsg where
  port : Fin 2
  dst : Nat
  appid : Nat
  svCrc : Word
  confRev : Word
  sim : Bool
  asdus : List SvAsdu
  parity : Bool := false
  deriving DecidableEq, Repr

/-- An OPEN request (R387, R388): MAGIC as its two bytes, VER, KSLOT, SEQ, the client's nonce and the MAC. -/
structure RapOpenReq where
  port : PortId
  magic : BitVec 16 := 0x5254
  ver : Byte := 1
  kslot : Nat
  seq : Word
  nonce : List Byte
  mac : List Byte
  deriving DecidableEq, Repr

/-- What a message of an open session asks (R387). -/
inductive RapOp where
  | read | readFixed | write | writeFixed | keepalive | close
  deriving DecidableEq, Repr

/-- A message of an open session (R387, R389) by its fields; its command says the OP. -/
structure RapMsg where
  port : PortId
  magic : BitVec 16 := 0x5254
  ver : Byte := 1
  sess : Fin 5
  kslot : Nat
  seq : Word
  addr : Word
  count : Nat
  body : List Word
  mac : List Byte
  parity : Bool := false
  deriving DecidableEq, Repr

/-- Which fast results of an instant reach the control island in time, and whose words fail the parity of that crossing (R35, R297). -/
structure FastReady where
  ready : BitVec 24
  parity : BitVec 24
  deriving DecidableEq, Repr

/-- The code of a housekeeping conversion, and whether its word fails the parity of its crossing (R35, R302). -/
structure HkWord where
  code : BitVec 12
  parity : Bool
  deriving DecidableEq, Repr

/-- The level of a filtered window output, and whether its word fails the parity of its crossing (R35, R308). -/
structure WindowWord where
  level : Bool
  parity : Bool
  deriving DecidableEq, Repr

/-- A temperature reading, none where it has no code (below −50 °C, or an open or shorted diode), and whether its word fails the parity of
its crossing (R35, R422). -/
structure TempWord where
  code : Option (BitVec 12)
  parity : Bool
  deriving DecidableEq, Repr

/-- A command. Each constructor is one row of the opcode table; a duration that passes outside is the command itself. -/
inductive Instr where
  /-- POWER_ON (R93): Application of power resets the head with cause 0x01, wipes its volatile memories and starts BOOT. -/
  | powerOn (headsel : Bool)
  /-- RESET_N_LOW (R93): RESET_N held low for at least 1 µs resets the head with cause 0x02. -/
  | resetNLow (headsel : Bool)
  /-- SEC_RESET_GO (R135): A G1 write of GO to SEC_RESET resets the head with cause 0x03, after any fault summary write from RUN. -/
  | secResetGo (path : Path) (val : Word)
  /-- BOOT_WATCHDOG_EXPIRY (R93): HSTATE has not reached RUN or NOIMAGE within 2 s of reset release, so the head resets with cause 0x04. -/
  | bootWatchdogExpiry
  /-- TAMPER_DETECT (R132): The always-on monitor detects a supply, reference-clock or temperature tamper, resets the head with cause 0x05 and sets SEC_TAMPER. -/
  | tamperDetect (causes : BitVec 3)
  /-- CORE_POWER_GOOD_LOSS (R431): VDD_CORE falls below power-good, so the I/O domains hold the outputs low and release RESIGN_O. -/
  | corePowerGoodLoss
  /-- WIPE_COMPLETE (R116): The SRAM or DRAM wipe, including the final staging-region wipe, completes and lets boot proceed towards the first boundary. -/
  | wipeComplete (kind : WipeKind) (failed : List Nat)
  /-- PLL_LOCK_EXPIRY (R417): 150 µs after a PLL is enabled it is declared locked, its output is ungated and its frequency alarms are armed. -/
  | pllLockExpiry (pll : PllId)
  /-- SLOT_VERIFY (R106): The head verifies an image slot through header, part, key, SVN, digest, signatures and decryption, and records the result in SEC_BOOTSTAT. -/
  | slotVerify
  /-- IMAGE_READ_COMPLETE (R106): The streaming read of the image and its SHA-512 digest completes, so signature verification can start. -/
  | imageReadComplete (ok : Bool)
  /-- IMAGE_CHECK_PASS (R110): The first configuration CRC pass is compared with END.CFGREF, which sets SYS_CFGREF or fails the slot with 0xC. -/
  | imageCheckPass
  /-- FIRST_BOUNDARY (R112): At the later of check pass and wipe end the head opens its first boundary, enters RUN and starts the ports. -/
  | firstBoundary
  /-- QUAD_POWER_UP (R112): Quad Qq is powered at the first boundary plus q × 50 µs, and the crosslink at plus 300 µs. -/
  | quadPowerUp (quad : Fin 7)
  /-- PERIOD_BOUNDARY (R30): At each boundary cells apply commands, LV PWM reloads, fast ADCs sample and gather frames launch. -/
  | periodBoundary
  /-- INPUT_SNAPSHOT (R38): At T_OPEN the head snapshots cell records, fast ADC, housekeeping and network inputs, and the compute window opens. -/
  | inputSnapshot (ecc : List EccReport)
  /-- GROUP_STOP_TIMEOUT (R234): STOPN periods pass during a controlled stop, so the head blocks the RUN cells and raises EV_MV_STOPTO. -/
  | groupStopTimeout
  /-- WINDOW_END (R213): At the end of the compute window, traces sample and GOOSE elements are compared for a new state. -/
  | windowEnd
  /-- ALLOCATOR_START (R228): At T_LAUNCH − TA the allocator sorts, picks and packs command records. -/
  | allocatorStart (votes : List SliceVote)
  /-- COMMAND_LAUNCH (R38): At T_LAUNCH every lane launches its command frame. -/
  | commandLaunch
  /-- STANDBY_INPUT_CUT (R327): In duplex, non-cell inputs are cut at T_CUT and the active sends the INPUT segment. -/
  | standbyInputCut
  /-- COUNT_WRITEBACK (R47): Changed occurrence counts are written through to MRAM by the end of the next period. -/
  | countWriteback
  /-- LOG_ENTRY_WRITE (R55): A queued log entry is written into the MRAM ring in SEQ order. -/
  | logEntryWrite
  /-- SQUALL_SUMMARY_TICK (R52): Every 1 ms, each source with suppressed occurrences and a token writes a SUMMARY entry. -/
  | squallSummaryTick
  /-- DERATE_HOLD_EXPIRY (R48): EVT_DERATE.HOLD after a derate source clears, the safety limiter candidate is released. -/
  | derateHoldExpiry
  /-- EVT_CNTCLR_ALL (R57): A G1 write with ALL = 1 clears all 1,024 occurrence counts. -/
  | evtCntclrAll (path : Path)
  /-- EVT_CNTCLR_SRC (R57): A G1 write with ALL = 0 clears the count of source SRC. -/
  | evtCntclrSrc (path : Path) (src : BitVec 10)
  /-- REGISTER_WRITE (R62): A write to a register with no row of its own is checked for map, guard, range, state and transaction, then buffered or staged.
`parity` says that a word which crosses to another island fails its parity check (R35). -/
  | registerWrite (path : Path) (addr : Word) (val : Word) (parity : Bool)
  /-- BUFFERED_WRITE_APPLY (R62): A buffered write takes effect at its field's apply point. -/
  | bufferedWriteApply (point : ApplyTarget)
  /-- SYS_THAW (R67): A write to SYS_THAW thaws the path for one G1 write, or ends the thaw as a wrong key. -/
  | sysThaw (path : Path) (val : Word)
  /-- THAW_TIMEOUT (R67): 10 ms after the thawing write, the path's thaw ends. -/
  | thawTimeout (path : Path)
  /-- G2_FIRST_WRITE (R69): A write of V to a G2 register is held awaiting its complement. -/
  | g2FirstWrite (path : Path) (addr : Word) (val : Word)
  /-- G2_COMPLEMENT_WRITE (R69): The complement write to a + 4 completes the G2 sequence or fails it with GUARD. -/
  | g2ComplementWrite (path : Path) (addr : Word) (val : Word)
  /-- G2_TIMEOUT (R70): 600,000 CT after the first word, a held G2 value is discarded and EV_GUARD_REJ is raised. -/
  | g2Timeout
  /-- TXN_BEGIN (R71): SYS_TXN BEGIN opens a transaction owned by the writing path. -/
  | txnBegin (path : Path)
  /-- TXN_COMMIT (R76): SYS_TXN COMMIT ends staging and schedules k_act, or starts the cell prepare phase. -/
  | txnCommit (path : Path) (updateRef : Bool)
  /-- TXN_ROLLBACK (R81): SYS_TXN ROLLBACK aborts the transaction with cause HOST, or returns ABORT_LATE after the point of no return. -/
  | txnRollback (path : Path)
  /-- TXN_IDLE_TIMEOUT (R75): An open transaction idle for IDLETO seconds is rolled back with cause IDLE. -/
  | txnIdleTimeout
  /-- TXN_ACK_TIMEOUT (R79): An affected cell has not acknowledged within ACKTO, so the head rolls back, sends discard words and raises EV_TXN_NOACK. -/
  | txnAckTimeout
  /-- CFG_CRC_PASS_START (R84): Every 2 ms the configuration monitor starts a CRC pass. -/
  | cfgCrcPassStart
  /-- CFG_CRC_PASS_END (R84): A completed pass writes SYS_CFGCRC and compares it with SYS_CFGREF, or writes the reference in a reference pass. -/
  | cfgCrcPassEnd
  /-- SYS_FREEZE_GO (R89): A write of GO copies every counter into its SYS_FRZ holding entry in one CT. -/
  | sysFreezeGo (path : Path)
  /-- PERIODLO_READ (R88): A read of SYS_PERIODLO latches the high word for the same path. -/
  | periodloRead (path : Path)
  /-- LC_REQUEST (R120): A G2 write to SEC_LCREQ requests a life-cycle transition. -/
  | lcRequest (path : Path) (val : Word) (compl : Word)
  /-- LC_CHANGE_RESET (R121): 1 ms after an accepted request, the head resets with cause 0x06 and advances OTP, destroys keys and wipes MRAM. -/
  | lcChangeReset
  /-- KEYOP_PROVISION_OWNER (R122): KEYOP 0x1 provisions an owner key slot from the buffer. -/
  | keyopProvisionOwner (path : Path) (slot : BitVec 2)
  /-- KEYOP_PROVISION_IMAGE (R122): KEYOP 0x2 provisions an image key slot. -/
  | keyopProvisionImage (path : Path) (slot : BitVec 2)
  /-- KEYOP_PROVISION_NETWORK (R122): KEYOP 0x3 provisions a network key slot in MRAM. -/
  | keyopProvisionNetwork (path : Path) (slot : BitVec 2)
  /-- KEYOP_REVOKE_OWNER (R122): KEYOP 0x4 revokes an owner key slot, unless it is the last unrevoked slot. -/
  | keyopRevokeOwner (path : Path) (slot : BitVec 2)
  /-- KEYOP_REVOKE_IMAGE (R122): KEYOP 0x5 revokes an image key slot. -/
  | keyopRevokeImage (path : Path) (slot : BitVec 2)
  /-- KEYOP_RAISE_SVN (R123): KEYOP 0x6 raises the OTP security version to the running image's SVN. -/
  | keyopRaiseSvn (path : Path)
  /-- KEYOP_CLEAR_KEYBUF (R122): KEYOP 0x7 clears SEC_KEYBUF. -/
  | keyopClearKeybuf (path : Path)
  /-- ATTEST_GO (R130): A write of GO to SEC_ATTCMD starts building an attestation report. -/
  | attestGo (path : Path)
  /-- ATTEST_DONE (R131): The signed attestation report is complete in SEC_ATT and DONE is set. -/
  | attestDone
  /-- NVM_ERASE (R134): SEC_NVMCTL erase removes one 4 KiB sector of flash, refused in the running slot. -/
  | nvmErase (path : Path) (addr : BitVec 26)
  /-- NVM_PROGRAM (R134): SEC_NVMCTL program writes a 256-byte page from SEC_NVMBUF. -/
  | nvmProgram (path : Path) (addr : BitVec 26)
  /-- NVM_READ (R134): SEC_NVMCTL read reads a page into SEC_NVMBUF. -/
  | nvmRead (path : Path) (addr : BitVec 26)
  /-- NVM_OPERATION_DONE (R134): A flash operation completes and clears BUSY, setting ERR on failure. -/
  | nvmOperationDone (ok : Bool)
  /-- SEC_RELEASE_GO (R126): A G1 write of GO to SEC_RELEASE ends RESIGNED by a reset with cause 0x07. -/
  | secReleaseGo (path : Path) (val : Word)
  /-- RESIGN_HOLD_TIMEOUT (R126): SEC_RESIGNTO seconds after entry to RESIGNED, the head resets with cause 0x07. -/
  | resignHoldTimeout
  /-- DML_EN_WRITE (R151): DML_CTRL.EN enables a lane into WAIT, or its clearing is refused while a cell is in service. -/
  | dmlEnWrite (path : Path) (lane : LaneId) (en : Bool)
  /-- DML_RESTART (R155): DML_CTRL.RESTART takes a lane from FAULT to LINK and clears RETRIES. -/
  | dmlRestart (path : Path) (lane : LaneId) (en : Bool)
  /-- LANE_WAIT_EXPIRY (R151): 150 µs after the quad PLL is enabled, a lane in WAIT enters LINK. -/
  | laneWaitExpiry (lane : LaneId)
  /-- BLOCK_LOCK_ACQUIRED (R156): A lane receiver acquires block lock. -/
  | blockLockAcquired (lane : LaneId) (errors : Nat)
  /-- BLOCK_LOCK_LOST (R154): Loss of block lock sends a lane to LOST. -/
  | blockLockLost (lane : LaneId) (errors : Nat)
  /-- OWN_IDLE_RETURN (R152): An IDLE with the lane's own origin returns, so the lane is ready for ALIGN, or EV_LANE_CROSSED is raised. -/
  | ownIdleReturn (lane : LaneId) (origin : BitVec 2) (num : BitVec 5) (gen : Bool)
  /-- LANE_LINKTO_EXPIRY (R151): LINKTO expires in LINK, so the lane goes to LOST with cause 0x04. -/
  | laneLinktoExpiry (lane : LaneId)
  /-- LANE_RETRY_WAIT_EXPIRY (R151): RETRYWAIT after entry to LOST, the lane returns to LINK and counts a retry. -/
  | laneRetryWaitExpiry (lane : LaneId)
  /-- RETRY_CLEAR_EXPIRY (R155): After 60 s in SERVICE, the lane's RETRIES count is cleared. -/
  | retryClearExpiry (lane : LaneId)
  /-- GATHER_FRAME_RECEIVE (R146): A returning gather frame is received and time-stamped, and its records are stored for the snapshot. -/
  | gatherFrameReceive (lane : LaneId) (frame : GatherRx)
  /-- HALO_GO (R162): DML_HALOCTRL.GO starts an eye scan on a lane in SERVICE, or queues it behind the quad's scan. -/
  | haloGo (path : Path) (lane : LaneId) (dwell : BitVec 6)
  /-- HALO_STOP (R162): DML_HALOCTRL.STOP stops a scan and sets ABORTED. -/
  | haloStop (path : Path) (lane : LaneId) (dwell : BitVec 6)
  /-- HALO_COMPLETE (R161): A completed scan computes WIDTH, HEIGHT and AREA and may raise EV_HALO_MARGIN. -/
  | haloComplete (lane : LaneId) (errors : List Nat)
  /-- XL_ALIGN_FRAME (R324): A crosslink ALIGN frame is time-stamped, and the standby computes e and steers its boundary. -/
  | xlAlignFrame (lane : Fin 2) (head : XlHead) (m16 : Int) (role : BitVec 4)
  /-- XL_INPUT_FRAME (R326): The standby receives the INPUT segment as its non-cell snapshot. -/
  | xlInputFrame (frame : XlInput)
  /-- XL_STATE_FRAME (R328): The standby compares its CE_OUT and configuration CRCs with the STATE segment and adopts cell states. -/
  | xlStateFrame (frame : XlState)
  /-- XL_COPY_FRAME (R328): The standby writes COPY entries over its own state at the end of the window. -/
  | xlCopyFrame (seg : XlSeg) (entries : List (Nat × Int)) (last : Bool)
  /-- XL_REG_FRAME (R329): The standby applies forwarded writes and transaction commands from the REG segment. -/
  | xlRegFrame (seg : XlSeg) (entries : List RegEntry)
  /-- XL_CTRL_RESIGN (R334): A valid CTRL RESIGN frame triggers takeover by a READY standby. -/
  | xlCtrlResign (seg : XlSeg)
  /-- XL_CTRL_SWAP (R338): A CTRL SWAP frame names the swap boundary h to the peer. -/
  | xlCtrlSwap (seg : XlSeg) (boundary : Nat)
  /-- XL_BOTH_LOST (R328): Loss of both crosslink lanes returns a standby to ALIGN and raises EV_XL_DOWN. -/
  | xlBothLost
  /-- CELL_START (R187): CELL_CTRL START queues a BLOCKED cell with PRMOK = 1. -/
  | cellStart (path : Path) (cell : CellId)
  /-- CELL_STOP (R187): CELL_CTRL STOP returns a cell to BLOCKED and returns its budget unit. -/
  | cellStop (path : Path) (cell : CellId)
  /-- CELL_BYPASS (R187): CELL_CTRL BYPASS removes a cell to BYPASSED. -/
  | cellBypass (path : Path) (cell : CellId)
  /-- CELL_RELEASE (R185): CELL_CTRL RELEASE sends BLOCK with CLEAR and returns a BYPASSED or FAILED cell to BLOCKED. -/
  | cellRelease (path : Path) (cell : CellId)
  /-- GROUP_START (R187): CELL_GCTRL group START applies R22 and starts every BLOCKED cell, or raises EV_START_REFUSED. -/
  | groupStart (path : Path)
  /-- GROUP_STOP (R234): CELL_GCTRL group STOP stops cells and begins the controlled stop of RUN cells. -/
  | groupStop (path : Path)
  /-- PRECHARGE_TIMEOUT (R185): PRECHTO expires in PRECHARGE, so the cell goes to FAILED with EV_CELL_PRECHG. -/
  | prechargeTimeout (cell : CellId)
  /-- STAGING_RESEND_TIMEOUT (R182): 16 periods without an ACK or NAK for an immediate set causes a resend, or a final failure with EV_CELL_PARAM. -/
  | stagingResendTimeout (cell : CellId)
  /-- CE_CLR_SATLAST (R216): CE_CLR.SATLAST clears CE_SATLAST. -/
  | ceClrSatlast (path : Path)
  /-- CE_CLR_MAXFIN (R216): CE_CLR.MAXFIN clears MAXFIN in every slice. -/
  | ceClrMaxfin (path : Path)
  /-- TRACE_ARM (R214): CE_TRCTRL.ARM clears trace channels and starts them in their mode. -/
  | traceArm (path : Path) (mask : BitVec 16)
  /-- TRACE_STOP (R214): CE_TRCTRL.STOP stops trace channels. -/
  | traceStop (path : Path) (mask : BitVec 16)
  /-- TRACE_SW_TRIGGER (R214): CE_TRTRIG.SW triggers the trace channels at the next window end. -/
  | traceSwTrigger (path : Path) (val : Word)
  /-- TRACE_HALF_SPILL (R214): A completed half buffer in spill mode is handed to capture memory, or is overwritten with EV_TRACE_LOST. -/
  | traceHalfSpill (chan : Fin 16) (accepted : Bool)
  /-- LVS_CMP_HOST_WRITE (R257): A write to LVS_CMPn commits to the shadow for a host pair, or returns STATE for an engine pair. -/
  | lvsCmpHostWrite (path : Path) (chan : ChanId) (val : Word) (atReload : Bool)
  /-- LVS_FORCE_GO (R263): LVS_FORCEGO.GO transfers all force fields into force in one CT. -/
  | lvsForceGo (path : Path)
  /-- LVS_FORCE_RELEASE (R263): LVS_FORCEGO.RELEASE sets every force in force to none. -/
  | lvsForceRelease (path : Path)
  /-- PWM_PERIOD_WRAP (R264): At a counter wrap SHOOTCNT is evaluated, and the pair trips with EV_LV_SHOOT at SHOOTN. -/
  | pwmPeriodWrap (chan : ChanId)
  /-- TRIP_LINE_ACTIVE (R266): A trip line's filtered state becomes active, drives its scope low, latches and raises EV_LV_TRIP. -/
  | tripLineActive (line : Fin 8)
  /-- TRIP_LINE_CLEAR (R280): W1C of LVS_TRIPSTAT.LATCHED clears a line whose filtered state is inactive, or sets TRIP_CLR_REJ. -/
  | tripLineClear (path : Path) (line : Fin 8)
  /-- SHOOT_TRIP_CLEAR (R280): W1C of SHOOT_REJ clears a SHOOTN trip when no force is on, or is refused. -/
  | shootTripClear (path : Path) (pair : PairId)
  /-- FAULT_ACTIVE (R276): FAULTn becomes active outside blanking, latches, raises EV_GD_FAULT and starts or joins the soft-turn-off hold. -/
  | faultActive (pair : PairId)
  /-- BLANKING_END (R274): At the end of blanking, a FAULTn that is already active is acted on. -/
  | blankingEnd (pair : PairId)
  /-- HOLD_RELEASE (R276): SOFTHOLD after the last joining FAULT, every output in the hold's scope goes low. -/
  | holdRelease
  /-- FAULT_CLEAR (R280): W1C of GDI_FLT.LATCHED clears a FAULT latch if conditions allow, or records a refusal. -/
  | faultClear (path : Path) (mask : BitVec 16)
  /-- READY_FALL (R279): READYn falls while its pair runs, raising EV_GD_READY. -/
  | readyFall (pair : PairId)
  /-- PUMP_START (R288): GDI_PUCTRL START queues the pump start against the budget. -/
  | pumpStart (path : Path)
  /-- PUMP_STOP (R288): GDI_PUCTRL STOP takes the pump to OFF. -/
  | pumpStop (path : Path)
  /-- PUMP_DIAG_STEP_END (R289): A diagnostic step completes its settle and compares the phase nodes. -/
  | pumpDiagStepEnd (low : BitVec 3) (high : BitVec 3)
  /-- PUMP_TBOOT_EXPIRY (R288): TBOOT after BOOT, the pump enters STARTING. -/
  | pumpTbootExpiry
  /-- PUMP_STARTHOLD_REACHED (R288): Speed has held at SPDOK for STARTHOLD, so the pump enters RUNNING and the start completes. -/
  | pumpStartholdReached
  /-- PUMP_STARTTO_EXPIRY (R288): STARTTO expires in STARTING, so START is raised as a pump fault. -/
  | pumpStarttoExpiry
  /-- HALL_CHANGE (R284): A filtered Hall code change recommutates the bridge and counts skips. -/
  | hallChange (code : BitVec 3) (bootLow : Bool)
  /-- HALL_INVALID_TIMEOUT (R284): An invalid Hall code lasting HALLTO raises the HALL fault. -/
  | hallInvalidTimeout
  /-- PUMP_OVERCURRENT (R286): The shunt exceeds ILIM, so the high side is cut for the cycle, and OC is raised after OCN cycles. -/
  | pumpOvercurrent
  /-- PUMP_STALL_TIMEOUT (R287): No Hall edge for STALLTO sets speed to 0 and raises STALL if d exceeds 0.1. -/
  | pumpStallTimeout
  /-- PUMP_VM_MEASURE (R290): Every 10 µs PU_VM is measured and drives BRK, OV and UV. -/
  | pumpVmMeasure (vm : PumpSense)
  /-- BRKMAX_EXPIRY (R290): BRK high longer than BRKMAX raises the BRK fault and drives BRK low. -/
  | brkmaxExpiry
  /-- RETRY_WAIT_EXPIRY (R292): At the end of the retry wait, the pump restarts, the chopper resumes, or a new fault is counted. -/
  | retryWaitExpiry (chan : Fin 3)
  /-- RETRY_CLEAN_EXPIRY (R292): CLEAN seconds without a fault return COUNT to 0. -/
  | retryCleanExpiry (chan : Fin 3)
  /-- RETRY_CLEAR (R292): GDI_RETRYCLR clears a LATCHED pump or chopper channel when its cause has ended. -/
  | retryClear (path : Path) (mask : BitVec 3)
  /-- FAST_SAMPLE (R296): All 24 fast channels sample together and write a frame into the fast ring. -/
  | fastSample (j : BitVec 9) (codes : Vector (BitVec 16) 24) (ready : FastReady)
  /-- FAST_RESULT_DEADLINE (R297): At 180 CT a channel without a result is invalid and raises EV_ADC_LATE. -/
  | fastResultDeadline
  /-- HK_SCAN_START (R301): At a boundary that is a multiple of SCANDIV, the housekeeping scan starts, or is skipped with EV_HK_TO. -/
  | hkScanStart
  /-- HK_CONVERSION_DONE (R302): A housekeeping conversion completes, and its address and range are checked. -/
  | hkConversionDone (entry : Nat) (chan : BitVec 5) (code : HkWord)
  /-- HK_SCAN_TIMEOUT (R302): SCANTO after the start boundary, an incomplete scan is invalid and raises EV_HK_TO. -/
  | hkScanTimeout
  /-- TEST_DAC_GO (R305): ADC_TESTCTL GO connects the test DAC and starts the automatic check. -/
  | testDacGo (path : Path) (hk : Bool) (chan : BitVec 5) (code : BitVec 10)
  /-- TEST_DAC_STOP (R305): ADC_TESTCTL STOP disconnects the DAC and ends any check. -/
  | testDacStop (path : Path)
  /-- TEST_DAC_CHECK_DONE (R305): The averaged mean is compared with the expected code, and EV_ADC_TEST is raised on failure. -/
  | testDacCheckDone (parity : Bool)
  /-- COMPARATOR_RAW_CHANGE (R307): A window comparator's raw output changes as its input crosses a threshold: the input has reached
  `input` µV at the balls, and the comparator has followed it. -/
  | comparatorRawChange (win : WinId) (upper : Bool) (input : Int)
  /-- WINDOW_OUTPUT_CHANGE (R308): A window's filtered output changes, feeding trip lines, choppers, capture, events and wake. -/
  | windowOutputChange (win : WinId) (upper : Bool) (level : WindowWord)
  /-- WINDOW_ENABLE (R309): A window enable presets INITSTATE, waits 16 clocks and fills the filter history. -/
  | windowEnable (win : WinId)
  /-- WINDOW_LATCH_CLEAR (R310): W1C of LATU or LATL clears a latch whose output is deasserted. -/
  | windowLatchClear (path : Path) (win : WinId) (latu : Bool) (latl : Bool)
  /-- AON_COMPARATOR_CHANGE (R313): An always-on comparator changes after 3 agreeing strobes and drives AON_WAKE: the input in mV at each. -/
  | aonComparatorChange (comp : Fin 4) (strobes : Vector Nat 3)
  /-- RESIGN_I_CHANGE (R321): A filtered RESIGN_I change drives election, takeover or EV_RED_PEER. -/
  | resignIChange (level : Bool)
  /-- ELECT_TIMEOUT (R323): RESIGN_I high for 1 ms (head A) or ELECTWAIT (head B) makes the head ACTIVE. -/
  | electTimeout
  /-- CONFLICT_TIMEOUT (R323): An active head B seeing RESIGN_I low for 1 ms meets resign condition CONFLICT. -/
  | conflictTimeout
  /-- PAD_STROBE_TIMEOUT (R321): The control island has not strobed the RESIGN_O pad for 2 × P, so the pad releases. -/
  | padStrobeTimeout
  /-- RESIGN (R333): A resign condition drives outputs low, releases RESIGN_O, sends CTRL RESIGN and enters RESIGNED. -/
  | resign (cond : ResignCond)
  /-- TAKEOVER (R334): At boundary b, the READY standby becomes ACTIVE and drives lanes, LV outputs and publications. -/
  | takeover
  /-- RED_MODE_WRITE (R319): A G2 write downgrades the redundancy mode while the converter is stopped. -/
  | redModeWrite (path : Path) (val : Word) (compl : Word)
  /-- RED_RESYNC (R328): RED_CTRL.RESYNC restarts the state copy to the standby. -/
  | redResync (path : Path)
  /-- RED_SWAP (R338): RED_CTRL.SWAP on the active schedules a planned role swap at boundary h. -/
  | redSwap (path : Path)
  /-- SWAPAGE_DUE (R337): The standby age exceeds SWAPDUE days and raises EV_RED_SWAPDUE. -/
  | swapageDue
  /-- SLICE_REINTEGRATED (R340): After three copy periods the masked slice is voted again and EV_RED_REINT is raised. -/
  | sliceReintegrated (slice : Fin 3)
  /-- WHITEOUT (R346): The whiteout latch is set, the LV outputs go low, and block-all frames follow until the cells block. -/
  | whiteout (cause : WhiteoutCause)
  /-- SAF_WOREQ (R345): SAF_CTRL.WOREQ sets the whiteout latch with class 0x9. -/
  | safWoreq (path : Path)
  /-- SAF_RESET (R349): SAF_CTRL.RESET is accepted if all conditions hold, and clears the latch at the next boundary. -/
  | safReset (path : Path)
  /-- TEST_PULSE (R352): A test-pulse source drives its low pulse in its quarter of TPPER. -/
  | testPulse (src : Fin 4) (low : Bool)
  /-- TEST_PULSE_CHECK (R353): At each pulse, each channel fed from the source is checked, and a test-pulse fault is latched after TPFAILN + 1 failures. -/
  | testPulseCheck (input : Fin 8) (chanB : Bool) (pass : Bool)
  /-- SAFE_INPUT_CHANGE (R354): A filtered safe-input channel change outside its mask sets or clears demand. -/
  | safeInputChange (input : Fin 8) (chanB : Bool) (high : Bool)
  /-- DISCREPANCY_TIMEOUT (R355): Channels differing for DISC ms latch a discrepancy and raise EV_SAF_DISC. -/
  | discrepancyTimeout (input : Fin 8)
  /-- TELEGRAM_COPY (R358): A valid telegram copy is paired, compared, accepted or whites out the head. -/
  | telegramCopy (port : Fin 2) (copy : Telegram)
  /-- TELEGRAM_WINDOW_EXPIRY (R358): TWIN passes with an unpaired copy, so it closes as a single. -/
  | telegramWindowExpiry (conn : Fin 4)
  /-- TELEGRAM_WATCHDOG_EXPIRY (R359): WDT without acceptance sends the connection to EXPIRED and sets whiteout. -/
  | telegramWatchdogExpiry (conn : Fin 4)
  /-- LOGIC_COPY_DISAGREE (R361): The safety logic copies differ for 2 CT, setting whiteout class 0xA and raising EV_SAF_LOGIC. -/
  | logicCopyDisagree
  /-- NET_LINK_CHANGE (R366): A port's link state changes and raises EV_NET_LINK. -/
  | netLinkChange (port : PortId) (link : LinkState)
  /-- NET_FRAME_RECEIVE (R367): A received frame is classified, VLAN-checked and policed, or dropped and counted. -/
  | netFrameReceive (port : PortId) (frame : NetFrame)
  /-- PTP_SYNC_SAMPLE (R373): A Sync offset sample is filtered or counted as a jump candidate, and steers network time. -/
  | ptpSyncSample (domain : Fin 2) (sample : PtpSample)
  /-- PTP_ANNOUNCE (R371): An Announce message feeds the best master clock algorithm of its domain. -/
  | ptpAnnounce (domain : Fin 2) (ann : PtpAnnounce)
  /-- PTP_ANNOUNCE_TIMEOUT (R374): The announce receipt timeout of the steering domain switches steering or enters HOLDOVER. -/
  | ptpAnnounceTimeout (domain : Fin 2)
  /-- PTP_PDELAY_REQ (R371): A Pdelay_Req is answered with a two-step Pdelay_Resp and Follow_Up. -/
  | ptpPdelayReq (port : PortId) (req : PdelayReq)
  /-- PTP_SELECT (R374): NET_PTPCTL.SELECT switches the steering domain, or returns STATE. -/
  | ptpSelect (path : Path) (sel : BitVec 2)
  /-- PTP_ARMSTEP (R376): NET_PTPCTL.ARMSTEP arms one step from the mean of the next 4 samples. -/
  | ptpArmstep (path : Path)
  /-- PERIOD_LOCK_SETTLED (R378): |e| within 10 ns for 1 s enters LOCKED and raises EV_PL_LOCK. -/
  | periodLockSettled
  /-- TOUT_ARM (R380): NET_TOUTCTLn.ARM latches target, period and width, or fires at once with LATE. -/
  | toutArm (path : Path) (out : Fin 8)
  /-- TOUT_STOP (R381): NET_TOUTCTLn.STOP ends the channel, or returns ABORT_LATE after a single pulse. -/
  | toutStop (path : Path) (out : Fin 8)
  /-- TOUT_TARGET_REACHED (R380): Network time reaches the target and a pulse starts. -/
  | toutTargetReached (out : Fin 8)
  /-- GOOSE_RECEIVE (R383): A GOOSE message is checked and updates or refreshes its subscription. -/
  | gooseReceive (msg : GooseMsg)
  /-- GOOSE_TAL_EXPIRY (R383): The time allowed to live or TALMAX passes, so the subscription becomes invalid with EV_GOOSE_TO. -/
  | gooseTalExpiry (sub : Fin 64)
  /-- SV_RECEIVE (R384): A Sampled Values frame is checked for gap, sync and quality, and is stored. -/
  | svReceive (msg : SvMsg)
  /-- GOOSE_RETRANSMIT (R386): A GOOSE publication retransmits at its doubling interval. -/
  | gooseRetransmit (pub : Fin 8)
  /-- RAP_OPEN (R388): An OPEN request sets up a session key and is answered with OPENED, or with BUSY. -/
  | rapOpen (req : RapOpenReq)
  /-- RAP_READ (R389): A READ request returns COUNT words and their status codes. -/
  | rapRead (msg : RapMsg)
  /-- RAP_READ_FIXED (R389): A READ at a fixed address returns COUNT reads of one address. -/
  | rapReadFixed (msg : RapMsg)
  /-- RAP_WRITE (R389): A WRITE request writes COUNT words in order and returns their status codes. -/
  | rapWrite (msg : RapMsg)
  /-- RAP_WRITE_FIXED (R389): A WRITE at a fixed address writes COUNT words to one address. -/
  | rapWriteFixed (msg : RapMsg)
  /-- RAP_KEEPALIVE (R389): A KEEPALIVE refreshes the session idle timer. -/
  | rapKeepalive (msg : RapMsg)
  /-- RAP_CLOSE (R389): A CLOSE ends the session, rolling back its transaction under R75. -/
  | rapClose (msg : RapMsg)
  /-- RAP_IDLE_TIMEOUT (R389): A session idle for IDLE seconds is closed and raises EV_RAP_SESSION. -/
  | rapIdleTimeout (session : Fin 4)
  /-- RECORDER_ARM (R400): ACQ_RCTLk.ARM takes a recorder from IDLE to FILL. -/
  | recorderArm (path : Path) (rec : RecId)
  /-- RECORDER_STOP (R401): ACQ_RCTLk.STOP discards, truncates or returns ABORT_LATE depending on the recorder state. -/
  | recorderStop (path : Path) (rec : RecId)
  /-- RECORDER_FORCE (R399): ACQ_RCTLk.FORCE offers a SOFTWARE trigger condition. -/
  | recorderForce (path : Path) (rec : RecId)
  /-- RECORDER_TRIGGER (R399): The trigger function completes, the instant is placed and the recorder enters POST. `tofs`: where the
  TDC stamps place a LEVEL crossing in CAL (R397), in units of 50 ps. -/
  | recorderTrigger (rec : RecId) (tofs : BitVec 12)
  /-- RECORDER_HOLDOFF_EXPIRY (R399): HOLDOFF samples after ARM or re-arm, the recorder accepts conditions again. -/
  | recorderHoldoffExpiry (rec : RecId)
  /-- RECORDER_POST_COMPLETE (R400): POST rows have followed the trigger, so the recorder closes its record and writes the header. -/
  | recorderPostComplete (rec : RecId)
  /-- MASK_VIOLATION (R402): A sample outside its mask segment counts, raises EV_ACQ_MASK and acts per ACTION. `row` counts from the
  recorder's ARM, its first row being 0. -/
  | maskViolation (mask : Fin 8) (row : Word)
  /-- PAGE_EVICTION (R406): A stream needing a page evicts from the oldest unprotected record, or truncates with NOPAGE. -/
  | pageEviction (rec : RecId)
  /-- ACQ_OVERRUN (R392): The engine falls behind the fast ring, raising EV_ACQ_OVRUN and truncating physical records. -/
  | acqOverrun
  /-- CAL_GO (R395): ACQ_CALCTRL.GO starts a CAL with cause 0b010. -/
  | calGo (path : Path)
  /-- CAL_COMPLETE (R395): After 4,096 instants the skews are written, FD values recomputed and EV_ACQ_CAL raised. -/
  | calComplete (skews : List Int)
  /-- WMAP_CLAIM (R411): An ACQ_WMAPs write with OWN = 1 claims and maps a page into a window slot. -/
  | wmapClaim (path : Path) (slot : Fin 32) (page : BitVec 12)
  /-- WMAP_RELEASE (R411): An ACQ_WMAPs write with OWN = 0 releases the slot's page. -/
  | wmapRelease (path : Path) (slot : Fin 32)
  /-- DIR_PROTECT (R405): ACQ_DIRCTL protect marks a record protected. -/
  | dirProtect (path : Path)
  /-- DIR_UNPROTECT (R405): ACQ_DIRCTL unprotect removes a record's protection. -/
  | dirUnprotect (path : Path)
  /-- DIR_DELETE (R405): ACQ_DIRCTL delete removes a closed, unowned record. -/
  | dirDelete (path : Path)
  /-- MAP_SNAP (R410): ACQ_MAPCTL.SNAP copies the live map page into the snapshot page. -/
  | mapSnap (path : Path)
  /-- MAP_SNAP_DONE (R410): The map snapshot copy completes within 2 ms and clears BUSY. -/
  | mapSnapDone
  /-- MAP_CLR (R410): ACQ_MAPCTL.CLR zeroes the live map page. -/
  | mapClr (path : Path)
  /-- CLOCK_ALARM (R418): A stop detector or frequency window alarms, and the head resigns, loses lanes or recovers the PLL. -/
  | clockAlarm (clk : ClockId) (dev : BitVec 16)
  /-- PLL_RECOVERY_DONE (R419): A recovered PLL stays within TOL for 1 ms, so its alarm clears, crossings resume and CAL runs. -/
  | pllRecoveryDone (clk : ClockId)
  /-- CLKOUT_CONFIG_APPLY (R420): A CLKOUT enable, disable or change applies at a clean edge of the divided clock. -/
  | clkoutConfigApply (out : Fin 2)
  /-- DIE_SENSOR_READ (R422): Every 1 ms die sensors are read, validated and evaluated against warning, throttle, shutdown and band levels. -/
  | dieSensorRead (readings : List TempWord)
  /-- EXT_DIODE_READ (R422): Every 10 ms external diodes are read and their thermal levels evaluated. -/
  | extDiodeRead (readings : List TempWord)
  /-- NET_TIMELO_READ (R368): A read of NET_TIMELO latches NET_TIMEHI. -/
  | netTimeloRead (path : Path)
  /-- CLK_RTCLO_READ (R421): A read of CLK_RTCLO latches CLK_RTCHI. -/
  | clkRtcloRead (path : Path)
  /-- COMMAND_FRAME_TERMINATE (R326): A standby head terminates an arriving command frame, checks each record's CRC, counts failures in RED_XERR and takes the allocator state from the leg fields. -/
  | commandFrameTerminate (lane : LaneId) (recs : List GatherRec)
  /-- PWM_COMPARE_MATCH (R254): A channel counter reaches CMP, so its raw drive falls and the complementary raw drive rises, starting the delay stage. -/
  | pwmCompareMatch (chan : ChanId)
  /-- DEAD_TIME_EXPIRY (R260): A raw drive has held its level for DR or DF CT, so the output changes and, on a rise, blanking starts. -/
  | deadTimeExpiry (pair : PairId) (high : Bool)
  /-- PUMP_PWM_WRAP (R285): The pump PWM counter wraps, takes the committed duty, ends a cycle-by-cycle current cut and counts limited cycles towards OC. -/
  | pumpPwmWrap
  /-- CHOP_TONMIN_EXPIRY (R267): The TONMIN hold of a hysteresis chopper ends, so the output follows a window change that was held back. -/
  | chopTonminExpiry (chop : Fin 2)
  /-- FAULT_RELEASE (R273): The filtered FAULTn state returns to inactive after FFILT + 1 CT, so a later clear can be accepted. -/
  | faultRelease (pair : PairId)
  /-- READY_RISE (R279): The filtered READYn rises, clearing GDI_FLT.READYLOW and allowing a held use to start at its next reload. -/
  | readyRise (pair : PairId)
  /-- TRIP_LINE_INACTIVE (R266): A trip line's filtered state returns to inactive, clearing its ACTIVE bit so that a clear of its latch can succeed. -/
  | tripLineInactive (line : Fin 8)
  /-- TOUT_PULSE_END (R380): A timed output pulse ends after W ns of network clocks; a single-mode channel sets DONE and returns to idle. -/
  | toutPulseEnd (out : Fin 8)
  /-- KEYOP_COMPLETE (R122): A key operation ends, clearing SEC_KEYSTAT.BUSY, setting FAIL on failure and clearing SEC_KEYBUF. -/
  | keyopComplete
  /-- HSPI_RESET (R75): A reset of the HSPI target port at once rolls back a transaction owned by the HSPI path. -/
  | hspiReset
  deriving DecidableEq, Repr

end Sys2Proof
end

