-- ==== Sys2Proof/Config.lean ====
section
/-! DEFINITION. What an implementation fixes and the spec leaves open: constants with no body, so that nothing holds of them
but what holds of every value. -/

namespace Sys2Proof.Config

/-- SYS_ID.STEP: the silicon step (R91, "per silicon"). -/
opaque siliconStep : Nat

/-- Whether entry `k` of the 256-entry cosine and sine tables that PR reads is rounded up to its last bit, Q2.30; R194 gives the functions
and not the rounding of their entries. -/
opaque cosUp : Nat → Bool
opaque sinUp : Nat → Bool

/-- The result of a division by zero in the arithmetic of the engine; the spec states none (R220, R222, R223, R245). -/
opaque divByZero : Rat → Rat

/-- Tap `i` of the 16-tap fractional-delay filter at FD (units of 50 ps), for the code `i` samples back; R394 gives its delay and not its
taps. The model asks for them only where the delay is no whole number of samples. -/
opaque fdTap : Int → Nat → Rat

/-- How many frames beyond the first the policer of a class lets pass at once (R367 gives only its rate). -/
opaque policerDepth : Nat → Nat

/-- KP and KI of the time servo, in parts per 10¹² per ns (R373 names them and gives no value). -/
opaque ptpKp : Rat
opaque ptpKi : Rat

/-- CPLL steering in ppb that the period lock chooses for a phase error in ns, before its limit (R378 gives the limit). -/
opaque pullSteer : Int → Int

/-- DEADBAND of a published FLOAT32 element, by publication and element (the layout of NET_GPEL leaves it no place beside
SCALE). -/
opaque gooseDeadband : Nat → Nat → Rat

/-- Where a state address of a COPY entry points: an instance's state (instance, index), or a cell's engine state (cell, index);
R325 and R340 give the addresses no layout. -/
opaque copyBlk : Nat → Option (Nat × Nat)
opaque copyCell : Nat → Option (Nat × Nat)

/-- CPLL steering in ppb that an aligning standby chooses for its boundary error in 1/16 CT, before its limit (R324 gives the limit). -/
opaque alignSteer : Int → Int

/-- SYNCPCT after a number of COPY entries, before the pass is complete (R328 gives no scale). -/
opaque copyPct : Nat → Nat

/-- Cause class a standby records when it takes over in whiteout because the last INPUT segment carried 0x921 = 0 (R350 names
none). -/
opaque takeoverClass : Nat

/-- Kind and index that RED_VOTEITEM takes for a slice that is a minority because it was late or had an uncorrectable error: R340 asks for
the item, and there is none. -/
opaque noItemKind : Nat
opaque noItemIndex : Nat

/-! Cryptography (R106, R120, R130, R131, R388): only the outcome is used. -/

/-- SHA-512 and SHA-384: 64 and 48 bytes. -/
opaque sha512Bytes : List Byte → Vector Byte 64
opaque sha384Bytes : List Byte → Vector Byte 48
def sha512 (x : List Byte) : List Byte := (sha512Bytes x).toList
def sha384 (x : List Byte) : List Byte := (sha384Bytes x).toList

/-- A signature over a digest under a public key verifies: Ed25519ph and HashML-DSA-65. -/
opaque ed25519phOk : List Byte → List Byte → List Byte → Bool
opaque mlDsaOk : List Byte → List Byte → List Byte → Bool

/-- AES-256-GCM of key, IV, additional data, ciphertext and tag: the plaintext when the tag matches. -/
opaque gcmOpen : List Byte → List Byte → List Byte → List Byte → List Byte → Option (List Byte)

/-- A Trelnan unlock token is bound to this device. -/
opaque tokenOk : List Byte → Bool

/-- The device's signatures over a report. -/
opaque ed25519Sign : List Byte → List Byte
opaque mlDsaSign : List Byte → List Byte

/-- The device identity number, keys and certificates in the window of R457, by word. -/
opaque deviceWord : Nat → Word

/-- HMAC-SHA-256 of a key and a message. -/
opaque hmac : List Byte → List Byte → List Byte

/-- transportSpecific or majorSdoId that a PROFILE code asks for (R371 checks it and gives no value). -/
opaque ptpSdo : Nat → Nat

/-- Bytes from the on-die random source: draw and length. -/
opaque randomBytes : Nat → Nat → List Byte

end Sys2Proof.Config
end

