-- ==== Sys2Proof/Machine/Arith.lean ====
section
/-! DEFINITION. Bit fields, byte order, checksums and the rounding arithmetic that several chapters share. -/

namespace Sys2Proof.Machine

/-- Bits `hi` down to `lo` of a number. -/
def bitsOf (w hi lo : Nat) : Nat := (w >>> lo) % 2 ^ (hi - lo + 1)

/-- Bit `i` of a number. -/
def bitOf (w i : Nat) : Bool := w.testBit i

/-- A number as two's complement of `n` bits. -/
def toSigned (n v : Nat) : Int := if v % 2 ^ n < 2 ^ (n - 1) then (v % 2 ^ n : Nat) else ((v % 2 ^ n : Nat) : Int) - 2 ^ n

/-- An integer as the two's complement code of `n` bits. -/
def ofSigned (n : Nat) (z : Int) : Nat := (z % (2 ^ n : Nat)).toNat

/-- Clamp an integer to the closed range `lo` to `hi`. -/
def clampI (lo hi z : Int) : Int := max lo (min hi z)

/-- Saturating increment of a counter whose largest value is `top` (R87). -/
def satInc (top n : Nat) : Nat := min (n + 1) top

/-- Little-endian value of a list of bytes (R98: all multi-byte fields are little-endian). -/
def leValue : List Byte → Nat
  | [] => 0
  | b :: bs => b.toNat + 256 * leValue bs

/-- The `n` little-endian bytes of a number. -/
def leBytes : Nat → Nat → List Byte
  | 0, _ => []
  | n + 1, v => BitVec.ofNat 8 v :: leBytes n (v / 256)

/-- The value of `n` bytes at an offset of a byte list; bytes past the end count as zero. -/
def leAt (bs : List Byte) (ofs n : Nat) : Nat := leValue ((bs.drop ofs).take n)

/-- Pad or cut a byte list to `n` bytes. -/
def padTo (n : Nat) (bs : List Byte) : List Byte := bs.take n ++ List.replicate (n - bs.length) 0

/-- One bit of a reflected CRC step with the reflected polynomial `poly`. -/
def crcBitR (poly : Nat) (c : Nat) : Nat := if c % 2 = 1 then (c / 2) ^^^ poly else c / 2

/-- One byte of a reflected CRC. -/
def crcByteR (poly c : Nat) (b : Byte) : Nat := (List.range 8).foldl (fun x _ => crcBitR poly x) (c ^^^ b.toNat)

/-- CRC-32C with the parameters of R83: polynomial 0x1EDC_6F41, reflected input and output, initial value and final
XOR 0xFFFF_FFFF. -/
def crc32c (bs : List Byte) : Nat := (bs.foldl (crcByteR 0x82F63B78) 0xFFFFFFFF) ^^^ 0xFFFFFFFF

/-- Round a rational to the nearest integer, halves away from zero (R193). -/
def roundHalfAway (q : Rat) : Int := if q < 0 then -((-q + 1/2).floor) else (q + 1/2).floor

/-- Saturate an integer to a signed format of `n` bits. -/
def satSigned (n : Nat) (z : Int) : Int := clampI (-(2 ^ (n - 1))) (2 ^ (n - 1) - 1) z

/-- Natural number square root of a non-negative rational to 48 fractional bits. -/
def sqrtQ (q : Rat) : Rat := if q ≤ 0 then 0 else mkRat (Nat.sqrt ((q * 2 ^ 96).floor.toNat)) (2 ^ 48)

/-- π as a rational, exact to below 2⁻¹⁰⁰. -/
def piQ : Rat := mkRat 3141592653589793238462643383279502884197 (10 ^ 39)

/-- Mask of bits `hi` to `lo` of a register word. -/
def fieldMask (hi lo : Nat) : Word := BitVec.ofNat 32 ((2 ^ (hi - lo + 1) - 1) <<< lo)

/-- Bits `hi` to `lo` of a register word. -/
def fieldGet (w : Word) (hi lo : Nat) : Nat := (w.extractLsb' lo (hi - lo + 1)).toNat

/-- Write bits `hi` to `lo` of a register word; higher bits of the value are dropped. -/
def fieldSet (w : Word) (hi lo v : Nat) : Word :=
  (w &&& ~~~ fieldMask hi lo) ||| ((BitVec.ofNat 32 v <<< lo) &&& fieldMask hi lo)

/-- Set or clear one bit of a number. -/
def setBit (n i : Nat) (b : Bool) : Nat :=
  if n.testBit i = b then n else if b then n + 2 ^ i else n - 2 ^ i

/-- One byte of the CRC-16 of R169, most significant bit first, polynomial 0x1021. -/
def crc16Byte (c : Nat) (b : Byte) : Nat :=
  (List.range 8).foldl (fun x _ => if x.testBit 15 then ((x * 2) % 65536) ^^^ 0x1021 else (x * 2) % 65536)
    (c ^^^ (b.toNat * 256))

/-- Ceiling division of naturals. -/
def ceilDiv (a b : Nat) : Nat := (a + b - 1) / b

/-- The words of a byte list, four little-endian bytes each. -/
def wordsOf : List Byte → List Word
  | [] => []
  | a :: b :: c :: d :: bs => BitVec.ofNat 32 (leValue [a, b, c, d]) :: wordsOf bs
  | bs => [BitVec.ofNat 32 (leValue bs)]

/-- The bytes of a list of words, little-endian. -/
def bytesOf (ws : List Word) : List Byte := ws.flatMap fun w => leBytes 4 w.toNat

end Sys2Proof.Machine
end

