-- ==== Sys2Proof/Machine/RegTable.lean ====
section
/-! DEFINITION. The register table of the part, from the register-map rule of each chapter (R57, R91, R135, R164, R189,
R216, R238, R252, R270, R294, R316, R317, R344, R365, R391, R413, R434, R435) and the tags of R455: one row per register family,
one field constant per named field. A reset value the spec takes from the image, from OTP or from MRAM stands as 0 here
(log entry 3); State.reset and the image loader write the others. -/

namespace Sys2Proof.Machine

/-- Access types of R8. -/
inductive Acc where | ro | rw | w1c | wo
  deriving DecidableEq, Repr

/-- Guard classes of R67 and R69. -/
inductive Guard where | open_ | g1 | g2
  deriving DecidableEq, Repr

/-- Apply points of R9. -/
inductive ApplyPt where | immediate | period | pwm | frame | packet
  deriving DecidableEq, Repr

/-- One field of a register: its place, access, guard, apply point, reset value and stated range. -/
structure FieldSpec where
  hi : Nat
  lo : Nat
  acc : Acc
  guard : Guard
  apply : ApplyPt
  reset : Nat
  min : Nat
  max : Nat
  deriving DecidableEq, Repr

/-- One register family: instance (i, j) lies at base + s1 × i + s2 × j. `cfg` and `cell` are the tags of R455. -/
structure Row where
  base : Nat
  s1 : Nat
  n1 : Nat
  s2 : Nat
  n2 : Nat
  cfg : Bool
  cell : Bool
  fields : List FieldSpec
  deriving DecidableEq, Repr

/-- A named field of a register family: where the family lies and which bits the field takes. -/
structure Fld where
  base : Nat
  s1 : Nat
  s2 : Nat
  hi : Nat
  lo : Nat
  deriving DecidableEq, Repr

/-- Address of instance (i, j) of a family. -/
def Row.addr (r : Row) (i : Nat := 0) (j : Nat := 0) : Nat := r.base + r.s1 * i + r.s2 * j

/-- Address of instance (i, j) of the family a field belongs to. -/
def Fld.addr (f : Fld) (i : Nat := 0) (j : Nat := 0) : Nat := f.base + f.s1 * i + f.s2 * j

/-- Number of values a field can hold. -/
def Fld.size (f : Fld) : Nat := 2 ^ (f.hi - f.lo + 1)

/-- Mask of a field. -/
def FieldSpec.mask (f : FieldSpec) : Nat := (2 ^ (f.hi - f.lo + 1) - 1) <<< f.lo

/-- The word that the table's reset values form. -/
def Row.resetWord (r : Row) : Nat := r.fields.foldl (fun w f => w ||| (f.reset <<< f.lo)) 0

namespace R
/-- SYS_ID (R91). -/
def SYS_ID : Row := ⟨0x0, 0x0, 1, 0x0, 1, false, false,
  [⟨31, 16, .ro, .open_, .immediate, 0x7640, 0, 65535⟩,
   ⟨15, 8, .ro, .open_, .immediate, 0, 0, 255⟩]⟩
/-- SYS_THAW (R91). -/
def SYS_THAW : Row := ⟨0x10, 0x0, 1, 0x0, 1, false, false,
  [⟨15, 0, .wo, .open_, .immediate, 0, 0, 65535⟩]⟩
/-- SYS_GSTAT (R91). -/
def SYS_GSTAT : Row := ⟨0x14, 0x0, 1, 0x0, 1, false, false,
  [⟨15, 11, .ro, .open_, .immediate, 0, 0, 31⟩,
   ⟨10, 8, .ro, .open_, .immediate, 0, 0, 7⟩,
   ⟨7, 7, .ro, .open_, .immediate, 0, 0, 1⟩]⟩
/-- SYS_WRSTAT (R91). -/
def SYS_WRSTAT : Row := ⟨0x18, 0x0, 1, 0x0, 1, false, false,
  [⟨19, 0, .ro, .open_, .immediate, 0, 0, 1048575⟩]⟩
/-- SYS_TXN (R91). -/
def SYS_TXN : Row := ⟨0x20, 0x0, 1, 0x0, 1, false, false,
  [⟨8, 8, .wo, .open_, .immediate, 0, 0, 1⟩,
   ⟨1, 0, .wo, .open_, .immediate, 0, 0, 3⟩]⟩
/-- SYS_TXNSTAT (R91). -/
def SYS_TXNSTAT : Row := ⟨0x24, 0x0, 1, 0x0, 1, false, false,
  [⟨31, 18, .ro, .open_, .immediate, 0, 0, 16383⟩,
   ⟨17, 15, .ro, .open_, .immediate, 0, 0, 7⟩,
   ⟨14, 12, .ro, .open_, .immediate, 0, 0, 7⟩,
   ⟨11, 11, .ro, .open_, .immediate, 0, 0, 1⟩,
   ⟨2, 0, .ro, .open_, .immediate, 0, 0, 7⟩]⟩
/-- SYS_TXNCELL (R91). -/
def SYS_TXNCELL : Row := ⟨0x28, 0x0, 1, 0x0, 1, false, false,
  [⟨24, 16, .ro, .open_, .immediate, 0, 0, 511⟩,
   ⟨8, 0, .ro, .open_, .immediate, 0, 0, 511⟩]⟩
/-- SYS_TXNACT (R91). -/
def SYS_TXNACT : Row := ⟨0x2C, 0x0, 1, 0x0, 1, false, false,
  [⟨31, 0, .ro, .open_, .immediate, 0, 0, 4294967295⟩]⟩
/-- SYS_TXNCFG (R91). -/
def SYS_TXNCFG : Row := ⟨0x30, 0x0, 1, 0x0, 1, true, false,
  [⟨31, 24, .rw, .g1, .period, 0xA, 1, 255⟩,
   ⟨23, 16, .rw, .g1, .period, 0x14, 1, 255⟩,
   ⟨5, 0, .rw, .g1, .period, 8, 1, 63⟩]⟩
/-- SYS_CFGREF (R91). -/
def SYS_CFGREF : Row := ⟨0x40, 0x0, 1, 0x0, 1, false, false,
  [⟨31, 0, .rw, .g1, .period, 0, 0, 4294967295⟩]⟩
/-- SYS_CFGCRC (R91). -/
def SYS_CFGCRC : Row := ⟨0x44, 0x0, 1, 0x0, 1, false, false,
  [⟨31, 0, .ro, .open_, .immediate, 0, 0, 4294967295⟩]⟩
/-- SYS_CFGSTAT (R91). -/
def SYS_CFGSTAT : Row := ⟨0x48, 0x0, 1, 0x0, 1, false, false,
  [⟨31, 16, .ro, .open_, .immediate, 0, 0, 65535⟩,
   ⟨15, 8, .ro, .open_, .immediate, 0, 0, 255⟩,
   ⟨1, 1, .ro, .open_, .immediate, 0, 0, 1⟩,
   ⟨0, 0, .w1c, .open_, .immediate, 0, 0, 1⟩]⟩
/-- SYS_FREEZE (R91). -/
def SYS_FREEZE : Row := ⟨0x50, 0x0, 1, 0x0, 1, false, false,
  [⟨0, 0, .wo, .open_, .immediate, 0, 0, 1⟩]⟩
/-- SYS_FRZSTAT (R91). -/
def SYS_FRZSTAT : Row := ⟨0x54, 0x0, 1, 0x0, 1, false, false,
  [⟨31, 31, .ro, .open_, .immediate, 0, 0, 1⟩,
   ⟨15, 0, .ro, .open_, .immediate, 0, 0, 65535⟩]⟩
/-- SYS_FRZPER (R91). -/
def SYS_FRZPER : Row := ⟨0x58, 0x0, 1, 0x0, 1, false, false,
  [⟨31, 0, .ro, .open_, .immediate, 0, 0, 4294967295⟩]⟩
/-- SYS_PERIODLO (R91). -/
def SYS_PERIODLO : Row := ⟨0x60, 0x0, 1, 0x0, 1, false, false,
  [⟨31, 0, .ro, .open_, .immediate, 0, 0, 4294967295⟩]⟩
/-- SYS_PERIODHI (R91). -/
def SYS_PERIODHI : Row := ⟨0x64, 0x0, 1, 0x0, 1, false, false,
  [⟨31, 0, .ro, .open_, .immediate, 0, 0, 4294967295⟩]⟩
/-- SYS_FRZ (R91). -/
def SYS_FRZ : Row := ⟨0x4000, 0x8, 2048, 0x4, 2, false, false,
  [⟨31, 0, .ro, .open_, .immediate, 0, 0, 4294967295⟩]⟩
/-- EVT_CTRL (R57). -/
def EVT_CTRL : Row := ⟨0x10000, 0x0, 1, 0x0, 1, true, false,
  [⟨1, 1, .rw, .open_, .packet, 0, 0, 1⟩,
   ⟨0, 0, .rw, .g1, .period, 1, 0, 1⟩]⟩
/-- EVT_LOGWP (R57). -/
def EVT_LOGWP : Row := ⟨0x10004, 0x0, 1, 0x0, 1, false, false,
  [⟨16, 0, .ro, .open_, .immediate, 0, 0, 131071⟩]⟩
/-- EVT_LOGSEQ (R57). -/
def EVT_LOGSEQ : Row := ⟨0x10008, 0x0, 1, 0x0, 1, false, false,
  [⟨31, 0, .ro, .open_, .immediate, 0, 0, 4294967295⟩]⟩
/-- EVT_LOGSTAT (R57). -/
def EVT_LOGSTAT : Row := ⟨0x1000C, 0x0, 1, 0x0, 1, false, false,
  [⟨7, 7, .ro, .open_, .immediate, 0, 0, 1⟩,
   ⟨6, 0, .ro, .open_, .immediate, 0, 0, 127⟩]⟩
/-- EVT_IRQMASK (R57). -/
def EVT_IRQMASK : Row := ⟨0x10010, 0x0, 1, 0x0, 1, false, false,
  [⟨3, 0, .rw, .open_, .immediate, 0, 0, 15⟩]⟩
/-- EVT_IRQSTAT (R57). -/
def EVT_IRQSTAT : Row := ⟨0x10014, 0x0, 1, 0x0, 1, false, false,
  [⟨3, 0, .ro, .open_, .immediate, 0, 0, 15⟩]⟩
/-- EVT_CNTCLR (R57). -/
def EVT_CNTCLR : Row := ⟨0x10018, 0x0, 1, 0x0, 1, false, false,
  [⟨31, 31, .wo, .g1, .immediate, 0, 0, 1⟩,
   ⟨9, 0, .wo, .g1, .immediate, 0, 0, 1023⟩]⟩
/-- EVT_DERATE (R57). -/
def EVT_DERATE : Row := ⟨0x1001C, 0x0, 1, 0x0, 1, true, false,
  [⟨23, 16, .rw, .g1, .period, 0x64, 0, 255⟩,
   ⟨15, 0, .rw, .g1, .period, 0x2000, 0, 65535⟩]⟩
/-- EVT_EN (R57). -/
def EVT_EN : Row := ⟨0x10100, 0x4, 32, 0x0, 1, true, false,
  [⟨31, 0, .rw, .g1, .period, 0, 0, 4294967295⟩]⟩
/-- EVT_PEND (R57). -/
def EVT_PEND : Row := ⟨0x10200, 0x4, 32, 0x0, 1, false, false,
  [⟨31, 0, .w1c, .open_, .immediate, 0, 0, 4294967295⟩]⟩
/-- EVT_ACT (R57). -/
def EVT_ACT : Row := ⟨0x10300, 0x4, 32, 0x0, 1, false, false,
  [⟨31, 0, .ro, .open_, .immediate, 0, 0, 4294967295⟩]⟩
/-- EVT_CFG (R57). -/
def EVT_CFG : Row := ⟨0x11000, 0x4, 1024, 0x0, 1, true, false,
  [⟨26, 24, .ro, .open_, .immediate, 0, 0, 7⟩,
   ⟨23, 16, .rw, .g1, .period, 9, 0, 255⟩,
   ⟨15, 8, .rw, .g1, .period, 8, 0, 255⟩,
   ⟨4, 3, .rw, .g1, .period, 0, 0, 3⟩,
   ⟨2, 0, .rw, .g1, .period, 0, 0, 7⟩]⟩
/-- EVT_CNT (R57). -/
def EVT_CNT : Row := ⟨0x12000, 0x4, 1024, 0x0, 1, false, false,
  [⟨31, 0, .ro, .open_, .immediate, 0, 0, 4294967295⟩]⟩
/-- CLK_CFG (R434/R435). -/
def CLK_CFG : Row := ⟨0x20000, 0x0, 1, 0x0, 1, false, false,
  [⟨8, 8, .ro, .open_, .immediate, 0, 0, 1⟩,
   ⟨7, 0, .ro, .open_, .immediate, 0, 0, 255⟩]⟩
/-- CLK_STAT (R434/R435). -/
def CLK_STAT : Row := ⟨0x20004, 0x0, 1, 0x0, 1, false, false,
  [⟨10, 4, .ro, .open_, .immediate, 0, 0, 127⟩,
   ⟨3, 0, .ro, .open_, .immediate, 0, 0, 15⟩]⟩
/-- CLK_ALARM (R434/R435). -/
def CLK_ALARM : Row := ⟨0x20008, 0x0, 1, 0x0, 1, false, false,
  [⟨31, 16, .ro, .open_, .immediate, 0, 0, 65535⟩,
   ⟨15, 0, .w1c, .open_, .immediate, 0, 0, 65535⟩]⟩
/-- CLK_MONCFG (R434/R435). -/
def CLK_MONCFG : Row := ⟨0x2000C, 0x0, 1, 0x0, 1, true, false,
  [⟨31, 16, .rw, .g1, .period, 0x64, 20, 1000⟩,
   ⟨7, 0, .rw, .g1, .period, 5, 2, 50⟩]⟩
/-- CLK_CSTEER (R434/R435). -/
def CLK_CSTEER : Row := ⟨0x20010, 0x0, 1, 0x0, 1, false, false,
  [⟨31, 0, .ro, .open_, .immediate, 0, 0, 4294967295⟩]⟩
/-- CLK_RTCLO (R434/R435). -/
def CLK_RTCLO : Row := ⟨0x20018, 0x0, 1, 0x0, 1, false, false,
  [⟨31, 0, .ro, .open_, .immediate, 0, 0, 4294967295⟩]⟩
/-- CLK_RTCHI (R434/R435). -/
def CLK_RTCHI : Row := ⟨0x2001C, 0x0, 1, 0x0, 1, false, false,
  [⟨15, 0, .ro, .open_, .immediate, 0, 0, 65535⟩]⟩
/-- CLK_OUTCFG (R434/R435). -/
def CLK_OUTCFG : Row := ⟨0x20020, 0x4, 2, 0x0, 1, true, false,
  [⟨31, 31, .rw, .g1, .period, 0, 0, 1⟩,
   ⟨17, 16, .rw, .g1, .period, 0, 0, 3⟩,
   ⟨15, 0, .rw, .g1, .period, 1, 1, 65535⟩]⟩
/-- CLK_OUTSTAT (R434/R435). -/
def CLK_OUTSTAT : Row := ⟨0x20028, 0x0, 1, 0x0, 1, false, false,
  [⟨1, 0, .ro, .open_, .immediate, 0, 0, 3⟩]⟩
/-- THM_DIECFG0 (R434/R435). -/
def THM_DIECFG0 : Row := ⟨0x28000, 0x0, 1, 0x0, 1, true, false,
  [⟨27, 16, .rw, .g1, .period, 0x6A4, 0, 4095⟩,
   ⟨11, 0, .rw, .g1, .period, 0x640, 0, 4095⟩]⟩
/-- THM_DIECFG1 (R434/R435). -/
def THM_DIECFG1 : Row := ⟨0x28004, 0x0, 1, 0x0, 1, true, false,
  [⟨30, 26, .rw, .g1, .period, 5, 0, 31⟩,
   ⟨25, 21, .rw, .g1, .period, 5, 0, 31⟩,
   ⟨20, 16, .rw, .g1, .period, 0xA, 0, 31⟩,
   ⟨11, 0, .rw, .g1, .period, 0x71C, 0, 4095⟩]⟩
/-- THM_STAT (R434/R435). -/
def THM_STAT : Row := ⟨0x28008, 0x0, 1, 0x0, 1, false, false,
  [⟨31, 30, .ro, .open_, .immediate, 0, 0, 3⟩,
   ⟨29, 29, .ro, .open_, .immediate, 0, 0, 1⟩,
   ⟨15, 12, .ro, .open_, .immediate, 0, 0, 15⟩,
   ⟨11, 0, .ro, .open_, .immediate, 0, 0, 4095⟩]⟩
/-- THM_SRCSTAT (R434/R435). -/
def THM_SRCSTAT : Row := ⟨0x2800C, 0x0, 1, 0x0, 1, false, false,
  [⟨14, 0, .ro, .open_, .immediate, 0, 0, 32767⟩]⟩
/-- THM_LEVEL (R434/R435). -/
def THM_LEVEL : Row := ⟨0x28010, 0x0, 1, 0x0, 1, false, false,
  [⟨31, 0, .ro, .open_, .immediate, 0x7FFFFFFF, 0, 4294967295⟩]⟩
/-- THM_LIMSRC (R434/R435). -/
def THM_LIMSRC : Row := ⟨0x28014, 0x0, 1, 0x0, 1, false, false,
  [⟨31, 31, .ro, .open_, .immediate, 0, 0, 1⟩,
   ⟨9, 9, .ro, .open_, .immediate, 0, 0, 1⟩,
   ⟨8, 0, .ro, .open_, .immediate, 0, 0, 511⟩]⟩
/-- THM_CELLCFG (R434/R435). -/
def THM_CELLCFG : Row := ⟨0x28018, 0x0, 1, 0x0, 1, true, false,
  [⟨23, 16, .rw, .g1, .period, 3, 0, 255⟩,
   ⟨15, 8, .rw, .g1, .period, 0xA, 0, 255⟩,
   ⟨7, 0, .rw, .g1, .period, 0xF, 0, 255⟩]⟩
/-- THM_DIERD (R434/R435). -/
def THM_DIERD : Row := ⟨0x28020, 0x4, 8, 0x0, 1, false, false,
  [⟨31, 31, .ro, .open_, .immediate, 0, 0, 1⟩,
   ⟨11, 0, .ro, .open_, .immediate, 0, 0, 4095⟩]⟩
/-- THM_EXTCFG (R434/R435). -/
def THM_EXTCFG : Row := ⟨0x28040, 0x10, 4, 0x0, 1, true, false,
  [⟨31, 31, .rw, .g1, .period, 0, 0, 1⟩,
   ⟨27, 16, .rw, .g1, .period, 0, 0, 4095⟩,
   ⟨6, 0, .rw, .g1, .period, 8, 0, 100⟩]⟩
/-- THM_EXTTHR (R434/R435). -/
def THM_EXTTHR : Row := ⟨0x28044, 0x10, 4, 0x0, 1, true, false,
  [⟨27, 16, .rw, .g1, .period, 0, 0, 4095⟩,
   ⟨11, 0, .rw, .g1, .period, 0, 0, 4095⟩]⟩
/-- THM_EXTSH (R434/R435). -/
def THM_EXTSH : Row := ⟨0x28048, 0x10, 4, 0x0, 1, true, false,
  [⟨30, 26, .rw, .g1, .period, 5, 0, 31⟩,
   ⟨25, 21, .rw, .g1, .period, 5, 0, 31⟩,
   ⟨20, 16, .rw, .g1, .period, 5, 0, 31⟩,
   ⟨11, 0, .rw, .g1, .period, 0, 0, 4095⟩]⟩
/-- THM_EXTRD (R434/R435). -/
def THM_EXTRD : Row := ⟨0x2804C, 0x10, 4, 0x0, 1, false, false,
  [⟨31, 31, .ro, .open_, .immediate, 0, 0, 1⟩,
   ⟨11, 0, .ro, .open_, .immediate, 0, 0, 4095⟩]⟩
/-- THM_CELLLVL (R434/R435). -/
def THM_CELLLVL : Row := ⟨0x28100, 0x4, 288, 0x0, 1, false, false,
  [⟨2, 0, .ro, .open_, .immediate, 0, 0, 7⟩]⟩
/-- ADC_CTRL (R317). -/
def ADC_CTRL : Row := ⟨0x30000, 0x0, 1, 0x0, 1, true, false,
  [⟨1, 1, .rw, .g1, .period, 0, 0, 1⟩,
   ⟨0, 0, .rw, .g1, .period, 0, 0, 1⟩]⟩
/-- ADC_STAT (R317). -/
def ADC_STAT : Row := ⟨0x30004, 0x0, 1, 0x0, 1, false, false,
  [⟨24, 16, .ro, .open_, .immediate, 0, 0, 511⟩,
   ⟨1, 1, .ro, .open_, .immediate, 0, 0, 1⟩,
   ⟨0, 0, .ro, .open_, .immediate, 0, 0, 1⟩]⟩
/-- ADC_FBUFCFG (R317). -/
def ADC_FBUFCFG : Row := ⟨0x30008, 0x0, 1, 0x0, 1, true, false,
  [⟨2, 0, .rw, .g1, .period, 0, 0, 4⟩]⟩
/-- ADC_FBUFWP (R317). -/
def ADC_FBUFWP : Row := ⟨0x3000C, 0x0, 1, 0x0, 1, false, false,
  [⟨31, 0, .ro, .open_, .immediate, 0, 0, 4294967295⟩]⟩
/-- ADC_HKBUFCFG (R317). -/
def ADC_HKBUFCFG : Row := ⟨0x30010, 0x0, 1, 0x0, 1, true, false,
  [⟨2, 0, .rw, .g1, .period, 0, 0, 6⟩]⟩
/-- ADC_HKBUFWP (R317). -/
def ADC_HKBUFWP : Row := ⟨0x30014, 0x0, 1, 0x0, 1, false, false,
  [⟨31, 0, .ro, .open_, .immediate, 0, 0, 4294967295⟩]⟩
/-- ADC_HKCFG (R317). -/
def ADC_HKCFG : Row := ⟨0x30018, 0x0, 1, 0x0, 1, true, false,
  [⟨31, 24, .rw, .g1, .period, 0, 1, 255⟩,
   ⟨21, 16, .rw, .g1, .period, 0, 1, 32⟩,
   ⟨15, 0, .rw, .g1, .period, 0, 1, 65535⟩]⟩
/-- ADC_TESTCTL (R317). -/
def ADC_TESTCTL : Row := ⟨0x30020, 0x0, 1, 0x0, 1, false, false,
  [⟨31, 31, .wo, .g1, .immediate, 0, 0, 1⟩,
   ⟨30, 30, .wo, .g1, .immediate, 0, 0, 1⟩,
   ⟨29, 29, .wo, .g1, .immediate, 0, 0, 1⟩,
   ⟨28, 24, .wo, .g1, .immediate, 0, 0, 31⟩,
   ⟨9, 0, .wo, .g1, .immediate, 0, 0, 1023⟩]⟩
/-- ADC_TESTSTAT (R317). -/
def ADC_TESTSTAT : Row := ⟨0x30024, 0x0, 1, 0x0, 1, false, false,
  [⟨31, 31, .ro, .open_, .immediate, 0, 0, 1⟩,
   ⟨30, 30, .ro, .open_, .immediate, 0, 0, 1⟩,
   ⟨29, 29, .ro, .open_, .immediate, 0, 0, 1⟩,
   ⟨15, 0, .ro, .open_, .immediate, 0, 0, 65535⟩]⟩
/-- ADC_TESTTOL (R317). -/
def ADC_TESTTOL : Row := ⟨0x30028, 0x0, 1, 0x0, 1, false, false,
  [⟨15, 0, .rw, .open_, .immediate, 0xC8, 0, 65535⟩]⟩
/-- ADC_FCFG (R317). -/
def ADC_FCFG : Row := ⟨0x30100, 0x20, 24, 0x0, 1, true, false,
  [⟨29, 28, .rw, .g1, .period, 0, 0, 3⟩,
   ⟨27, 27, .rw, .g1, .period, 0, 0, 1⟩,
   ⟨3, 0, .rw, .g1, .period, 1, 1, 15⟩]⟩
/-- ADC_FOFS (R317). -/
def ADC_FOFS : Row := ⟨0x30104, 0x20, 24, 0x0, 1, true, false,
  [⟨15, 0, .rw, .g1, .period, 0, 0, 65535⟩]⟩
/-- ADC_FSCALE (R317). -/
def ADC_FSCALE : Row := ⟨0x30108, 0x20, 24, 0x0, 1, true, false,
  [⟨31, 0, .rw, .g1, .period, 0, 0, 4294967295⟩]⟩
/-- ADC_FLIM (R317). -/
def ADC_FLIM : Row := ⟨0x3010C, 0x20, 24, 0x0, 1, true, false,
  [⟨31, 16, .rw, .g1, .period, 0, 0, 65535⟩,
   ⟨15, 0, .rw, .g1, .period, 0, 0, 65535⟩]⟩
/-- ADC_FSUB (R317). -/
def ADC_FSUB : Row := ⟨0x30110, 0x20, 24, 0x0, 1, true, false,
  [⟨15, 0, .rw, .g1, .period, 0, 0, 65535⟩]⟩
/-- ADC_FRES (R317). -/
def ADC_FRES : Row := ⟨0x30114, 0x20, 24, 0x0, 1, false, false,
  [⟨31, 31, .ro, .open_, .immediate, 0, 0, 1⟩,
   ⟨30, 30, .ro, .open_, .immediate, 0, 0, 1⟩,
   ⟨15, 0, .ro, .open_, .immediate, 0, 0, 65535⟩]⟩
/-- ADC_FVAL (R317). -/
def ADC_FVAL : Row := ⟨0x30118, 0x20, 24, 0x0, 1, false, false,
  [⟨31, 0, .ro, .open_, .immediate, 0, 0, 4294967295⟩]⟩
/-- ADC_FERR (R317). -/
def ADC_FERR : Row := ⟨0x3011C, 0x20, 24, 0x0, 1, false, false,
  [⟨31, 0, .ro, .open_, .immediate, 0, 0, 4294967295⟩]⟩
/-- ADC_HKENT (R317). -/
def ADC_HKENT : Row := ⟨0x30400, 0x4, 32, 0x0, 1, true, false,
  [⟨15, 8, .rw, .g1, .period, 0, 0, 255⟩,
   ⟨4, 0, .rw, .g1, .period, 0, 0, 31⟩]⟩
/-- ADC_HCFG (R317). -/
def ADC_HCFG : Row := ⟨0x30500, 0x10, 32, 0x0, 1, true, false,
  [⟨31, 16, .rw, .g1, .period, 0, 0, 65535⟩,
   ⟨15, 4, .rw, .g1, .period, 0, 0, 4095⟩,
   ⟨3, 0, .rw, .g1, .period, 1, 1, 15⟩]⟩
/-- ADC_HSCALE (R317). -/
def ADC_HSCALE : Row := ⟨0x30504, 0x10, 32, 0x0, 1, true, false,
  [⟨31, 0, .rw, .g1, .period, 0, 0, 4294967295⟩]⟩
/-- ADC_HLIM (R317). -/
def ADC_HLIM : Row := ⟨0x30508, 0x10, 32, 0x0, 1, true, false,
  [⟨31, 16, .rw, .g1, .period, 0, 0, 65535⟩,
   ⟨15, 0, .rw, .g1, .period, 0, 0, 65535⟩]⟩
/-- ADC_HRES (R317). -/
def ADC_HRES : Row := ⟨0x3050C, 0x10, 32, 0x0, 1, false, false,
  [⟨31, 31, .ro, .open_, .immediate, 0, 0, 1⟩,
   ⟨27, 16, .ro, .open_, .immediate, 0, 0, 4095⟩,
   ⟨15, 0, .ro, .open_, .immediate, 0, 0, 65535⟩]⟩
/-- CMP_CFG (R317). -/
def CMP_CFG : Row := ⟨0x34100, 0x20, 16, 0x0, 1, true, false,
  [⟨31, 31, .rw, .g1, .period, 0, 0, 1⟩,
   ⟨28, 24, .rw, .g1, .period, 0, 0, 23⟩,
   ⟨23, 22, .rw, .g1, .period, 2, 0, 3⟩,
   ⟨21, 20, .rw, .g1, .period, 1, 0, 3⟩,
   ⟨19, 12, .rw, .g1, .period, 0, 0, 255⟩,
   ⟨11, 10, .rw, .g1, .period, 2, 0, 3⟩,
   ⟨9, 9, .rw, .g1, .period, 1, 0, 1⟩,
   ⟨8, 8, .rw, .g1, .period, 1, 0, 1⟩,
   ⟨7, 7, .rw, .g1, .period, 0, 0, 1⟩,
   ⟨6, 6, .rw, .g1, .period, 0, 0, 1⟩]⟩
/-- CMP_THR (R317). -/
def CMP_THR : Row := ⟨0x34104, 0x20, 16, 0x0, 1, true, false,
  [⟨25, 16, .rw, .g1, .period, 0, 0, 1023⟩,
   ⟨9, 0, .rw, .g1, .period, 0, 0, 1023⟩]⟩
/-- CMP_STAT (R317). -/
def CMP_STAT : Row := ⟨0x34108, 0x20, 16, 0x0, 1, false, false,
  [⟨31, 31, .ro, .open_, .immediate, 0, 0, 1⟩,
   ⟨30, 30, .ro, .open_, .immediate, 0, 0, 1⟩,
   ⟨29, 29, .ro, .open_, .immediate, 0, 0, 1⟩,
   ⟨28, 28, .ro, .open_, .immediate, 0, 0, 1⟩,
   ⟨1, 1, .w1c, .open_, .immediate, 0, 0, 1⟩,
   ⟨0, 0, .w1c, .open_, .immediate, 0, 0, 1⟩]⟩
/-- CMP_CAPU (R317). -/
def CMP_CAPU : Row := ⟨0x3410C, 0x20, 16, 0x0, 1, false, false,
  [⟨31, 0, .ro, .open_, .immediate, 0, 0, 4294967295⟩]⟩
/-- CMP_CAPL (R317). -/
def CMP_CAPL : Row := ⟨0x34110, 0x20, 16, 0x0, 1, false, false,
  [⟨31, 0, .ro, .open_, .immediate, 0, 0, 4294967295⟩]⟩
/-- CMP_CNT (R317). -/
def CMP_CNT : Row := ⟨0x34114, 0x20, 16, 0x0, 1, false, false,
  [⟨31, 16, .ro, .open_, .immediate, 0, 0, 65535⟩,
   ⟨15, 0, .ro, .open_, .immediate, 0, 0, 65535⟩]⟩
/-- CMP_AONCFG (R317). -/
def CMP_AONCFG : Row := ⟨0x34800, 0x4, 4, 0x0, 1, true, false,
  [⟨7, 7, .rw, .g1, .period, 0, 0, 1⟩,
   ⟨6, 6, .rw, .g1, .period, 0, 0, 1⟩,
   ⟨5, 0, .rw, .g1, .period, 0, 0, 63⟩]⟩
/-- CMP_AONSTAT (R317). -/
def CMP_AONSTAT : Row := ⟨0x34810, 0x0, 1, 0x0, 1, false, false,
  [⟨8, 8, .ro, .open_, .immediate, 0, 0, 1⟩,
   ⟨7, 4, .w1c, .open_, .immediate, 0, 0, 15⟩,
   ⟨3, 0, .ro, .open_, .immediate, 0, 0, 15⟩]⟩
/-- CMP_WAKECTL (R317). -/
def CMP_WAKECTL : Row := ⟨0x34814, 0x0, 1, 0x0, 1, false, false,
  [⟨0, 0, .rw, .g1, .immediate, 0, 0, 1⟩]⟩
/-- CE_CFG (R216). -/
def CE_CFG : Row := ⟨0x40000, 0x0, 1, 0x0, 1, false, false,
  [⟨27, 16, .ro, .open_, .immediate, 0, 0, 4095⟩,
   ⟨0, 0, .ro, .open_, .immediate, 0, 0, 1⟩]⟩
/-- CE_SCHED (R216). -/
def CE_SCHED : Row := ⟨0x40004, 0x0, 1, 0x0, 1, false, false,
  [⟨31, 16, .ro, .open_, .immediate, 0, 0, 65535⟩,
   ⟨15, 0, .ro, .open_, .immediate, 0, 0, 65535⟩]⟩
/-- CE_SPATH (R216). -/
def CE_SPATH : Row := ⟨0x40008, 0x0, 1, 0x0, 1, false, false,
  [⟨31, 16, .ro, .open_, .immediate, 0, 0, 65535⟩,
   ⟨15, 0, .ro, .open_, .immediate, 0, 0, 65535⟩]⟩
/-- CE_DLCNT (R216). -/
def CE_DLCNT : Row := ⟨0x4000C, 0x0, 1, 0x0, 1, false, false,
  [⟨31, 0, .ro, .open_, .immediate, 0, 0, 4294967295⟩]⟩
/-- CE_SLACK (R216). -/
def CE_SLACK : Row := ⟨0x40010, 0x0, 1, 0x0, 1, true, false,
  [⟨15, 0, .rw, .g1, .period, 0x18, 0, 65535⟩]⟩
/-- CE_SLSTAT (R216). -/
def CE_SLSTAT : Row := ⟨0x40020, 0x4, 3, 0x0, 1, false, false,
  [⟨31, 16, .ro, .open_, .immediate, 0, 0, 65535⟩,
   ⟨15, 0, .ro, .open_, .immediate, 0, 0, 65535⟩]⟩
/-- CE_ECCCNT (R216). -/
def CE_ECCCNT : Row := ⟨0x40030, 0x0, 1, 0x0, 1, false, false,
  [⟨31, 0, .ro, .open_, .immediate, 0, 0, 4294967295⟩]⟩
/-- CE_SATCNT (R216). -/
def CE_SATCNT : Row := ⟨0x40034, 0x0, 1, 0x0, 1, false, false,
  [⟨31, 0, .ro, .open_, .immediate, 0, 0, 4294967295⟩]⟩
/-- CE_SATLAST (R216). -/
def CE_SATLAST : Row := ⟨0x40038, 0x0, 1, 0x0, 1, false, false,
  [⟨31, 31, .ro, .open_, .immediate, 0, 0, 1⟩,
   ⟨10, 0, .ro, .open_, .immediate, 0, 0, 2047⟩]⟩
/-- CE_LOOPEN (R216). -/
def CE_LOOPEN : Row := ⟨0x40040, 0x0, 1, 0x0, 1, false, false,
  [⟨31, 1, .rw, .g1, .period, 0, 0, 2147483647⟩,
   ⟨0, 0, .rw, .g1, .period, 0, 0, 1⟩]⟩
/-- CE_CLR (R216). -/
def CE_CLR : Row := ⟨0x40044, 0x0, 1, 0x0, 1, false, false,
  [⟨1, 1, .wo, .open_, .immediate, 0, 0, 1⟩,
   ⟨0, 0, .wo, .open_, .immediate, 0, 0, 1⟩]⟩
/-- CE_ARBCFG (R216). -/
def CE_ARBCFG : Row := ⟨0x40080, 0x0, 1, 0x0, 1, true, false,
  [⟨13, 8, .rw, .g1, .period, 0, 0, 63⟩,
   ⟨0, 0, .rw, .g1, .period, 0, 0, 1⟩]⟩
/-- CE_ARBSTAT (R216). -/
def CE_ARBSTAT : Row := ⟨0x40084, 0x0, 1, 0x0, 1, false, false,
  [⟨4, 4, .ro, .open_, .immediate, 0, 0, 1⟩,
   ⟨3, 3, .ro, .open_, .immediate, 0, 0, 1⟩,
   ⟨2, 0, .ro, .open_, .immediate, 0, 0, 7⟩]⟩
/-- CE_ARBOUT (R216). -/
def CE_ARBOUT : Row := ⟨0x40088, 0x0, 1, 0x0, 1, false, false,
  [⟨31, 0, .ro, .open_, .immediate, 0, 0, 4294967295⟩]⟩
/-- CE_ARBCHG (R216). -/
def CE_ARBCHG : Row := ⟨0x4008C, 0x0, 1, 0x0, 1, false, false,
  [⟨31, 0, .ro, .open_, .immediate, 0, 0, 4294967295⟩]⟩
/-- CE_SP (R216). -/
def CE_SP : Row := ⟨0x400C0, 0x4, 16, 0x0, 1, false, false,
  [⟨31, 0, .rw, .open_, .period, 0, 0, 4294967295⟩]⟩
/-- CE_TRCFG (R216). -/
def CE_TRCFG : Row := ⟨0x40200, 0x4, 16, 0x0, 1, false, false,
  [⟨31, 30, .rw, .open_, .period, 0, 0, 3⟩,
   ⟨27, 24, .rw, .open_, .period, 0, 0, 15⟩,
   ⟨20, 12, .rw, .open_, .period, 0, 0, 511⟩,
   ⟨11, 0, .rw, .open_, .period, 0, 0, 4095⟩]⟩
/-- CE_TRCTRL (R216). -/
def CE_TRCTRL : Row := ⟨0x40240, 0x0, 1, 0x0, 1, false, false,
  [⟨31, 16, .wo, .open_, .immediate, 0, 0, 65535⟩,
   ⟨15, 0, .wo, .open_, .immediate, 0, 0, 65535⟩]⟩
/-- CE_TRTRIG (R216). -/
def CE_TRTRIG : Row := ⟨0x40244, 0x0, 1, 0x0, 1, false, false,
  [⟨31, 31, .wo, .open_, .immediate, 0, 0, 1⟩,
   ⟨27, 20, .rw, .open_, .period, 0x80, 0, 255⟩,
   ⟨11, 10, .rw, .open_, .period, 0, 0, 3⟩,
   ⟨9, 0, .rw, .open_, .period, 0, 0, 1023⟩]⟩
/-- CE_TRSTAT (R216). -/
def CE_TRSTAT : Row := ⟨0x40280, 0x4, 16, 0x0, 1, false, false,
  [⟨31, 30, .ro, .open_, .immediate, 0, 0, 3⟩,
   ⟨29, 29, .w1c, .open_, .immediate, 0, 0, 1⟩,
   ⟨15, 0, .ro, .open_, .immediate, 0, 0, 65535⟩]⟩
/-- CE_TRSEL (R216). -/
def CE_TRSEL : Row := ⟨0x402C0, 0x0, 1, 0x0, 1, false, false,
  [⟨19, 16, .rw, .open_, .immediate, 0, 0, 15⟩,
   ⟨7, 0, .rw, .open_, .immediate, 0, 0, 255⟩]⟩
/-- CE_TRPER (R216). -/
def CE_TRPER : Row := ⟨0x402C4, 0x0, 1, 0x0, 1, false, false,
  [⟨31, 0, .ro, .open_, .immediate, 0, 0, 4294967295⟩]⟩
/-- CE_OUT (R216). -/
def CE_OUT : Row := ⟨0x41000, 0x4, 2048, 0x0, 1, false, false,
  [⟨31, 0, .ro, .open_, .immediate, 0, 0, 4294967295⟩]⟩
/-- CE_TRWIN (R216). -/
def CE_TRWIN : Row := ⟨0x43000, 0x4, 256, 0x0, 1, false, false,
  [⟨31, 0, .ro, .open_, .immediate, 0, 0, 4294967295⟩]⟩
/-- CE_COEF (R216). -/
def CE_COEF : Row := ⟨0x44000, 0x4, 4096, 0x0, 1, true, false,
  [⟨31, 0, .rw, .open_, .period, 0, 0, 4294967295⟩]⟩
/-- CE_INSTR (R216). -/
def CE_INSTR : Row := ⟨0x48000, 0x30, 2048, 0x4, 3, false, false,
  [⟨31, 0, .ro, .open_, .immediate, 0, 0, 4294967295⟩]⟩
/-- CE_INSTW (R216). -/
def CE_INSTW : Row := ⟨0x4800C, 0x30, 2048, 0x4, 9, true, false,
  [⟨31, 0, .rw, .open_, .period, 0, 0, 4294967295⟩]⟩
/-- MVS_CFG (R238). -/
def MVS_CFG : Row := ⟨0x60000, 0x0, 1, 0x0, 1, true, false,
  [⟨2, 2, .rw, .g1, .period, 0, 0, 1⟩,
   ⟨1, 1, .rw, .g1, .period, 1, 0, 1⟩,
   ⟨0, 0, .rw, .g1, .period, 1, 0, 1⟩]⟩
/-- MVS_STOP (R238). -/
def MVS_STOP : Row := ⟨0x60004, 0x0, 1, 0x0, 1, true, false,
  [⟨31, 16, .rw, .g1, .period, 0x30D4, 1, 65535⟩,
   ⟨15, 0, .rw, .g1, .period, 0x333, 0, 8192⟩]⟩
/-- MVS_NETOFS (R238). -/
def MVS_NETOFS : Row := ⟨0x60008, 0x0, 1, 0x0, 1, true, false,
  [⟨15, 0, .rw, .g1, .period, 0, 0, 65535⟩]⟩
/-- MVS_STAT (R238). -/
def MVS_STAT : Row := ⟨0x6000C, 0x0, 1, 0x0, 1, false, false,
  [⟨1, 1, .ro, .open_, .immediate, 0, 0, 1⟩,
   ⟨0, 0, .ro, .open_, .immediate, 0, 0, 1⟩]⟩
/-- MVS_GCFG (R238). -/
def MVS_GCFG : Row := ⟨0x60020, 0x4, 6, 0x0, 1, true, false,
  [⟨31, 16, .rw, .g1, .period, 0x4666, 0, 65535⟩,
   ⟨15, 15, .rw, .g1, .period, 0, 0, 1⟩,
   ⟨14, 8, .rw, .g1, .period, 0, 0, 127⟩,
   ⟨7, 0, .rw, .g1, .period, 4, 0, 255⟩]⟩
/-- MVS_GSTAT (R238). -/
def MVS_GSTAT : Row := ⟨0x60040, 0x4, 6, 0x0, 1, false, false,
  [⟨31, 23, .ro, .open_, .immediate, 0, 0, 511⟩,
   ⟨22, 22, .ro, .open_, .immediate, 0, 0, 1⟩,
   ⟨21, 21, .ro, .open_, .immediate, 0, 0, 1⟩,
   ⟨20, 20, .ro, .open_, .immediate, 0, 0, 1⟩,
   ⟨19, 19, .ro, .open_, .immediate, 0, 0, 1⟩,
   ⟨14, 8, .ro, .open_, .immediate, 0, 0, 127⟩,
   ⟨6, 0, .ro, .open_, .immediate, 0, 0, 127⟩]⟩
/-- MVS_GTGT (R238). -/
def MVS_GTGT : Row := ⟨0x60060, 0x4, 6, 0x0, 1, false, false,
  [⟨15, 0, .ro, .open_, .immediate, 0x4000, 0, 65535⟩]⟩
/-- MVS_SWCNT (R238). -/
def MVS_SWCNT : Row := ⟨0x60080, 0x4, 6, 0x0, 1, false, false,
  [⟨31, 0, .ro, .open_, .immediate, 0, 0, 4294967295⟩]⟩
/-- MVS_CELL (R238). -/
def MVS_CELL : Row := ⟨0x61000, 0x4, 288, 0x0, 1, false, false,
  [⟨31, 16, .ro, .open_, .immediate, 0, 0, 65535⟩,
   ⟨15, 14, .ro, .open_, .immediate, 0, 0, 3⟩,
   ⟨13, 13, .ro, .open_, .immediate, 0, 0, 1⟩,
   ⟨12, 12, .ro, .open_, .immediate, 0, 0, 1⟩,
   ⟨8, 0, .ro, .open_, .immediate, 0, 0, 511⟩]⟩
/-- ISO_CFG (R252). -/
def ISO_CFG : Row := ⟨0x70000, 0x0, 1, 0x0, 1, true, false,
  [⟨2, 2, .rw, .g1, .period, 0, 0, 1⟩,
   ⟨1, 1, .rw, .g1, .period, 1, 0, 1⟩,
   ⟨0, 0, .rw, .g1, .period, 1, 0, 1⟩]⟩
/-- ISO_LIM (R252). -/
def ISO_LIM : Row := ⟨0x70004, 0x0, 1, 0x0, 1, true, false,
  [⟨31, 16, .rw, .g1, .period, 0x2AAB, 1820, 16384⟩,
   ⟨15, 0, .rw, .g1, .period, 0x4000, 1638, 24576⟩]⟩
/-- ISO_PRE (R252). -/
def ISO_PRE : Row := ⟨0x70008, 0x0, 1, 0x0, 1, true, false,
  [⟨31, 16, .rw, .g1, .period, 0x666, 164, 8192⟩,
   ⟨15, 0, .rw, .g1, .period, 0xCCD, 819, 8192⟩]⟩
/-- ISO_THM (R252). -/
def ISO_THM : Row := ⟨0x7000C, 0x0, 1, 0x0, 1, true, false,
  [⟨15, 0, .rw, .g1, .period, 0xCCD, 0, 8192⟩]⟩
/-- ISO_MON (R252). -/
def ISO_MON : Row := ⟨0x70010, 0x0, 1, 0x0, 1, true, false,
  [⟨31, 16, .rw, .g1, .period, 0x666, 0, 65535⟩,
   ⟨15, 8, .rw, .g1, .period, 0x10, 1, 255⟩,
   ⟨7, 0, .rw, .g1, .period, 0x14, 0, 255⟩]⟩
/-- ISO_STAT (R252). -/
def ISO_STAT : Row := ⟨0x70020, 0x0, 1, 0x0, 1, false, false,
  [⟨31, 16, .ro, .open_, .immediate, 0, 0, 65535⟩,
   ⟨2, 2, .ro, .open_, .immediate, 0, 0, 1⟩,
   ⟨1, 1, .ro, .open_, .immediate, 0, 0, 1⟩,
   ⟨0, 0, .ro, .open_, .immediate, 0, 0, 1⟩]⟩
/-- ISO_REVCNT (R252). -/
def ISO_REVCNT : Row := ⟨0x70024, 0x0, 1, 0x0, 1, false, false,
  [⟨31, 0, .ro, .open_, .immediate, 0, 0, 4294967295⟩]⟩
/-- ISO_GSTAT (R252). -/
def ISO_GSTAT : Row := ⟨0x70040, 0x4, 6, 0x0, 1, false, false,
  [⟨31, 24, .ro, .open_, .immediate, 0, 0, 255⟩,
   ⟨23, 16, .ro, .open_, .immediate, 0, 0, 255⟩,
   ⟨15, 0, .ro, .open_, .immediate, 0, 0, 65535⟩]⟩
/-- ISO_CELL0 (R252). -/
def ISO_CELL0 : Row := ⟨0x71000, 0x8, 288, 0x0, 1, false, false,
  [⟨31, 16, .ro, .open_, .immediate, 0, 0, 65535⟩,
   ⟨15, 0, .ro, .open_, .immediate, 0, 0, 65535⟩]⟩
/-- ISO_CELL1 (R252). -/
def ISO_CELL1 : Row := ⟨0x71004, 0x8, 288, 0x0, 1, false, false,
  [⟨31, 16, .ro, .open_, .immediate, 0, 0, 65535⟩,
   ⟨10, 10, .ro, .open_, .immediate, 0, 0, 1⟩,
   ⟨9, 9, .ro, .open_, .immediate, 0, 0, 1⟩,
   ⟨8, 8, .ro, .open_, .immediate, 0, 0, 1⟩,
   ⟨7, 7, .ro, .open_, .immediate, 0, 0, 1⟩,
   ⟨6, 6, .ro, .open_, .immediate, 0, 0, 1⟩]⟩
/-- LVS_GCFG (R270). -/
def LVS_GCFG : Row := ⟨0x80000, 0x0, 1, 0x0, 1, true, false,
  [⟨31, 28, .rw, .g1, .period, 3, 1, 15⟩,
   ⟨23, 12, .rw, .g1, .period, 0, 2048, 2071⟩,
   ⟨11, 0, .rw, .g1, .period, 0x3C, 0, 4095⟩]⟩
/-- LVS_STAT (R270). -/
def LVS_STAT : Row := ⟨0x80004, 0x0, 1, 0x0, 1, false, false,
  [⟨31, 30, .ro, .open_, .immediate, 0, 0, 3⟩,
   ⟨29, 29, .ro, .open_, .immediate, 0, 0, 1⟩,
   ⟨28, 28, .ro, .open_, .immediate, 0, 0, 1⟩,
   ⟨17, 0, .ro, .open_, .immediate, 0, 0, 262143⟩]⟩
/-- LVS_FORCE0 (R270). -/
def LVS_FORCE0 : Row := ⟨0x80010, 0x0, 1, 0x0, 1, false, false,
  [⟨31, 30, .rw, .g1, .immediate, 0, 0, 2⟩,
   ⟨29, 28, .rw, .g1, .immediate, 0, 0, 2⟩,
   ⟨27, 26, .rw, .g1, .immediate, 0, 0, 2⟩,
   ⟨25, 24, .rw, .g1, .immediate, 0, 0, 2⟩,
   ⟨23, 22, .rw, .g1, .immediate, 0, 0, 2⟩,
   ⟨21, 20, .rw, .g1, .immediate, 0, 0, 2⟩,
   ⟨19, 18, .rw, .g1, .immediate, 0, 0, 2⟩,
   ⟨17, 16, .rw, .g1, .immediate, 0, 0, 2⟩,
   ⟨15, 14, .rw, .g1, .immediate, 0, 0, 2⟩,
   ⟨13, 12, .rw, .g1, .immediate, 0, 0, 2⟩,
   ⟨11, 10, .rw, .g1, .immediate, 0, 0, 2⟩,
   ⟨9, 8, .rw, .g1, .immediate, 0, 0, 2⟩,
   ⟨7, 6, .rw, .g1, .immediate, 0, 0, 2⟩,
   ⟨5, 4, .rw, .g1, .immediate, 0, 0, 2⟩,
   ⟨3, 2, .rw, .g1, .immediate, 0, 0, 2⟩,
   ⟨1, 0, .rw, .g1, .immediate, 0, 0, 2⟩]⟩
/-- LVS_FORCE1 (R270). -/
def LVS_FORCE1 : Row := ⟨0x80014, 0x0, 1, 0x0, 1, false, false,
  [⟨31, 30, .rw, .g1, .immediate, 0, 0, 2⟩,
   ⟨29, 28, .rw, .g1, .immediate, 0, 0, 2⟩,
   ⟨27, 26, .rw, .g1, .immediate, 0, 0, 2⟩,
   ⟨25, 24, .rw, .g1, .immediate, 0, 0, 2⟩,
   ⟨23, 22, .rw, .g1, .immediate, 0, 0, 2⟩,
   ⟨21, 20, .rw, .g1, .immediate, 0, 0, 2⟩,
   ⟨19, 18, .rw, .g1, .immediate, 0, 0, 2⟩,
   ⟨17, 16, .rw, .g1, .immediate, 0, 0, 2⟩,
   ⟨15, 14, .rw, .g1, .immediate, 0, 0, 2⟩,
   ⟨13, 12, .rw, .g1, .immediate, 0, 0, 2⟩,
   ⟨11, 10, .rw, .g1, .immediate, 0, 0, 2⟩,
   ⟨9, 8, .rw, .g1, .immediate, 0, 0, 2⟩,
   ⟨7, 6, .rw, .g1, .immediate, 0, 0, 2⟩,
   ⟨5, 4, .rw, .g1, .immediate, 0, 0, 2⟩,
   ⟨3, 2, .rw, .g1, .immediate, 0, 0, 2⟩,
   ⟨1, 0, .rw, .g1, .immediate, 0, 0, 2⟩]⟩
/-- LVS_FORCE2 (R270). -/
def LVS_FORCE2 : Row := ⟨0x80018, 0x0, 1, 0x0, 1, false, false,
  [⟨3, 2, .rw, .g1, .immediate, 0, 0, 2⟩,
   ⟨1, 0, .rw, .g1, .immediate, 0, 0, 2⟩]⟩
/-- LVS_FORCEGO (R270). -/
def LVS_FORCEGO : Row := ⟨0x8001C, 0x0, 1, 0x0, 1, false, false,
  [⟨1, 1, .wo, .g1, .immediate, 0, 0, 1⟩,
   ⟨0, 0, .wo, .g1, .immediate, 0, 0, 1⟩]⟩
/-- LVS_TRIPCFG (R270). -/
def LVS_TRIPCFG : Row := ⟨0x80040, 0x4, 8, 0x0, 1, true, false,
  [⟨31, 31, .rw, .g1, .period, 0, 0, 1⟩,
   ⟨19, 8, .rw, .g1, .period, 0, 0, 4095⟩,
   ⟨7, 0, .rw, .g1, .period, 0, 0, 255⟩]⟩
/-- LVS_TRIPSCOPE (R270). -/
def LVS_TRIPSCOPE : Row := ⟨0x80060, 0x4, 8, 0x0, 1, true, false,
  [⟨17, 0, .rw, .g1, .period, 0, 0, 262143⟩]⟩
/-- LVS_TRIPSTAT (R270). -/
def LVS_TRIPSTAT : Row := ⟨0x80080, 0x0, 1, 0x0, 1, false, false,
  [⟨23, 16, .w1c, .open_, .immediate, 0, 0, 255⟩,
   ⟨15, 8, .w1c, .open_, .immediate, 0, 0, 255⟩,
   ⟨7, 0, .ro, .open_, .immediate, 0, 0, 255⟩]⟩
/-- LVS_TRIPSW (R270). -/
def LVS_TRIPSW : Row := ⟨0x80084, 0x0, 1, 0x0, 1, false, false,
  [⟨7, 0, .rw, .g1, .immediate, 0, 0, 255⟩]⟩
/-- LVS_USE (R270). -/
def LVS_USE : Row := ⟨0x800A0, 0x4, 5, 0x0, 1, true, false,
  [⟨21, 17, .rw, .g1, .period, 0, 0, 31⟩,
   ⟨12, 12, .rw, .g1, .period, 0, 0, 1⟩,
   ⟨11, 0, .rw, .g1, .period, 0, 0, 4095⟩]⟩
/-- LVS_CHOPCFG (R270). -/
def LVS_CHOPCFG : Row := ⟨0x800C0, 0x4, 2, 0x0, 1, true, false,
  [⟨31, 30, .rw, .g1, .period, 0, 0, 3⟩,
   ⟨27, 24, .rw, .g1, .period, 0, 0, 15⟩,
   ⟨23, 12, .rw, .g1, .period, 0x3C, 0, 4095⟩,
   ⟨11, 0, .rw, .g1, .period, 0, 0, 4095⟩]⟩
/-- LVS_CHOPTAU (R270). -/
def LVS_CHOPTAU : Row := ⟨0x800C8, 0x0, 1, 0x0, 1, true, false,
  [⟨15, 0, .rw, .g1, .period, 0x3C, 1, 65535⟩]⟩
/-- LVS_CHOPE (R270). -/
def LVS_CHOPE : Row := ⟨0x800D0, 0x4, 2, 0x0, 1, false, false,
  [⟨31, 0, .ro, .open_, .immediate, 0, 0, 4294967295⟩]⟩
/-- LVS_CFG (R270). -/
def LVS_CFG : Row := ⟨0x80100, 0x20, 18, 0x0, 1, true, false,
  [⟨31, 31, .rw, .g1, .pwm, 0, 0, 1⟩,
   ⟨11, 0, .rw, .g1, .period, 0xFFF, 0, 4095⟩]⟩
/-- LVS_PER (R270). -/
def LVS_PER : Row := ⟨0x80104, 0x20, 18, 0x0, 1, true, false,
  [⟨19, 0, .rw, .g1, .pwm, 0, 120, 1048575⟩]⟩
/-- LVS_CMP (R270). -/
def LVS_CMP : Row := ⟨0x80108, 0x20, 18, 0x0, 1, false, false,
  [⟨19, 0, .rw, .open_, .pwm, 0, 0, 1048575⟩]⟩
/-- LVS_OFS (R270). -/
def LVS_OFS : Row := ⟨0x8010C, 0x20, 18, 0x0, 1, false, false,
  [⟨19, 0, .ro, .open_, .immediate, 0, 0, 1048575⟩]⟩
/-- LVS_DT (R270). -/
def LVS_DT : Row := ⟨0x80110, 0x20, 18, 0x0, 1, false, false,
  [⟨27, 16, .ro, .open_, .immediate, 0, 0, 4095⟩,
   ⟨11, 0, .ro, .open_, .immediate, 0, 0, 4095⟩]⟩
/-- LVS_PWM_STAT (R270). -/
def LVS_PWM_STAT : Row := ⟨0x80114, 0x20, 18, 0x0, 1, false, false,
  [⟨11, 8, .ro, .open_, .immediate, 0, 0, 15⟩,
   ⟨7, 4, .ro, .open_, .immediate, 0, 0, 15⟩,
   ⟨3, 3, .ro, .open_, .immediate, 0, 0, 1⟩,
   ⟨2, 2, .ro, .open_, .immediate, 0, 0, 1⟩,
   ⟨1, 1, .w1c, .open_, .immediate, 0, 0, 1⟩,
   ⟨0, 0, .w1c, .open_, .immediate, 0, 0, 1⟩]⟩
/-- LVS_REJCNT (R270). -/
def LVS_REJCNT : Row := ⟨0x80118, 0x20, 18, 0x0, 1, false, false,
  [⟨31, 0, .ro, .open_, .immediate, 0, 0, 4294967295⟩]⟩
/-- LVS_DTB (R270). -/
def LVS_DTB : Row := ⟨0x80400, 0x40, 3, 0x4, 16, true, false,
  [⟨27, 16, .rw, .g1, .pwm, 0, 0, 4095⟩,
   ⟨11, 0, .rw, .g1, .pwm, 0, 0, 4095⟩]⟩
/-- GDI_CFG (R294). -/
def GDI_CFG : Row := ⟨0x88000, 0x0, 1, 0x0, 1, true, false,
  [⟨28, 24, .rw, .g1, .period, 0, 0, 23⟩,
   ⟨22, 20, .rw, .g1, .period, 0, 0, 7⟩,
   ⟨19, 16, .rw, .g1, .period, 0, 0, 15⟩,
   ⟨11, 0, .rw, .g1, .period, 0x960, 0, 4095⟩]⟩
/-- GDI_FLT (R294). -/
def GDI_FLT : Row := ⟨0x88010, 0x0, 1, 0x0, 1, false, false,
  [⟨31, 16, .ro, .open_, .immediate, 0xFFFF, 0, 65535⟩,
   ⟨15, 0, .w1c, .g1, .immediate, 0, 0, 65535⟩]⟩
/-- GDI_CLRSTAT (R294). -/
def GDI_CLRSTAT : Row := ⟨0x88014, 0x0, 1, 0x0, 1, false, false,
  [⟨31, 16, .w1c, .open_, .immediate, 0, 0, 65535⟩,
   ⟨15, 0, .w1c, .open_, .immediate, 0, 0, 65535⟩]⟩
/-- GDI_HOLD (R294). -/
def GDI_HOLD : Row := ⟨0x88018, 0x0, 1, 0x0, 1, false, false,
  [⟨31, 31, .ro, .open_, .immediate, 0, 0, 1⟩,
   ⟨15, 0, .ro, .open_, .immediate, 0, 0, 65535⟩]⟩
/-- GDI_HOLDREL (R294). -/
def GDI_HOLDREL : Row := ⟨0x8801C, 0x0, 1, 0x0, 1, false, false,
  [⟨31, 0, .ro, .open_, .immediate, 0, 0, 4294967295⟩]⟩
/-- GDI_FIRST (R294). -/
def GDI_FIRST : Row := ⟨0x88020, 0x0, 1, 0x0, 1, false, false,
  [⟨31, 31, .w1c, .open_, .immediate, 0, 0, 1⟩,
   ⟨11, 8, .ro, .open_, .immediate, 0, 0, 15⟩,
   ⟨7, 0, .ro, .open_, .immediate, 0, 0, 255⟩]⟩
/-- GDI_CTCNT (R294). -/
def GDI_CTCNT : Row := ⟨0x88024, 0x0, 1, 0x0, 1, false, false,
  [⟨31, 0, .ro, .open_, .immediate, 0, 0, 4294967295⟩]⟩
/-- GDI_PUCFG (R294). -/
def GDI_PUCFG : Row := ⟨0x88040, 0x0, 1, 0x0, 1, true, false,
  [⟨31, 28, .rw, .g1, .period, 0, 0, 15⟩,
   ⟨27, 27, .rw, .g1, .period, 0, 0, 1⟩,
   ⟨26, 24, .rw, .g1, .period, 0, 0, 5⟩,
   ⟨23, 12, .rw, .g1, .period, 0x12C, 60, 1920⟩,
   ⟨11, 0, .rw, .g1, .period, 0x258, 0, 4095⟩]⟩
/-- GDI_PUPWM (R294). -/
def GDI_PUPWM : Row := ⟨0x88044, 0x0, 1, 0x0, 1, true, false,
  [⟨31, 16, .rw, .g1, .period, 0x3E14, 8192, 16056⟩,
   ⟨15, 0, .rw, .g1, .period, 0x7530, 6000, 60000⟩]⟩
/-- GDI_PUSRC (R294). -/
def GDI_PUSRC : Row := ⟨0x88048, 0x0, 1, 0x0, 1, true, false,
  [⟨11, 0, .rw, .g1, .period, 0, 0, 4095⟩]⟩
/-- GDI_PUSTART (R294). -/
def GDI_PUSTART : Row := ⟨0x8804C, 0x0, 1, 0x0, 1, true, false,
  [⟨31, 16, .rw, .g1, .period, 0, 0, 65535⟩,
   ⟨15, 8, .rw, .g1, .period, 0xA, 1, 255⟩,
   ⟨7, 0, .rw, .g1, .period, 0x64, 1, 255⟩]⟩
/-- GDI_PUTIM (R294). -/
def GDI_PUTIM : Row := ⟨0x88050, 0x0, 1, 0x0, 1, true, false,
  [⟨31, 24, .rw, .g1, .period, 0xA, 1, 255⟩,
   ⟨23, 16, .rw, .g1, .period, 5, 1, 255⟩,
   ⟨15, 8, .rw, .g1, .period, 0x64, 1, 255⟩,
   ⟨7, 0, .rw, .g1, .period, 0x14, 1, 255⟩]⟩
/-- GDI_PUVLIM0 (R294). -/
def GDI_PUVLIM0 : Row := ⟨0x88054, 0x0, 1, 0x0, 1, true, false,
  [⟨25, 16, .rw, .g1, .period, 0, 0, 600⟩,
   ⟨9, 0, .rw, .g1, .period, 0x168, 0, 1023⟩]⟩
/-- GDI_PUVLIM1 (R294). -/
def GDI_PUVLIM1 : Row := ⟨0x88058, 0x0, 1, 0x0, 1, true, false,
  [⟨25, 16, .rw, .g1, .period, 0, 0, 600⟩,
   ⟨9, 0, .rw, .g1, .period, 0, 0, 1023⟩]⟩
/-- GDI_PUOC (R294). -/
def GDI_PUOC : Row := ⟨0x8805C, 0x0, 1, 0x0, 1, true, false,
  [⟨31, 24, .rw, .g1, .period, 8, 1, 255⟩,
   ⟨23, 16, .rw, .g1, .period, 0x32, 1, 255⟩,
   ⟨7, 0, .rw, .g1, .period, 0, 10, 250⟩]⟩
/-- GDI_PUCTRL (R294). -/
def GDI_PUCTRL : Row := ⟨0x88060, 0x0, 1, 0x0, 1, false, false,
  [⟨1, 0, .wo, .g1, .period, 0, 0, 3⟩]⟩
/-- GDI_PUSTAT (R294). -/
def GDI_PUSTAT : Row := ⟨0x88064, 0x0, 1, 0x0, 1, false, false,
  [⟨31, 28, .ro, .open_, .immediate, 0, 0, 15⟩,
   ⟨27, 24, .ro, .open_, .immediate, 0, 0, 15⟩,
   ⟨23, 21, .ro, .open_, .immediate, 0, 0, 7⟩,
   ⟨20, 20, .ro, .open_, .immediate, 0, 0, 1⟩,
   ⟨19, 16, .ro, .open_, .immediate, 0, 0, 15⟩,
   ⟨15, 0, .ro, .open_, .immediate, 0, 0, 65535⟩]⟩
/-- GDI_PUVM (R294). -/
def GDI_PUVM : Row := ⟨0x88068, 0x0, 1, 0x0, 1, false, false,
  [⟨9, 0, .ro, .open_, .immediate, 0, 0, 1023⟩]⟩
/-- GDI_PUDIAG (R294). -/
def GDI_PUDIAG : Row := ⟨0x8806C, 0x0, 1, 0x0, 1, false, false,
  [⟨13, 11, .ro, .open_, .immediate, 0, 0, 7⟩,
   ⟨10, 8, .ro, .open_, .immediate, 0, 0, 7⟩,
   ⟨7, 5, .ro, .open_, .immediate, 0, 0, 7⟩,
   ⟨4, 0, .ro, .open_, .immediate, 0, 0, 31⟩]⟩
/-- GDI_RETRYCFG (R294). -/
def GDI_RETRYCFG : Row := ⟨0x88080, 0x4, 3, 0x0, 1, true, false,
  [⟨23, 16, .rw, .g1, .period, 0x3C, 1, 255⟩,
   ⟨15, 8, .rw, .g1, .period, 0x64, 1, 255⟩,
   ⟨3, 0, .rw, .g1, .period, 3, 1, 15⟩]⟩
/-- GDI_RETRYSTAT (R294). -/
def GDI_RETRYSTAT : Row := ⟨0x88090, 0x4, 3, 0x0, 1, false, false,
  [⟨31, 31, .ro, .open_, .immediate, 0, 0, 1⟩,
   ⟨30, 30, .w1c, .open_, .immediate, 0, 0, 1⟩,
   ⟨29, 29, .ro, .open_, .immediate, 0, 0, 1⟩,
   ⟨3, 0, .ro, .open_, .immediate, 0, 0, 15⟩]⟩
/-- GDI_RETRYCLR (R294). -/
def GDI_RETRYCLR : Row := ⟨0x880A0, 0x0, 1, 0x0, 1, false, false,
  [⟨2, 0, .wo, .g1, .immediate, 0, 0, 7⟩]⟩
/-- GDI_PCFG (R294). -/
def GDI_PCFG : Row := ⟨0x88100, 0x10, 16, 0x0, 1, true, false,
  [⟨27, 16, .rw, .g1, .period, 0x258, 0, 4095⟩,
   ⟨11, 0, .rw, .g1, .period, 0x3C, 0, 4095⟩]⟩
/-- GDI_RCFG (R294). -/
def GDI_RCFG : Row := ⟨0x88104, 0x10, 16, 0x0, 1, true, false,
  [⟨12, 12, .rw, .g1, .period, 1, 0, 1⟩,
   ⟨11, 0, .rw, .g1, .period, 0x258, 0, 4095⟩]⟩
/-- GDI_FSCOPE (R294). -/
def GDI_FSCOPE : Row := ⟨0x88108, 0x10, 16, 0x0, 1, true, false,
  [⟨17, 0, .rw, .g1, .period, 0xFFFF, 0, 262143⟩]⟩
/-- GDI_TS (R294). -/
def GDI_TS : Row := ⟨0x8810C, 0x10, 16, 0x0, 1, false, false,
  [⟨31, 0, .ro, .open_, .immediate, 0, 0, 4294967295⟩]⟩
/-- DML_CTRL (R164). -/
def DML_CTRL : Row := ⟨0x90000, 0x1000, 26, 0x0, 1, false, false,
  [⟨1, 1, .wo, .g1, .immediate, 0, 0, 1⟩,
   ⟨0, 0, .rw, .g1, .immediate, 0, 0, 1⟩]⟩
/-- DML_STAT (R164). -/
def DML_STAT : Row := ⟨0x90004, 0x1000, 26, 0x0, 1, false, false,
  [⟨31, 28, .ro, .open_, .immediate, 0, 0, 15⟩,
   ⟨27, 27, .ro, .open_, .immediate, 0, 0, 1⟩,
   ⟨26, 26, .ro, .open_, .immediate, 0, 0, 1⟩,
   ⟨25, 25, .ro, .open_, .immediate, 0, 0, 1⟩,
   ⟨24, 20, .ro, .open_, .immediate, 0, 0, 31⟩,
   ⟨19, 16, .ro, .open_, .immediate, 0, 0, 15⟩,
   ⟨7, 0, .ro, .open_, .immediate, 0, 0, 255⟩]⟩
/-- DML_CFG (R164). -/
def DML_CFG : Row := ⟨0x90008, 0x1000, 26, 0x0, 1, true, false,
  [⟨31, 24, .rw, .g1, .period, 0x32, 1, 255⟩,
   ⟨23, 20, .rw, .g1, .period, 3, 0, 15⟩,
   ⟨19, 16, .rw, .g1, .period, 2, 1, 8⟩,
   ⟨15, 8, .rw, .g1, .period, 0xA, 1, 255⟩,
   ⟨7, 0, .rw, .g1, .period, 0x10, 1, 255⟩]⟩
/-- DML_RTT (R164). -/
def DML_RTT : Row := ⟨0x9000C, 0x1000, 26, 0x0, 1, false, false,
  [⟨31, 16, .ro, .open_, .immediate, 0, 0, 65535⟩,
   ⟨15, 0, .ro, .open_, .immediate, 0, 0, 65535⟩]⟩
/-- DML_CODEERR (R164). -/
def DML_CODEERR : Row := ⟨0x90010, 0x1000, 26, 0x0, 1, false, false,
  [⟨31, 0, .ro, .open_, .immediate, 0, 0, 4294967295⟩]⟩
/-- DML_FLAKES (R164). -/
def DML_FLAKES : Row := ⟨0x90014, 0x1000, 26, 0x0, 1, false, false,
  [⟨31, 0, .ro, .open_, .immediate, 0, 0, 4294967295⟩]⟩
/-- DML_GLATE (R164). -/
def DML_GLATE : Row := ⟨0x90018, 0x1000, 26, 0x0, 1, false, false,
  [⟨31, 0, .ro, .open_, .immediate, 0, 0, 4294967295⟩]⟩
/-- DML_EQ (R164). -/
def DML_EQ : Row := ⟨0x90020, 0x1000, 26, 0x0, 1, false, false,
  [⟨31, 30, .ro, .open_, .immediate, 0, 0, 3⟩,
   ⟨20, 0, .ro, .open_, .immediate, 0, 0, 2097151⟩]⟩
/-- DML_EQTB (R164). -/
def DML_EQTB : Row := ⟨0x90024, 0x1000, 26, 0x4, 3, true, false,
  [⟨20, 16, .rw, .g1, .frame, 0, 0, 31⟩,
   ⟨15, 12, .rw, .g1, .frame, 0, 0, 15⟩,
   ⟨11, 7, .rw, .g1, .frame, 0, 0, 31⟩,
   ⟨6, 3, .rw, .g1, .frame, 0, 0, 15⟩]⟩
/-- DML_HALOCTRL (R164). -/
def DML_HALOCTRL : Row := ⟨0x90040, 0x1000, 26, 0x0, 1, false, false,
  [⟨31, 31, .wo, .open_, .immediate, 0, 0, 1⟩,
   ⟨30, 30, .wo, .open_, .immediate, 0, 0, 1⟩,
   ⟨5, 0, .rw, .open_, .immediate, 0x18, 20, 32⟩]⟩
/-- DML_HALOSTAT (R164). -/
def DML_HALOSTAT : Row := ⟨0x90044, 0x1000, 26, 0x0, 1, false, false,
  [⟨31, 31, .ro, .open_, .immediate, 0, 0, 1⟩,
   ⟨30, 30, .ro, .open_, .immediate, 0, 0, 1⟩,
   ⟨29, 29, .ro, .open_, .immediate, 0, 0, 1⟩,
   ⟨28, 26, .ro, .open_, .immediate, 0, 0, 7⟩,
   ⟨25, 19, .ro, .open_, .immediate, 0, 0, 127⟩,
   ⟨18, 13, .ro, .open_, .immediate, 0, 0, 63⟩,
   ⟨11, 0, .ro, .open_, .immediate, 0, 0, 4095⟩]⟩
/-- DML_HALOMASK (R164). -/
def DML_HALOMASK : Row := ⟨0x90048, 0x1000, 26, 0x0, 1, true, false,
  [⟨14, 8, .rw, .g1, .period, 0x18, 0, 127⟩,
   ⟨5, 0, .rw, .g1, .period, 0xA, 0, 63⟩]⟩
/-- DML_HALOTIME (R164). -/
def DML_HALOTIME : Row := ⟨0x9004C, 0x1000, 26, 0x0, 1, false, false,
  [⟨31, 0, .ro, .open_, .immediate, 0, 0, 4294967295⟩]⟩
/-- DML_OFFSA (R164). -/
def DML_OFFSA : Row := ⟨0x90100, 0x1000, 26, 0x4, 16, false, false,
  [⟨31, 31, .ro, .open_, .immediate, 0, 0, 1⟩,
   ⟨19, 0, .ro, .open_, .immediate, 0, 0, 1048575⟩]⟩
/-- DML_OFFSB (R164). -/
def DML_OFFSB : Row := ⟨0x90140, 0x1000, 26, 0x4, 16, false, false,
  [⟨31, 31, .ro, .open_, .immediate, 0, 0, 1⟩,
   ⟨19, 0, .ro, .open_, .immediate, 0, 0, 1048575⟩]⟩
/-- DML_HALO (R164). -/
def DML_HALO : Row := ⟨0x90800, 0x1000, 26, 0x4, 512, false, false,
  [⟨31, 0, .ro, .open_, .immediate, 0, 0, 4294967295⟩]⟩
/-- DML_QSTAT (R164). -/
def DML_QSTAT : Row := ⟨0xAF000, 0x4, 7, 0x0, 1, false, false,
  [⟨2, 2, .w1c, .open_, .immediate, 0, 0, 1⟩,
   ⟨1, 1, .ro, .open_, .immediate, 0, 0, 1⟩,
   ⟨0, 0, .ro, .open_, .immediate, 0, 0, 1⟩]⟩
/-- CELL_ENTRY0 (R189). -/
def CELL_ENTRY0 : Row := ⟨0xB0000, 0x100, 288, 0x4, 1, false, false,
  [⟨31, 0, .ro, .open_, .period, 0, 0, 4294967295⟩]⟩
/-- CELL_ENTRYW (R189). -/
def CELL_ENTRYW : Row := ⟨0xB0004, 0x100, 288, 0x4, 2, true, false,
  [⟨31, 0, .rw, .open_, .period, 0, 0, 4294967295⟩]⟩
/-- CELL_ENTRYH (R189). -/
def CELL_ENTRYH : Row := ⟨0xB000C, 0x100, 288, 0x4, 5, false, false,
  [⟨31, 0, .ro, .open_, .period, 0, 0, 4294967295⟩]⟩
/-- CELL_CTRL (R189). -/
def CELL_CTRL : Row := ⟨0xB0020, 0x100, 288, 0x0, 1, false, false,
  [⟨2, 0, .wo, .g1, .period, 0, 1, 4⟩]⟩
/-- CELL_STAT (R189). -/
def CELL_STAT : Row := ⟨0xB0024, 0x100, 288, 0x0, 1, false, false,
  [⟨31, 28, .ro, .open_, .immediate, 0, 0, 15⟩,
   ⟨27, 27, .ro, .open_, .immediate, 0, 0, 1⟩,
   ⟨26, 26, .ro, .open_, .immediate, 0, 0, 1⟩,
   ⟨19, 16, .ro, .open_, .immediate, 0, 0, 15⟩,
   ⟨9, 0, .ro, .open_, .immediate, 0, 0, 1023⟩]⟩
/-- CELL_ERR (R189). -/
def CELL_ERR : Row := ⟨0xB0028, 0x100, 288, 0x0, 1, false, false,
  [⟨31, 8, .ro, .open_, .immediate, 0, 0, 16777215⟩,
   ⟨3, 0, .ro, .open_, .immediate, 0, 0, 15⟩]⟩
/-- CELL_IDLO (R189). -/
def CELL_IDLO : Row := ⟨0xB002C, 0x100, 288, 0x0, 1, false, false,
  [⟨31, 0, .ro, .open_, .immediate, 0, 0, 4294967295⟩]⟩
/-- CELL_IDHI (R189). -/
def CELL_IDHI : Row := ⟨0xB0030, 0x100, 288, 0x0, 1, false, false,
  [⟨31, 0, .ro, .open_, .immediate, 0, 0, 4294967295⟩]⟩
/-- CELL_PROF (R189). -/
def CELL_PROF : Row := ⟨0xB0034, 0x100, 288, 0x0, 1, false, false,
  [⟨31, 0, .ro, .open_, .immediate, 0, 0, 4294967295⟩]⟩
/-- CELL_MREC (R189). -/
def CELL_MREC : Row := ⟨0xB0040, 0x100, 288, 0x4, 8, false, false,
  [⟨31, 0, .ro, .open_, .immediate, 0, 0, 4294967295⟩]⟩
/-- CELL_CREC (R189). -/
def CELL_CREC : Row := ⟨0xB0060, 0x100, 288, 0x4, 8, false, false,
  [⟨31, 0, .ro, .open_, .immediate, 0, 0, 4294967295⟩]⟩
/-- CELL_PRM (R189). -/
def CELL_PRM : Row := ⟨0xB0080, 0x100, 288, 0x4, 10, true, true,
  [⟨31, 0, .rw, .open_, .period, 0, 0, 4294967295⟩]⟩
/-- CELL_GCTRL (R189). -/
def CELL_GCTRL : Row := ⟨0xCF000, 0x0, 1, 0x0, 1, false, false,
  [⟨1, 0, .wo, .g1, .period, 0, 0, 3⟩]⟩
/-- CELL_GCFG (R189). -/
def CELL_GCFG : Row := ⟨0xCF004, 0x0, 1, 0x0, 1, true, false,
  [⟨31, 16, .rw, .g1, .period, 0x399A, 8192, 16384⟩,
   ⟨15, 8, .rw, .g1, .period, 0x32, 1, 255⟩,
   ⟨7, 4, .rw, .g1, .period, 3, 1, 15⟩,
   ⟨3, 0, .rw, .g1, .period, 1, 1, 15⟩]⟩
/-- CELL_QSTAT (R189). -/
def CELL_QSTAT : Row := ⟨0xCF008, 0x0, 1, 0x0, 1, false, false,
  [⟨31, 23, .ro, .open_, .immediate, 0, 0, 511⟩,
   ⟨22, 14, .ro, .open_, .immediate, 0, 0, 511⟩,
   ⟨13, 13, .ro, .open_, .immediate, 0, 0, 1⟩,
   ⟨8, 0, .ro, .open_, .immediate, 0, 0, 511⟩]⟩
/-- CELL_GRP (R189). -/
def CELL_GRP : Row := ⟨0xCF010, 0x4, 6, 0x0, 1, false, false,
  [⟨22, 16, .ro, .open_, .immediate, 0, 0, 127⟩,
   ⟨6, 0, .ro, .open_, .immediate, 0, 0, 127⟩]⟩
/-- RED_MODE (R344). -/
def RED_MODE : Row := ⟨0xD0000, 0x0, 1, 0x0, 1, true, false,
  [⟨1, 0, .rw, .g2, .period, 0, 0, 3⟩]⟩
/-- RED_STAT (R344). -/
def RED_STAT : Row := ⟨0xD0008, 0x0, 1, 0x0, 1, false, false,
  [⟨31, 28, .ro, .open_, .immediate, 0, 0, 15⟩,
   ⟨27, 27, .ro, .open_, .immediate, 0, 0, 1⟩,
   ⟨26, 26, .ro, .open_, .immediate, 1, 0, 1⟩,
   ⟨25, 25, .ro, .open_, .immediate, 0, 0, 1⟩,
   ⟨24, 23, .ro, .open_, .immediate, 0, 0, 3⟩,
   ⟨6, 0, .ro, .open_, .immediate, 0, 0, 127⟩]⟩
/-- RED_CFG (R344). -/
def RED_CFG : Row := ⟨0xD000C, 0x0, 1, 0x0, 1, true, false,
  [⟨31, 24, .rw, .g1, .period, 0, 0, 255⟩,
   ⟨23, 16, .rw, .g1, .period, 0x32, 1, 255⟩,
   ⟨9, 0, .rw, .g1, .period, 0x77, 0, 1023⟩]⟩
/-- RED_CTRL (R344). -/
def RED_CTRL : Row := ⟨0xD0010, 0x0, 1, 0x0, 1, false, false,
  [⟨1, 1, .wo, .g1, .immediate, 0, 0, 1⟩,
   ⟨0, 0, .wo, .g1, .immediate, 0, 0, 1⟩]⟩
/-- RED_ALIGN (R344). -/
def RED_ALIGN : Row := ⟨0xD0014, 0x0, 1, 0x0, 1, false, false,
  [⟨31, 16, .ro, .open_, .immediate, 0, 0, 65535⟩,
   ⟨15, 0, .ro, .open_, .immediate, 0, 0, 65535⟩]⟩
/-- RED_XSCHED (R344). -/
def RED_XSCHED : Row := ⟨0xD0018, 0x0, 1, 0x0, 1, false, false,
  [⟨31, 16, .ro, .open_, .immediate, 0, 0, 65535⟩,
   ⟨15, 0, .ro, .open_, .immediate, 0, 0, 65535⟩]⟩
/-- RED_TOVER (R344). -/
def RED_TOVER : Row := ⟨0xD001C, 0x0, 1, 0x0, 1, false, false,
  [⟨31, 0, .ro, .open_, .immediate, 0, 0, 4294967295⟩]⟩
/-- RED_GAP (R344). -/
def RED_GAP : Row := ⟨0xD0020, 0x0, 1, 0x0, 1, false, false,
  [⟨31, 30, .ro, .open_, .immediate, 0, 0, 3⟩,
   ⟨16, 0, .ro, .open_, .immediate, 0, 0, 131071⟩]⟩
/-- RED_CNT (R344). -/
def RED_CNT : Row := ⟨0xD0024, 0x0, 1, 0x0, 1, false, false,
  [⟨31, 16, .ro, .open_, .immediate, 0, 0, 65535⟩,
   ⟨15, 0, .ro, .open_, .immediate, 0, 0, 65535⟩]⟩
/-- RED_DIVCNT (R344). -/
def RED_DIVCNT : Row := ⟨0xD0028, 0x0, 1, 0x0, 1, false, false,
  [⟨31, 0, .ro, .open_, .immediate, 0, 0, 4294967295⟩]⟩
/-- RED_XERR (R344). -/
def RED_XERR : Row := ⟨0xD002C, 0x0, 1, 0x0, 1, false, false,
  [⟨31, 0, .ro, .open_, .immediate, 0, 0, 4294967295⟩]⟩
/-- RED_TCFG (R344). -/
def RED_TCFG : Row := ⟨0xD0030, 0x0, 1, 0x0, 1, true, false,
  [⟨15, 8, .rw, .g1, .period, 0x3C, 1, 255⟩,
   ⟨3, 0, .rw, .g1, .period, 3, 1, 15⟩]⟩
/-- RED_SWAPAGE (R344). -/
def RED_SWAPAGE : Row := ⟨0xD0034, 0x0, 1, 0x0, 1, false, false,
  [⟨31, 0, .ro, .open_, .immediate, 0, 0, 4294967295⟩]⟩
/-- RED_SLSTAT (R344). -/
def RED_SLSTAT : Row := ⟨0xD0040, 0x4, 3, 0x0, 1, false, false,
  [⟨31, 30, .ro, .open_, .immediate, 0, 0, 3⟩,
   ⟨23, 16, .ro, .open_, .immediate, 0, 0, 255⟩,
   ⟨15, 0, .ro, .open_, .immediate, 0, 0, 65535⟩]⟩
/-- RED_VOTE (R344). -/
def RED_VOTE : Row := ⟨0xD0050, 0x0, 1, 0x0, 1, false, false,
  [⟨31, 0, .ro, .open_, .immediate, 0, 0, 4294967295⟩]⟩
/-- RED_VOTEITEM (R344). -/
def RED_VOTEITEM : Row := ⟨0xD0054, 0x0, 1, 0x0, 1, false, false,
  [⟨31, 30, .ro, .open_, .immediate, 0, 0, 3⟩,
   ⟨29, 28, .ro, .open_, .immediate, 0, 0, 3⟩,
   ⟨8, 0, .ro, .open_, .immediate, 0, 0, 511⟩]⟩
/-- SAF_CTRL (R365). -/
def SAF_CTRL : Row := ⟨0xD8000, 0x0, 1, 0x0, 1, false, false,
  [⟨1, 1, .wo, .g1, .immediate, 0, 0, 1⟩,
   ⟨0, 0, .wo, .g1, .immediate, 0, 0, 1⟩]⟩
/-- SAF_STAT (R365). -/
def SAF_STAT : Row := ⟨0xD8004, 0x0, 1, 0x0, 1, false, false,
  [⟨31, 31, .ro, .open_, .immediate, 0, 0, 1⟩,
   ⟨30, 30, .ro, .open_, .immediate, 1, 0, 1⟩,
   ⟨29, 29, .w1c, .open_, .immediate, 0, 0, 1⟩,
   ⟨26, 16, .ro, .open_, .immediate, 0, 0, 2047⟩]⟩
/-- SAF_WOCAUSE (R365). -/
def SAF_WOCAUSE : Row := ⟨0xD8008, 0x0, 1, 0x0, 1, false, false,
  [⟨31, 28, .ro, .open_, .immediate, 0, 0, 15⟩,
   ⟨9, 0, .ro, .open_, .immediate, 0, 0, 1023⟩]⟩
/-- SAF_WOTIME (R365). -/
def SAF_WOTIME : Row := ⟨0xD800C, 0x0, 1, 0x0, 1, false, false,
  [⟨31, 0, .ro, .open_, .immediate, 0, 0, 4294967295⟩]⟩
/-- SAF_TPCFG (R365). -/
def SAF_TPCFG : Row := ⟨0xD8010, 0x0, 1, 0x0, 1, true, false,
  [⟨31, 25, .rw, .g2, .period, 0xA, 1, 100⟩,
   ⟨24, 18, .rw, .g2, .period, 0x14, 10, 100⟩,
   ⟨17, 12, .rw, .g2, .period, 0xA, 0, 50⟩,
   ⟨11, 10, .rw, .g2, .period, 1, 0, 3⟩,
   ⟨7, 0, .rw, .g2, .period, 0x64, 0, 150⟩]⟩
/-- SAF_TGGLOB (R365). -/
def SAF_TGGLOB : Row := ⟨0xD8018, 0x0, 1, 0x0, 1, true, false,
  [⟨28, 28, .rw, .g2, .packet, 0, 0, 1⟩,
   ⟨27, 16, .rw, .g2, .packet, 0, 0, 4095⟩,
   ⟨15, 0, .rw, .g2, .packet, 0, 0, 65535⟩]⟩
/-- SAF_INSTAT (R365). -/
def SAF_INSTAT : Row := ⟨0xD8020, 0x0, 1, 0x0, 1, false, false,
  [⟨31, 24, .ro, .open_, .immediate, 0, 0, 255⟩,
   ⟨23, 16, .ro, .open_, .immediate, 0, 0, 255⟩,
   ⟨15, 8, .ro, .open_, .immediate, 0, 0, 255⟩,
   ⟨7, 0, .ro, .open_, .immediate, 0, 0, 255⟩]⟩
/-- SAF_CHAN (R365). -/
def SAF_CHAN : Row := ⟨0xD8024, 0x0, 1, 0x0, 1, false, false,
  [⟨15, 8, .ro, .open_, .immediate, 0, 0, 255⟩,
   ⟨7, 0, .ro, .open_, .immediate, 0, 0, 255⟩]⟩
/-- SAF_INCFG (R365). -/
def SAF_INCFG : Row := ⟨0xD8040, 0x8, 8, 0x0, 1, true, false,
  [⟨31, 30, .rw, .g2, .period, 0, 0, 3⟩,
   ⟨29, 28, .rw, .g2, .period, 0, 0, 3⟩,
   ⟨27, 26, .rw, .g2, .period, 0, 0, 3⟩,
   ⟨25, 25, .rw, .g2, .period, 1, 0, 1⟩,
   ⟨24, 16, .rw, .g2, .period, 0x64, 1, 500⟩,
   ⟨11, 0, .rw, .g2, .period, 0x258, 0, 4095⟩]⟩
/-- SAF_TGCFG (R365). -/
def SAF_TGCFG : Row := ⟨0xD8100, 0x20, 4, 0x0, 1, true, false,
  [⟨31, 31, .rw, .g2, .period, 0, 0, 1⟩,
   ⟨30, 30, .rw, .g2, .period, 0, 0, 1⟩,
   ⟨29, 23, .rw, .g2, .period, 0, 4, 100⟩,
   ⟨22, 16, .rw, .g2, .period, 0x19, 5, 100⟩,
   ⟨15, 0, .rw, .g2, .period, 0, 0, 65535⟩]⟩
/-- SAF_TGSTAT (R365). -/
def SAF_TGSTAT : Row := ⟨0xD8108, 0x20, 4, 0x0, 1, false, false,
  [⟨31, 30, .ro, .open_, .immediate, 0, 0, 3⟩,
   ⟨29, 29, .ro, .open_, .immediate, 0, 0, 1⟩,
   ⟨28, 28, .ro, .open_, .immediate, 0, 0, 1⟩,
   ⟨27, 27, .ro, .open_, .immediate, 0, 0, 1⟩,
   ⟨15, 0, .ro, .open_, .immediate, 0xFFFF, 0, 65535⟩]⟩
/-- SAF_TGSEQ (R365). -/
def SAF_TGSEQ : Row := ⟨0xD810C, 0x20, 4, 0x0, 1, false, false,
  [⟨31, 0, .ro, .open_, .immediate, 0, 0, 4294967295⟩]⟩
/-- SAF_TGCNT (R365). -/
def SAF_TGCNT : Row := ⟨0xD8110, 0x20, 4, 0x0, 1, false, false,
  [⟨31, 20, .ro, .open_, .immediate, 0, 0, 4095⟩,
   ⟨19, 8, .ro, .open_, .immediate, 0, 0, 4095⟩,
   ⟨7, 0, .ro, .open_, .immediate, 0, 0, 255⟩]⟩
/-- NET_CTRL (R391). -/
def NET_CTRL : Row := ⟨0xE0000, 0x0, 1, 0x0, 1, true, false,
  [⟨2, 0, .rw, .g1, .packet, 0, 0, 7⟩]⟩
/-- NET_STAT (R391). -/
def NET_STAT : Row := ⟨0xE0004, 0x0, 1, 0x0, 1, false, false,
  [⟨2, 0, .ro, .open_, .immediate, 0, 0, 7⟩]⟩
/-- NET_TIMELO (R391). -/
def NET_TIMELO : Row := ⟨0xE0008, 0x0, 1, 0x0, 1, false, false,
  [⟨31, 0, .ro, .open_, .immediate, 0, 0, 4294967295⟩]⟩
/-- NET_TIMEHI (R391). -/
def NET_TIMEHI : Row := ⟨0xE000C, 0x0, 1, 0x0, 1, false, false,
  [⟨31, 0, .ro, .open_, .immediate, 0, 0, 4294967295⟩]⟩
/-- NET_UTCOFS (R391). -/
def NET_UTCOFS : Row := ⟨0xE0010, 0x0, 1, 0x0, 1, false, false,
  [⟨31, 31, .ro, .open_, .immediate, 0, 0, 1⟩,
   ⟨15, 0, .ro, .open_, .immediate, 0, 0, 65535⟩]⟩
/-- NET_PTPCFG (R391). -/
def NET_PTPCFG : Row := ⟨0xE0014, 0x0, 1, 0x0, 1, true, false,
  [⟨28, 28, .rw, .g1, .packet, 0, 0, 1⟩,
   ⟨27, 24, .rw, .g1, .packet, 3, 2, 15⟩,
   ⟨23, 16, .rw, .g1, .packet, 0xA, 1, 255⟩,
   ⟨15, 0, .rw, .g1, .packet, 0x64, 10, 65535⟩]⟩
/-- NET_PTPCTL (R391). -/
def NET_PTPCTL : Row := ⟨0xE0018, 0x0, 1, 0x0, 1, false, false,
  [⟨2, 1, .wo, .g1, .immediate, 0, 0, 3⟩,
   ⟨0, 0, .wo, .g1, .immediate, 0, 0, 1⟩]⟩
/-- NET_PTPSTAT (R391). -/
def NET_PTPSTAT : Row := ⟨0xE001C, 0x0, 1, 0x0, 1, false, false,
  [⟨31, 28, .ro, .open_, .immediate, 1, 0, 15⟩,
   ⟨27, 27, .ro, .open_, .immediate, 0, 0, 1⟩,
   ⟨26, 26, .ro, .open_, .immediate, 0, 0, 1⟩,
   ⟨7, 0, .ro, .open_, .immediate, 0, 0, 255⟩]⟩
/-- NET_FREQ (R391). -/
def NET_FREQ : Row := ⟨0xE0020, 0x0, 1, 0x0, 1, false, false,
  [⟨31, 0, .ro, .open_, .immediate, 0, 0, 4294967295⟩]⟩
/-- NET_PLCFG (R391). -/
def NET_PLCFG : Row := ⟨0xE0024, 0x0, 1, 0x0, 1, true, false,
  [⟨31, 31, .ro, .open_, .immediate, 0, 0, 1⟩,
   ⟨8, 8, .rw, .g1, .period, 1, 0, 1⟩,
   ⟨7, 0, .rw, .g1, .period, 0x14, 1, 50⟩]⟩
/-- NET_PLSTAT (R391). -/
def NET_PLSTAT : Row := ⟨0xE0028, 0x0, 1, 0x0, 1, false, false,
  [⟨31, 30, .ro, .open_, .immediate, 0, 0, 3⟩,
   ⟨15, 0, .ro, .open_, .immediate, 0, 0, 65535⟩]⟩
/-- NET_RAPCFG (R391). -/
def NET_RAPCFG : Row := ⟨0xE0030, 0x0, 1, 0x0, 1, true, false,
  [⟨31, 16, .rw, .g1, .packet, 0x44E8, 0, 65535⟩,
   ⟨15, 8, .rw, .g1, .packet, 0x1E, 1, 255⟩,
   ⟨2, 0, .rw, .g1, .packet, 4, 0, 7⟩]⟩
/-- NET_RAPSTAT (R391). -/
def NET_RAPSTAT : Row := ⟨0xE0034, 0x0, 1, 0x0, 1, false, false,
  [⟨3, 0, .ro, .open_, .immediate, 0, 0, 15⟩]⟩
/-- NET_RAPERR (R391). -/
def NET_RAPERR : Row := ⟨0xE0038, 0x0, 1, 0x0, 1, false, false,
  [⟨31, 16, .ro, .open_, .immediate, 0, 0, 65535⟩,
   ⟨15, 0, .ro, .open_, .immediate, 0, 0, 65535⟩]⟩
/-- NET_DCFG (R391). -/
def NET_DCFG : Row := ⟨0xE0100, 0x40, 2, 0x0, 1, true, false,
  [⟨31, 31, .rw, .g1, .packet, 0, 0, 1⟩,
   ⟨30, 29, .rw, .g1, .packet, 0, 0, 3⟩,
   ⟨28, 28, .rw, .g1, .packet, 1, 0, 1⟩,
   ⟨27, 26, .rw, .g1, .packet, 3, 0, 3⟩,
   ⟨25, 22, .rw, .g1, .packet, 3, 2, 15⟩,
   ⟨7, 0, .rw, .g1, .packet, 0, 0, 255⟩]⟩
/-- NET_DSTAT (R391). -/
def NET_DSTAT : Row := ⟨0xE0104, 0x40, 2, 0x0, 1, false, false,
  [⟨31, 30, .ro, .open_, .immediate, 0, 0, 3⟩,
   ⟨29, 29, .ro, .open_, .immediate, 0, 0, 1⟩,
   ⟨23, 16, .ro, .open_, .immediate, 0, 0, 255⟩,
   ⟨15, 0, .ro, .open_, .immediate, 0, 0, 65535⟩]⟩
/-- NET_DGMLO (R391). -/
def NET_DGMLO : Row := ⟨0xE0108, 0x40, 2, 0x0, 1, false, false,
  [⟨31, 0, .ro, .open_, .immediate, 0, 0, 4294967295⟩]⟩
/-- NET_DGMHI (R391). -/
def NET_DGMHI : Row := ⟨0xE010C, 0x40, 2, 0x0, 1, false, false,
  [⟨31, 0, .ro, .open_, .immediate, 0, 0, 4294967295⟩]⟩
/-- NET_DOFS (R391). -/
def NET_DOFS : Row := ⟨0xE0110, 0x40, 2, 0x0, 1, false, false,
  [⟨31, 0, .ro, .open_, .immediate, 0, 0, 4294967295⟩]⟩
/-- NET_DPDLY (R391). -/
def NET_DPDLY : Row := ⟨0xE0114, 0x40, 2, 0x0, 1, false, false,
  [⟨31, 0, .ro, .open_, .immediate, 0, 0, 4294967295⟩]⟩
/-- NET_DERR (R391). -/
def NET_DERR : Row := ⟨0xE0118, 0x40, 2, 0x0, 1, false, false,
  [⟨31, 0, .ro, .open_, .immediate, 0, 0, 4294967295⟩]⟩
/-- NET_DJUMP (R391). -/
def NET_DJUMP : Row := ⟨0xE011C, 0x40, 2, 0x0, 1, false, false,
  [⟨31, 0, .ro, .open_, .immediate, 0, 0, 4294967295⟩]⟩
/-- NET_PCFG (R391). -/
def NET_PCFG : Row := ⟨0xE0200, 0x40, 3, 0x0, 1, true, false,
  [⟨31, 31, .rw, .g1, .packet, 0, 0, 1⟩,
   ⟨11, 0, .rw, .g1, .packet, 0, 0, 4095⟩]⟩
/-- NET_MACLO (R391). -/
def NET_MACLO : Row := ⟨0xE0204, 0x40, 3, 0x0, 1, true, false,
  [⟨31, 0, .rw, .g1, .packet, 0, 0, 4294967295⟩]⟩
/-- NET_MACHI (R391). -/
def NET_MACHI : Row := ⟨0xE0208, 0x40, 3, 0x0, 1, true, false,
  [⟨15, 0, .rw, .g1, .packet, 0, 0, 65535⟩]⟩
/-- NET_IP (R391). -/
def NET_IP : Row := ⟨0xE020C, 0x40, 3, 0x0, 1, true, false,
  [⟨31, 0, .rw, .g1, .packet, 0, 0, 4294967295⟩]⟩
/-- NET_TXCOR (R391). -/
def NET_TXCOR : Row := ⟨0xE0210, 0x40, 3, 0x0, 1, true, false,
  [⟨15, 0, .rw, .g1, .packet, 0x133, 0, 65535⟩]⟩
/-- NET_RXCOR (R391). -/
def NET_RXCOR : Row := ⟨0xE0214, 0x40, 3, 0x0, 1, true, false,
  [⟨15, 0, .rw, .g1, .packet, 0x19A, 0, 65535⟩]⟩
/-- NET_ASYM (R391). -/
def NET_ASYM : Row := ⟨0xE0218, 0x40, 3, 0x0, 1, true, false,
  [⟨31, 0, .rw, .g1, .packet, 0, 0, 4294967295⟩]⟩
/-- NET_PSTAT (R391). -/
def NET_PSTAT : Row := ⟨0xE021C, 0x40, 3, 0x0, 1, false, false,
  [⟨31, 16, .ro, .open_, .immediate, 0, 0, 65535⟩,
   ⟨15, 0, .ro, .open_, .immediate, 0, 0, 65535⟩]⟩
/-- NET_RXCNT (R391). -/
def NET_RXCNT : Row := ⟨0xE0220, 0x40, 3, 0x0, 1, false, false,
  [⟨31, 0, .ro, .open_, .immediate, 0, 0, 4294967295⟩]⟩
/-- NET_TOUTCFG (R391). -/
def NET_TOUTCFG : Row := ⟨0xE0400, 0x20, 8, 0x0, 1, false, false,
  [⟨2, 2, .rw, .open_, .immediate, 0, 0, 1⟩,
   ⟨1, 0, .rw, .open_, .immediate, 0, 0, 2⟩]⟩
/-- NET_TOUTTGT (R391). -/
def NET_TOUTTGT : Row := ⟨0xE0404, 0x20, 8, 0x0, 1, false, false,
  [⟨31, 0, .rw, .open_, .immediate, 0, 0, 4294967295⟩]⟩
/-- NET_TOUTPER (R391). -/
def NET_TOUTPER : Row := ⟨0xE0408, 0x20, 8, 0x0, 1, false, false,
  [⟨31, 0, .rw, .open_, .immediate, 0x3B9ACA00, 100, 2147483647⟩]⟩
/-- NET_TOUTW (R391). -/
def NET_TOUTW : Row := ⟨0xE040C, 0x20, 8, 0x0, 1, false, false,
  [⟨31, 0, .rw, .open_, .immediate, 0xF4240, 0, 4294967295⟩]⟩
/-- NET_TOUTCTL (R391). -/
def NET_TOUTCTL : Row := ⟨0xE0410, 0x20, 8, 0x0, 1, false, false,
  [⟨1, 1, .wo, .open_, .immediate, 0, 0, 1⟩,
   ⟨0, 0, .wo, .open_, .immediate, 0, 0, 1⟩]⟩
/-- NET_TOUTSTAT (R391). -/
def NET_TOUTSTAT : Row := ⟨0xE0414, 0x20, 8, 0x0, 1, false, false,
  [⟨31, 30, .ro, .open_, .immediate, 0, 0, 3⟩,
   ⟨29, 29, .w1c, .open_, .immediate, 0, 0, 1⟩,
   ⟨28, 28, .w1c, .open_, .immediate, 0, 0, 1⟩,
   ⟨27, 27, .w1c, .open_, .immediate, 0, 0, 1⟩,
   ⟨15, 0, .ro, .open_, .immediate, 0, 0, 65535⟩]⟩
/-- NET_TOUTLAST (R391). -/
def NET_TOUTLAST : Row := ⟨0xE0418, 0x20, 8, 0x0, 1, false, false,
  [⟨31, 0, .ro, .open_, .immediate, 0, 0, 4294967295⟩]⟩
/-- NET_GPCFG (R391). -/
def NET_GPCFG : Row := ⟨0xE0600, 0x10, 8, 0x0, 1, true, false,
  [⟨31, 31, .rw, .g1, .packet, 0, 0, 1⟩,
   ⟨30, 29, .rw, .g1, .packet, 0, 0, 3⟩,
   ⟨21, 16, .rw, .g1, .packet, 0, 1, 32⟩,
   ⟨15, 0, .rw, .g1, .packet, 0, 0, 65535⟩]⟩
/-- NET_GPTIM (R391). -/
def NET_GPTIM : Row := ⟨0xE0604, 0x10, 8, 0x0, 1, true, false,
  [⟨31, 16, .rw, .g1, .packet, 0x3E8, 0, 65535⟩,
   ⟨15, 0, .rw, .g1, .packet, 2, 0, 65535⟩]⟩
/-- NET_GPST (R391). -/
def NET_GPST : Row := ⟨0xE0608, 0x10, 8, 0x0, 1, false, false,
  [⟨31, 0, .ro, .open_, .immediate, 0, 0, 4294967295⟩]⟩
/-- NET_GPSQ (R391). -/
def NET_GPSQ : Row := ⟨0xE060C, 0x10, 8, 0x0, 1, false, false,
  [⟨31, 0, .ro, .open_, .immediate, 0, 0, 4294967295⟩]⟩
/-- NET_GSUBW (R391). -/
def NET_GSUBW : Row := ⟨0xE1000, 0x20, 64, 0x4, 5, true, false,
  [⟨31, 0, .rw, .g1, .packet, 0, 0, 4294967295⟩]⟩
/-- NET_GSUBR (R391). -/
def NET_GSUBR : Row := ⟨0xE1014, 0x20, 64, 0x4, 3, false, false,
  [⟨31, 0, .ro, .open_, .immediate, 0, 0, 4294967295⟩]⟩
/-- NET_SVSUBW (R391). -/
def NET_SVSUBW : Row := ⟨0xE1800, 0x20, 8, 0x4, 6, true, false,
  [⟨31, 0, .rw, .g1, .packet, 0, 0, 4294967295⟩]⟩
/-- NET_SVSUBR (R391). -/
def NET_SVSUBR : Row := ⟨0xE1818, 0x20, 8, 0x4, 2, false, false,
  [⟨31, 0, .ro, .open_, .immediate, 0, 0, 4294967295⟩]⟩
/-- NET_MAPW (R391). -/
def NET_MAPW : Row := ⟨0xE2000, 0x10, 128, 0x4, 3, true, false,
  [⟨31, 0, .rw, .g1, .packet, 0, 0, 4294967295⟩]⟩
/-- NET_MAP3 (R391). -/
def NET_MAP3 : Row := ⟨0xE200C, 0x10, 128, 0x0, 1, true, false,
  [⟨31, 31, .ro, .open_, .immediate, 0, 0, 1⟩,
   ⟨30, 0, .rw, .g1, .packet, 0, 0, 2147483647⟩]⟩
/-- NET_GPEL (R391). -/
def NET_GPEL : Row := ⟨0xE3000, 0x4, 512, 0x0, 1, true, false,
  [⟨31, 0, .rw, .g1, .packet, 0, 0, 4294967295⟩]⟩
/-- ACQ_CFG (R413). -/
def ACQ_CFG : Row := ⟨0xF0000, 0x0, 1, 0x0, 1, true, false,
  [⟨31, 24, .rw, .g1, .period, 0x40, 0, 255⟩,
   ⟨23, 21, .rw, .g1, .period, 0, 0, 7⟩,
   ⟨20, 20, .rw, .g1, .period, 1, 0, 1⟩]⟩
/-- ACQ_STAT (R413). -/
def ACQ_STAT : Row := ⟨0xF0004, 0x0, 1, 0x0, 1, false, false,
  [⟨31, 31, .ro, .open_, .immediate, 1, 0, 1⟩,
   ⟨30, 30, .ro, .open_, .immediate, 0, 0, 1⟩,
   ⟨29, 29, .w1c, .open_, .immediate, 0, 0, 1⟩,
   ⟨12, 0, .ro, .open_, .immediate, 0, 0, 8191⟩]⟩
/-- ACQ_CALCTRL (R413). -/
def ACQ_CALCTRL : Row := ⟨0xF0008, 0x0, 1, 0x0, 1, false, false,
  [⟨0, 0, .wo, .g1, .immediate, 0, 0, 1⟩]⟩
/-- ACQ_CALSTAT (R413). -/
def ACQ_CALSTAT : Row := ⟨0xF000C, 0x0, 1, 0x0, 1, false, false,
  [⟨31, 30, .ro, .open_, .immediate, 0, 0, 3⟩,
   ⟨29, 27, .ro, .open_, .immediate, 0, 0, 7⟩,
   ⟨15, 0, .ro, .open_, .immediate, 0, 0, 65535⟩]⟩
/-- ACQ_POOL (R413). -/
def ACQ_POOL : Row := ⟨0xF0010, 0x0, 1, 0x0, 1, false, false,
  [⟨28, 16, .ro, .open_, .immediate, 0, 0, 8191⟩,
   ⟨12, 0, .ro, .open_, .immediate, 0, 0, 8191⟩]⟩
/-- ACQ_EVCNT (R413). -/
def ACQ_EVCNT : Row := ⟨0xF0014, 0x0, 1, 0x0, 1, false, false,
  [⟨31, 0, .ro, .open_, .immediate, 0, 0, 4294967295⟩]⟩
/-- ACQ_RECID (R413). -/
def ACQ_RECID : Row := ⟨0xF0018, 0x0, 1, 0x0, 1, false, false,
  [⟨31, 0, .ro, .open_, .immediate, 0, 0, 4294967295⟩]⟩
/-- ACQ_DIRCTL (R413). -/
def ACQ_DIRCTL : Row := ⟨0xF0020, 0x0, 1, 0x0, 1, false, false,
  [⟨1, 0, .wo, .g1, .immediate, 0, 0, 3⟩]⟩
/-- ACQ_DIRARG (R413). -/
def ACQ_DIRARG : Row := ⟨0xF0024, 0x0, 1, 0x0, 1, false, false,
  [⟨31, 0, .rw, .open_, .immediate, 0, 0, 4294967295⟩]⟩
/-- ACQ_SKEW (R413). -/
def ACQ_SKEW : Row := ⟨0xF0100, 0x10, 24, 0x0, 1, false, false,
  [⟨15, 0, .ro, .open_, .immediate, 0, 0, 65535⟩]⟩
/-- ACQ_FDOFS (R413). -/
def ACQ_FDOFS : Row := ⟨0xF0104, 0x10, 24, 0x0, 1, true, false,
  [⟨15, 0, .rw, .g1, .period, 0, 0, 65535⟩]⟩
/-- ACQ_FD (R413). -/
def ACQ_FD : Row := ⟨0xF0108, 0x10, 24, 0x0, 1, false, false,
  [⟨15, 0, .ro, .open_, .immediate, 0, 0, 65535⟩]⟩
/-- ACQ_WMAP (R413). -/
def ACQ_WMAP : Row := ⟨0xF0400, 0x8, 32, 0x0, 1, false, false,
  [⟨31, 31, .rw, .open_, .immediate, 0, 0, 1⟩,
   ⟨11, 0, .rw, .open_, .immediate, 0, 0, 4095⟩]⟩
/-- ACQ_WSTAT (R413). -/
def ACQ_WSTAT : Row := ⟨0xF0404, 0x8, 32, 0x0, 1, false, false,
  [⟨31, 31, .ro, .open_, .immediate, 0, 0, 1⟩,
   ⟨30, 0, .ro, .open_, .immediate, 0, 0, 2147483647⟩]⟩
/-- ACQ_MCFG (R413). -/
def ACQ_MCFG : Row := ⟨0xF0800, 0x10, 8, 0x0, 1, false, false,
  [⟨31, 31, .rw, .open_, .period, 0, 0, 1⟩,
   ⟨30, 28, .rw, .open_, .period, 0, 0, 7⟩,
   ⟨27, 23, .rw, .open_, .period, 0, 0, 31⟩,
   ⟨22, 22, .rw, .open_, .period, 0, 0, 1⟩,
   ⟨21, 20, .rw, .open_, .period, 0, 0, 3⟩,
   ⟨19, 18, .rw, .open_, .period, 0, 0, 3⟩,
   ⟨17, 0, .rw, .open_, .period, 1, 1, 262143⟩]⟩
/-- ACQ_MCNT (R413). -/
def ACQ_MCNT : Row := ⟨0xF0804, 0x10, 8, 0x0, 1, false, false,
  [⟨31, 0, .ro, .open_, .immediate, 0, 0, 4294967295⟩]⟩
/-- ACQ_MFIRST (R413). -/
def ACQ_MFIRST : Row := ⟨0xF0808, 0x10, 8, 0x0, 1, false, false,
  [⟨31, 0, .ro, .open_, .immediate, 0, 0, 4294967295⟩]⟩
/-- ACQ_MAPCFG (R413). -/
def ACQ_MAPCFG : Row := ⟨0xF0C00, 0x0, 1, 0x0, 1, false, false,
  [⟨31, 31, .rw, .g1, .period, 0, 0, 1⟩,
   ⟨30, 30, .rw, .open_, .period, 0, 0, 1⟩,
   ⟨29, 27, .rw, .open_, .period, 0, 0, 7⟩,
   ⟨15, 0, .rw, .open_, .period, 1, 1, 65535⟩]⟩
/-- ACQ_MAPCH0 (R413). -/
def ACQ_MAPCH0 : Row := ⟨0xF0C04, 0x0, 1, 0x0, 1, false, false,
  [⟨31, 0, .rw, .open_, .period, 0, 0, 4294967295⟩]⟩
/-- ACQ_MAPCTL (R413). -/
def ACQ_MAPCTL : Row := ⟨0xF0C08, 0x0, 1, 0x0, 1, false, false,
  [⟨1, 1, .wo, .open_, .immediate, 0, 0, 1⟩,
   ⟨0, 0, .wo, .open_, .immediate, 0, 0, 1⟩]⟩
/-- ACQ_MAPSTAT (R413). -/
def ACQ_MAPSTAT : Row := ⟨0xF0C0C, 0x0, 1, 0x0, 1, false, false,
  [⟨31, 31, .ro, .open_, .immediate, 0, 0, 1⟩,
   ⟨30, 30, .ro, .open_, .immediate, 0, 0, 1⟩,
   ⟨11, 0, .ro, .open_, .immediate, 0, 0, 4095⟩]⟩
/-- ACQ_MAPCH1 (R413). -/
def ACQ_MAPCH1 : Row := ⟨0xF0C10, 0x0, 1, 0x0, 1, false, false,
  [⟨31, 0, .rw, .open_, .period, 0, 0, 4294967295⟩]⟩
/-- ACQ_RCTL (R413). -/
def ACQ_RCTL : Row := ⟨0xF1000, 0x100, 8, 0x0, 1, false, false,
  [⟨2, 2, .wo, .open_, .immediate, 0, 0, 1⟩,
   ⟨1, 1, .wo, .open_, .immediate, 0, 0, 1⟩,
   ⟨0, 0, .wo, .open_, .immediate, 0, 0, 1⟩]⟩
/-- ACQ_RSTAT (R413). -/
def ACQ_RSTAT : Row := ⟨0xF1004, 0x100, 8, 0x0, 1, false, false,
  [⟨31, 29, .ro, .open_, .immediate, 0, 0, 7⟩,
   ⟨28, 28, .w1c, .open_, .immediate, 0, 0, 1⟩,
   ⟨27, 27, .w1c, .open_, .immediate, 0, 0, 1⟩,
   ⟨15, 0, .ro, .open_, .immediate, 0, 0, 65535⟩]⟩
/-- ACQ_RCFG (R413). -/
def ACQ_RCFG : Row := ⟨0xF1008, 0x100, 8, 0x0, 1, false, false,
  [⟨31, 30, .rw, .open_, .period, 0, 0, 1⟩,
   ⟨29, 29, .rw, .open_, .period, 0, 0, 1⟩,
   ⟨23, 16, .rw, .open_, .period, 0, 0, 255⟩,
   ⟨6, 0, .rw, .open_, .period, 0, 0, 127⟩]⟩
/-- ACQ_RCH (R413). -/
def ACQ_RCH : Row := ⟨0xF100C, 0x100, 8, 0x0, 1, false, false,
  [⟨23, 0, .rw, .open_, .period, 0, 0, 16777215⟩]⟩
/-- ACQ_RVCH (R413). -/
def ACQ_RVCH : Row := ⟨0xF1010, 0x100, 8, 0x0, 1, false, false,
  [⟨26, 16, .rw, .open_, .period, 0, 0, 1024⟩,
   ⟨9, 0, .rw, .open_, .period, 0, 0, 1023⟩]⟩
/-- ACQ_RPRE (R413). -/
def ACQ_RPRE : Row := ⟨0xF1014, 0x100, 8, 0x0, 1, false, false,
  [⟨31, 0, .rw, .open_, .period, 0, 0, 50000000⟩]⟩
/-- ACQ_RPOST (R413). -/
def ACQ_RPOST : Row := ⟨0xF1018, 0x100, 8, 0x0, 1, false, false,
  [⟨31, 0, .rw, .open_, .period, 1, 1, 250000000⟩]⟩
/-- ACQ_RRED (R413). -/
def ACQ_RRED : Row := ⟨0xF101C, 0x100, 8, 0x0, 1, false, false,
  [⟨31, 27, .rw, .open_, .period, 1, 1, 16⟩,
   ⟨26, 26, .rw, .open_, .period, 0, 0, 1⟩,
   ⟨25, 21, .rw, .open_, .period, 0, 0, 31⟩,
   ⟨19, 0, .rw, .open_, .period, 0x3E8, 1000, 1000000⟩]⟩
/-- ACQ_RCOMB (R413). -/
def ACQ_RCOMB : Row := ⟨0xF1020, 0x100, 8, 0x0, 1, false, false,
  [⟨31, 30, .rw, .open_, .period, 0, 0, 3⟩,
   ⟨29, 26, .rw, .open_, .period, 0, 0, 15⟩,
   ⟨25, 0, .rw, .open_, .period, 0, 0, 67108863⟩]⟩
/-- ACQ_RHOLD (R413). -/
def ACQ_RHOLD : Row := ⟨0xF1024, 0x100, 8, 0x0, 1, false, false,
  [⟨31, 0, .rw, .open_, .period, 0, 0, 4294967295⟩]⟩
/-- ACQ_RTRG0 (R413). -/
def ACQ_RTRG0 : Row := ⟨0xF1040, 0x100, 8, 0x8, 4, false, false,
  [⟨31, 28, .rw, .open_, .period, 0, 0, 15⟩,
   ⟨27, 26, .rw, .open_, .period, 0, 0, 3⟩,
   ⟨25, 25, .rw, .open_, .period, 0, 0, 1⟩,
   ⟨9, 0, .rw, .open_, .period, 0, 0, 1023⟩]⟩
/-- ACQ_RTRG1 (R413). -/
def ACQ_RTRG1 : Row := ⟨0xF1044, 0x100, 8, 0x8, 4, false, false,
  [⟨31, 0, .rw, .open_, .period, 0, 0, 4294967295⟩]⟩
/-- ACQ_RTRIG (R413). -/
def ACQ_RTRIG : Row := ⟨0xF1060, 0x100, 8, 0x0, 1, false, false,
  [⟨31, 0, .ro, .open_, .immediate, 0, 0, 4294967295⟩]⟩
/-- ACQ_RTPOS (R413). -/
def ACQ_RTPOS : Row := ⟨0xF1064, 0x100, 8, 0x0, 1, false, false,
  [⟨31, 30, .ro, .open_, .immediate, 0, 0, 3⟩,
   ⟨29, 28, .ro, .open_, .immediate, 0, 0, 3⟩,
   ⟨25, 16, .ro, .open_, .immediate, 0, 0, 1023⟩,
   ⟨11, 0, .ro, .open_, .immediate, 0, 0, 4095⟩]⟩
/-- ACQ_RLAST (R413). -/
def ACQ_RLAST : Row := ⟨0xF1068, 0x100, 8, 0x0, 1, false, false,
  [⟨31, 0, .ro, .open_, .immediate, 0, 0, 4294967295⟩]⟩
/-- ACQ_MTAB (R413). -/
def ACQ_MTAB : Row := ⟨0xF4000, 0x400, 8, 0x4, 256, false, false,
  [⟨31, 0, .rw, .open_, .period, 0, 0, 4294967295⟩]⟩
/-- ACQ_VCH (R413). -/
def ACQ_VCH : Row := ⟨0xF8000, 0x4, 1024, 0x0, 1, false, false,
  [⟨31, 0, .rw, .open_, .period, 0, 0, 4294967295⟩]⟩
/-- ACQ_DIR (R413). -/
def ACQ_DIR : Row := ⟨0xF9000, 0x8, 1024, 0x4, 2, false, false,
  [⟨31, 0, .ro, .open_, .immediate, 0, 0, 4294967295⟩]⟩
/-- SEC_STATE (R135). -/
def SEC_STATE : Row := ⟨0xFC000, 0x0, 1, 0x0, 1, false, false,
  [⟨18, 16, .ro, .open_, .immediate, 0, 0, 7⟩,
   ⟨8, 8, .ro, .open_, .immediate, 0, 0, 1⟩,
   ⟨3, 0, .ro, .open_, .immediate, 0, 0, 15⟩]⟩
/-- SEC_RSTCAUSE (R135). -/
def SEC_RSTCAUSE : Row := ⟨0xFC004, 0x0, 1, 0x0, 1, false, false,
  [⟨7, 0, .ro, .open_, .immediate, 0, 0, 255⟩]⟩
/-- SEC_BOOTSTAT (R135). -/
def SEC_BOOTSTAT : Row := ⟨0xFC008, 0x0, 1, 0x0, 1, false, false,
  [⟨7, 4, .ro, .open_, .immediate, 0, 0, 15⟩,
   ⟨3, 0, .ro, .open_, .immediate, 0, 0, 15⟩]⟩
/-- SEC_IMGSEQ (R135). -/
def SEC_IMGSEQ : Row := ⟨0xFC00C, 0x0, 1, 0x0, 1, false, false,
  [⟨31, 0, .ro, .open_, .immediate, 0, 0, 4294967295⟩]⟩
/-- SEC_SVN (R135). -/
def SEC_SVN : Row := ⟨0xFC010, 0x0, 1, 0x0, 1, false, false,
  [⟨22, 16, .ro, .open_, .immediate, 0, 0, 127⟩,
   ⟨6, 0, .ro, .open_, .immediate, 0, 0, 127⟩]⟩
/-- SEC_BOOTSEL (R135). -/
def SEC_BOOTSEL : Row := ⟨0xFC014, 0x0, 1, 0x0, 1, false, false,
  [⟨1, 1, .rw, .g1, .immediate, 0, 0, 1⟩,
   ⟨0, 0, .rw, .g1, .immediate, 0, 0, 1⟩]⟩
/-- SEC_RESET (R135). -/
def SEC_RESET : Row := ⟨0xFC018, 0x0, 1, 0x0, 1, false, false,
  [⟨0, 0, .wo, .g1, .immediate, 0, 0, 1⟩]⟩
/-- SEC_LCREQ (R135). -/
def SEC_LCREQ : Row := ⟨0xFC020, 0x0, 1, 0x0, 1, false, false,
  [⟨2, 0, .rw, .g2, .immediate, 0, 0, 7⟩]⟩
/-- SEC_KEYOP (R135). -/
def SEC_KEYOP : Row := ⟨0xFC028, 0x0, 1, 0x0, 1, false, false,
  [⟨31, 28, .rw, .g2, .immediate, 0, 0, 15⟩,
   ⟨1, 0, .rw, .g2, .immediate, 0, 0, 3⟩]⟩
/-- SEC_KEYSTAT (R135). -/
def SEC_KEYSTAT : Row := ⟨0xFC030, 0x0, 1, 0x0, 1, false, false,
  [⟨31, 31, .ro, .open_, .immediate, 0, 0, 1⟩,
   ⟨30, 30, .w1c, .open_, .immediate, 0, 0, 1⟩,
   ⟨15, 12, .ro, .open_, .immediate, 0, 0, 15⟩,
   ⟨11, 8, .ro, .open_, .immediate, 0, 0, 15⟩,
   ⟨7, 6, .ro, .open_, .immediate, 0, 0, 3⟩,
   ⟨5, 4, .ro, .open_, .immediate, 0, 0, 3⟩,
   ⟨1, 0, .ro, .open_, .immediate, 0, 0, 3⟩]⟩
/-- SEC_WIPE (R135). -/
def SEC_WIPE : Row := ⟨0xFC034, 0x0, 1, 0x0, 1, false, false,
  [⟨31, 31, .ro, .open_, .immediate, 0, 0, 1⟩,
   ⟨4, 0, .ro, .open_, .immediate, 0, 0, 31⟩]⟩
/-- SEC_RESIGN (R135). -/
def SEC_RESIGN : Row := ⟨0xFC040, 0x0, 1, 0x0, 1, false, false,
  [⟨31, 16, .ro, .open_, .immediate, 0, 0, 65535⟩,
   ⟨15, 15, .ro, .open_, .immediate, 0, 0, 1⟩,
   ⟨7, 0, .ro, .open_, .immediate, 0, 0, 255⟩]⟩
/-- SEC_RELEASE (R135). -/
def SEC_RELEASE : Row := ⟨0xFC044, 0x0, 1, 0x0, 1, false, false,
  [⟨0, 0, .wo, .g1, .immediate, 0, 0, 1⟩]⟩
/-- SEC_RESIGNTO (R135). -/
def SEC_RESIGNTO : Row := ⟨0xFC048, 0x0, 1, 0x0, 1, true, false,
  [⟨15, 0, .rw, .g1, .period, 0x258, 0, 65535⟩]⟩
/-- SEC_FSUM (R135). -/
def SEC_FSUM : Row := ⟨0xFC04C, 0x0, 1, 0x0, 1, false, false,
  [⟨31, 31, .ro, .open_, .immediate, 0, 0, 1⟩,
   ⟨30, 0, .ro, .open_, .immediate, 0, 0, 2147483647⟩]⟩
/-- SEC_ATTCMD (R135). -/
def SEC_ATTCMD : Row := ⟨0xFC050, 0x0, 1, 0x0, 1, false, false,
  [⟨0, 0, .wo, .open_, .immediate, 0, 0, 1⟩]⟩
/-- SEC_ATTSTAT (R135). -/
def SEC_ATTSTAT : Row := ⟨0xFC054, 0x0, 1, 0x0, 1, false, false,
  [⟨1, 1, .ro, .open_, .immediate, 0, 0, 1⟩,
   ⟨0, 0, .ro, .open_, .immediate, 0, 0, 1⟩]⟩
/-- SEC_TAMPER (R135). -/
def SEC_TAMPER : Row := ⟨0xFC058, 0x0, 1, 0x0, 1, false, false,
  [⟨2, 2, .w1c, .open_, .immediate, 0, 0, 1⟩,
   ⟨1, 1, .w1c, .open_, .immediate, 0, 0, 1⟩,
   ⟨0, 0, .w1c, .open_, .immediate, 0, 0, 1⟩]⟩
/-- SEC_BOOTCNT (R135). -/
def SEC_BOOTCNT : Row := ⟨0xFC05C, 0x0, 1, 0x0, 1, false, false,
  [⟨31, 0, .ro, .open_, .immediate, 0, 0, 4294967295⟩]⟩
/-- SEC_ATTNONCE (R135). -/
def SEC_ATTNONCE : Row := ⟨0xFC060, 0x4, 8, 0x0, 1, false, false,
  [⟨31, 0, .rw, .open_, .immediate, 0, 0, 4294967295⟩]⟩
/-- SEC_NVMCTL (R135). -/
def SEC_NVMCTL : Row := ⟨0xFC080, 0x0, 1, 0x0, 1, false, false,
  [⟨31, 30, .wo, .g1, .immediate, 0, 0, 3⟩,
   ⟨25, 0, .wo, .g1, .immediate, 0, 0, 67108863⟩]⟩
/-- SEC_NVMSTAT (R135). -/
def SEC_NVMSTAT : Row := ⟨0xFC084, 0x0, 1, 0x0, 1, false, false,
  [⟨1, 1, .w1c, .open_, .immediate, 0, 0, 1⟩,
   ⟨0, 0, .ro, .open_, .immediate, 0, 0, 1⟩]⟩
/-- SEC_KEYBUF (R135). -/
def SEC_KEYBUF : Row := ⟨0xFC100, 0x4, 32, 0x0, 1, false, false,
  [⟨31, 0, .wo, .open_, .immediate, 0, 0, 4294967295⟩]⟩
/-- SEC_NVMBUF (R135). -/
def SEC_NVMBUF : Row := ⟨0xFC200, 0x4, 64, 0x0, 1, false, false,
  [⟨31, 0, .rw, .open_, .immediate, 0, 0, 4294967295⟩]⟩
/-- SEC_ATT (R135). -/
def SEC_ATT : Row := ⟨0xFD000, 0x4, 1024, 0x0, 1, false, false,
  [⟨31, 0, .ro, .open_, .immediate, 0, 0, 4294967295⟩]⟩
/-- SEC_DEVID (R135). -/
def SEC_DEVID : Row := ⟨0xFE000, 0x4, 1024, 0x0, 1, false, false,
  [⟨31, 0, .ro, .open_, .immediate, 0, 0, 4294967295⟩]⟩

end R

namespace F
/-- SYS_ID.PART [31:16]. -/
def SYS_ID_PART : Fld := ⟨0x0, 0x0, 0x0, 31, 16⟩
/-- SYS_ID.STEP [15:8]. -/
def SYS_ID_STEP : Fld := ⟨0x0, 0x0, 0x0, 15, 8⟩
/-- SYS_THAW.KEY [15:0]. -/
def SYS_THAW_KEY : Fld := ⟨0x10, 0x0, 0x0, 15, 0⟩
/-- SYS_GSTAT.THAWED [15:11]. -/
def SYS_GSTAT_THAWED : Fld := ⟨0x14, 0x0, 0x0, 15, 11⟩
/-- SYS_GSTAT.G2PATH [10:8]. -/
def SYS_GSTAT_G2PATH : Fld := ⟨0x14, 0x0, 0x0, 10, 8⟩
/-- SYS_GSTAT.G2PEND [7:7]. -/
def SYS_GSTAT_G2PEND : Fld := ⟨0x14, 0x0, 0x0, 7, 7⟩
/-- SYS_WRSTAT.CODE [19:0]. -/
def SYS_WRSTAT_CODE : Fld := ⟨0x18, 0x0, 0x0, 19, 0⟩
/-- SYS_TXN.UPDATEREF [8:8]. -/
def SYS_TXN_UPDATEREF : Fld := ⟨0x20, 0x0, 0x0, 8, 8⟩
/-- SYS_TXN.CMD [1:0]. -/
def SYS_TXN_CMD : Fld := ⟨0x20, 0x0, 0x0, 1, 0⟩
/-- SYS_TXNSTAT.COUNT [31:18]. -/
def SYS_TXNSTAT_COUNT : Fld := ⟨0x24, 0x0, 0x0, 31, 18⟩
/-- SYS_TXNSTAT.OWNER [17:15]. -/
def SYS_TXNSTAT_OWNER : Fld := ⟨0x24, 0x0, 0x0, 17, 15⟩
/-- SYS_TXNSTAT.CAUSE [14:12]. -/
def SYS_TXNSTAT_CAUSE : Fld := ⟨0x24, 0x0, 0x0, 14, 12⟩
/-- SYS_TXNSTAT.POISON [11:11]. -/
def SYS_TXNSTAT_POISON : Fld := ⟨0x24, 0x0, 0x0, 11, 11⟩
/-- SYS_TXNSTAT.STATE [2:0]. -/
def SYS_TXNSTAT_STATE : Fld := ⟨0x24, 0x0, 0x0, 2, 0⟩
/-- SYS_TXNCELL.FAILCELL [24:16]. -/
def SYS_TXNCELL_FAILCELL : Fld := ⟨0x28, 0x0, 0x0, 24, 16⟩
/-- SYS_TXNCELL.ACKS [8:0]. -/
def SYS_TXNCELL_ACKS : Fld := ⟨0x28, 0x0, 0x0, 8, 0⟩
/-- SYS_TXNACT.KACT [31:0]. -/
def SYS_TXNACT_KACT : Fld := ⟨0x2C, 0x0, 0x0, 31, 0⟩
/-- SYS_TXNCFG.IDLETO [31:24]. -/
def SYS_TXNCFG_IDLETO : Fld := ⟨0x30, 0x0, 0x0, 31, 24⟩
/-- SYS_TXNCFG.ACKTO [23:16]. -/
def SYS_TXNCFG_ACKTO : Fld := ⟨0x30, 0x0, 0x0, 23, 16⟩
/-- SYS_TXNCFG.ACTLEAD [5:0]. -/
def SYS_TXNCFG_ACTLEAD : Fld := ⟨0x30, 0x0, 0x0, 5, 0⟩
/-- SYS_CFGREF.REF [31:0]. -/
def SYS_CFGREF_REF : Fld := ⟨0x40, 0x0, 0x0, 31, 0⟩
/-- SYS_CFGCRC.CRC [31:0]. -/
def SYS_CFGCRC_CRC : Fld := ⟨0x44, 0x0, 0x0, 31, 0⟩
/-- SYS_CFGSTAT.PASSES [31:16]. -/
def SYS_CFGSTAT_PASSES : Fld := ⟨0x48, 0x0, 0x0, 31, 16⟩
/-- SYS_CFGSTAT.SKIP [15:8]. -/
def SYS_CFGSTAT_SKIP : Fld := ⟨0x48, 0x0, 0x0, 15, 8⟩
/-- SYS_CFGSTAT.REFPASS [1:1]. -/
def SYS_CFGSTAT_REFPASS : Fld := ⟨0x48, 0x0, 0x0, 1, 1⟩
/-- SYS_CFGSTAT.MISMATCH [0:0]. -/
def SYS_CFGSTAT_MISMATCH : Fld := ⟨0x48, 0x0, 0x0, 0, 0⟩
/-- SYS_FREEZE.GO [0:0]. -/
def SYS_FREEZE_GO : Fld := ⟨0x50, 0x0, 0x0, 0, 0⟩
/-- SYS_FRZSTAT.VALID [31:31]. -/
def SYS_FRZSTAT_VALID : Fld := ⟨0x54, 0x0, 0x0, 31, 31⟩
/-- SYS_FRZSTAT.CT [15:0]. -/
def SYS_FRZSTAT_CT : Fld := ⟨0x54, 0x0, 0x0, 15, 0⟩
/-- SYS_FRZPER.PERIOD [31:0]. -/
def SYS_FRZPER_PERIOD : Fld := ⟨0x58, 0x0, 0x0, 31, 0⟩
/-- SYS_PERIODLO.LO [31:0]. -/
def SYS_PERIODLO_LO : Fld := ⟨0x60, 0x0, 0x0, 31, 0⟩
/-- SYS_PERIODHI.HI [31:0]. -/
def SYS_PERIODHI_HI : Fld := ⟨0x64, 0x0, 0x0, 31, 0⟩
/-- SYS_FRZ.WORD [31:0]. -/
def SYS_FRZ_WORD : Fld := ⟨0x4000, 0x8, 0x4, 31, 0⟩
/-- EVT_CTRL.NETNOTIFY [1:1]. -/
def EVT_CTRL_NETNOTIFY : Fld := ⟨0x10000, 0x0, 0x0, 1, 1⟩
/-- EVT_CTRL.LOGEN [0:0]. -/
def EVT_CTRL_LOGEN : Fld := ⟨0x10000, 0x0, 0x0, 0, 0⟩
/-- EVT_LOGWP.IDX [16:0]. -/
def EVT_LOGWP_IDX : Fld := ⟨0x10004, 0x0, 0x0, 16, 0⟩
/-- EVT_LOGSEQ.SEQ [31:0]. -/
def EVT_LOGSEQ_SEQ : Fld := ⟨0x10008, 0x0, 0x0, 31, 0⟩
/-- EVT_LOGSTAT.FULL [7:7]. -/
def EVT_LOGSTAT_FULL : Fld := ⟨0x1000C, 0x0, 0x0, 7, 7⟩
/-- EVT_LOGSTAT.DEPTH [6:0]. -/
def EVT_LOGSTAT_DEPTH : Fld := ⟨0x1000C, 0x0, 0x0, 6, 0⟩
/-- EVT_IRQMASK.MASK [3:0]. -/
def EVT_IRQMASK_MASK : Fld := ⟨0x10010, 0x0, 0x0, 3, 0⟩
/-- EVT_IRQSTAT.LINE [3:0]. -/
def EVT_IRQSTAT_LINE : Fld := ⟨0x10014, 0x0, 0x0, 3, 0⟩
/-- EVT_CNTCLR.ALL [31:31]. -/
def EVT_CNTCLR_ALL : Fld := ⟨0x10018, 0x0, 0x0, 31, 31⟩
/-- EVT_CNTCLR.SRC [9:0]. -/
def EVT_CNTCLR_SRC : Fld := ⟨0x10018, 0x0, 0x0, 9, 0⟩
/-- EVT_DERATE.HOLD [23:16]. -/
def EVT_DERATE_HOLD : Fld := ⟨0x1001C, 0x0, 0x0, 23, 16⟩
/-- EVT_DERATE.LEVEL [15:0]. -/
def EVT_DERATE_LEVEL : Fld := ⟨0x1001C, 0x0, 0x0, 15, 0⟩
/-- EVT_EN.EN [31:0]. -/
def EVT_EN_EN : Fld := ⟨0x10100, 0x4, 0x0, 31, 0⟩
/-- EVT_PEND.PEND [31:0]. -/
def EVT_PEND_PEND : Fld := ⟨0x10200, 0x4, 0x0, 31, 0⟩
/-- EVT_ACT.ACT [31:0]. -/
def EVT_ACT_ACT : Fld := ⟨0x10300, 0x4, 0x0, 31, 0⟩
/-- EVT_CFG.FLOOR [26:24]. -/
def EVT_CFG_FLOOR : Fld := ⟨0x11000, 0x4, 0x0, 26, 24⟩
/-- EVT_CFG.SQINT [23:16]. -/
def EVT_CFG_SQINT : Fld := ⟨0x11000, 0x4, 0x0, 23, 16⟩
/-- EVT_CFG.SQBURST [15:8]. -/
def EVT_CFG_SQBURST : Fld := ⟨0x11000, 0x4, 0x0, 15, 8⟩
/-- EVT_CFG.IRQSEL [4:3]. -/
def EVT_CFG_IRQSEL : Fld := ⟨0x11000, 0x4, 0x0, 4, 3⟩
/-- EVT_CFG.REACT [2:0]. -/
def EVT_CFG_REACT : Fld := ⟨0x11000, 0x4, 0x0, 2, 0⟩
/-- EVT_CNT.CNT [31:0]. -/
def EVT_CNT_CNT : Fld := ⟨0x12000, 0x4, 0x0, 31, 0⟩
/-- CLK_CFG.REFSEL [8:8]. -/
def CLK_CFG_REFSEL : Fld := ⟨0x20000, 0x0, 0x0, 8, 8⟩
/-- CLK_CFG.REFMUL [7:0]. -/
def CLK_CFG_REFMUL : Fld := ⟨0x20000, 0x0, 0x0, 7, 0⟩
/-- CLK_STAT.LLOCKED [10:4]. -/
def CLK_STAT_LLOCKED : Fld := ⟨0x20004, 0x0, 0x0, 10, 4⟩
/-- CLK_STAT.LOCKED [3:0]. -/
def CLK_STAT_LOCKED : Fld := ⟨0x20004, 0x0, 0x0, 3, 0⟩
/-- CLK_ALARM.LATCHED [31:16]. -/
def CLK_ALARM_LATCHED : Fld := ⟨0x20008, 0x0, 0x0, 31, 16⟩
/-- CLK_ALARM.ALARM [15:0]. -/
def CLK_ALARM_ALARM : Fld := ⟨0x20008, 0x0, 0x0, 15, 0⟩
/-- CLK_MONCFG.WIN [31:16]. -/
def CLK_MONCFG_WIN : Fld := ⟨0x2000C, 0x0, 0x0, 31, 16⟩
/-- CLK_MONCFG.TOL [7:0]. -/
def CLK_MONCFG_TOL : Fld := ⟨0x2000C, 0x0, 0x0, 7, 0⟩
/-- CLK_CSTEER.STEER [31:0]. -/
def CLK_CSTEER_STEER : Fld := ⟨0x20010, 0x0, 0x0, 31, 0⟩
/-- CLK_RTCLO.TICKS [31:0]. -/
def CLK_RTCLO_TICKS : Fld := ⟨0x20018, 0x0, 0x0, 31, 0⟩
/-- CLK_RTCHI.TICKS [15:0]. -/
def CLK_RTCHI_TICKS : Fld := ⟨0x2001C, 0x0, 0x0, 15, 0⟩
/-- CLK_OUTCFG.EN [31:31]. -/
def CLK_OUTCFG_EN : Fld := ⟨0x20020, 0x4, 0x0, 31, 31⟩
/-- CLK_OUTCFG.SRC [17:16]. -/
def CLK_OUTCFG_SRC : Fld := ⟨0x20020, 0x4, 0x0, 17, 16⟩
/-- CLK_OUTCFG.DIV [15:0]. -/
def CLK_OUTCFG_DIV : Fld := ⟨0x20020, 0x4, 0x0, 15, 0⟩
/-- CLK_OUTSTAT.RUNNING [1:0]. -/
def CLK_OUTSTAT_RUNNING : Fld := ⟨0x20028, 0x0, 0x0, 1, 0⟩
/-- THM_DIECFG0.THROT [27:16]. -/
def THM_DIECFG0_THROT : Fld := ⟨0x28000, 0x0, 0x0, 27, 16⟩
/-- THM_DIECFG0.WARN [11:0]. -/
def THM_DIECFG0_WARN : Fld := ⟨0x28000, 0x0, 0x0, 11, 0⟩
/-- THM_DIECFG1.HYSW [30:26]. -/
def THM_DIECFG1_HYSW : Fld := ⟨0x28004, 0x0, 0x0, 30, 26⟩
/-- THM_DIECFG1.HYST [25:21]. -/
def THM_DIECFG1_HYST : Fld := ⟨0x28004, 0x0, 0x0, 25, 21⟩
/-- THM_DIECFG1.HYSS [20:16]. -/
def THM_DIECFG1_HYSS : Fld := ⟨0x28004, 0x0, 0x0, 20, 16⟩
/-- THM_DIECFG1.SHUT [11:0]. -/
def THM_DIECFG1_SHUT : Fld := ⟨0x28004, 0x0, 0x0, 11, 0⟩
/-- THM_STAT.BAND [31:30]. -/
def THM_STAT_BAND : Fld := ⟨0x28008, 0x0, 0x0, 31, 30⟩
/-- THM_STAT.SHED [29:29]. -/
def THM_STAT_SHED : Fld := ⟨0x28008, 0x0, 0x0, 29, 29⟩
/-- THM_STAT.NVALID [15:12]. -/
def THM_STAT_NVALID : Fld := ⟨0x28008, 0x0, 0x0, 15, 12⟩
/-- THM_STAT.DIE [11:0]. -/
def THM_STAT_DIE : Fld := ⟨0x28008, 0x0, 0x0, 11, 0⟩
/-- THM_SRCSTAT.LVL [14:0]. -/
def THM_SRCSTAT_LVL : Fld := ⟨0x2800C, 0x0, 0x0, 14, 0⟩
/-- THM_LEVEL.LEVEL [31:0]. -/
def THM_LEVEL_LEVEL : Fld := ⟨0x28010, 0x0, 0x0, 31, 0⟩
/-- THM_LIMSRC.VALID [31:31]. -/
def THM_LIMSRC_VALID : Fld := ⟨0x28014, 0x0, 0x0, 31, 31⟩
/-- THM_LIMSRC.SRC [8:0]. -/
def THM_LIMSRC_SRC : Fld := ⟨0x28014, 0x0, 0x0, 8, 0⟩
/-- THM_LIMSRC.CELL [9:9]. -/
def THM_LIMSRC_CELL : Fld := ⟨0x28014, 0x0, 0x0, 9, 9⟩
/-- THM_CELLCFG.HYS [23:16]. -/
def THM_CELLCFG_HYS : Fld := ⟨0x28018, 0x0, 0x0, 23, 16⟩
/-- THM_CELLCFG.TOFS [15:8]. -/
def THM_CELLCFG_TOFS : Fld := ⟨0x28018, 0x0, 0x0, 15, 8⟩
/-- THM_CELLCFG.WOFS [7:0]. -/
def THM_CELLCFG_WOFS : Fld := ⟨0x28018, 0x0, 0x0, 7, 0⟩
/-- THM_DIERD.VALID [31:31]. -/
def THM_DIERD_VALID : Fld := ⟨0x28020, 0x4, 0x0, 31, 31⟩
/-- THM_DIERD.T [11:0]. -/
def THM_DIERD_T : Fld := ⟨0x28020, 0x4, 0x0, 11, 0⟩
/-- THM_EXTCFG.EN [31:31]. -/
def THM_EXTCFG_EN : Fld := ⟨0x28040, 0x10, 0x0, 31, 31⟩
/-- THM_EXTCFG.SUB [27:16]. -/
def THM_EXTCFG_SUB : Fld := ⟨0x28040, 0x10, 0x0, 27, 16⟩
/-- THM_EXTCFG.NF [6:0]. -/
def THM_EXTCFG_NF : Fld := ⟨0x28040, 0x10, 0x0, 6, 0⟩
/-- THM_EXTTHR.THROT [27:16]. -/
def THM_EXTTHR_THROT : Fld := ⟨0x28044, 0x10, 0x0, 27, 16⟩
/-- THM_EXTTHR.WARN [11:0]. -/
def THM_EXTTHR_WARN : Fld := ⟨0x28044, 0x10, 0x0, 11, 0⟩
/-- THM_EXTSH.HYSW [30:26]. -/
def THM_EXTSH_HYSW : Fld := ⟨0x28048, 0x10, 0x0, 30, 26⟩
/-- THM_EXTSH.HYST [25:21]. -/
def THM_EXTSH_HYST : Fld := ⟨0x28048, 0x10, 0x0, 25, 21⟩
/-- THM_EXTSH.HYSS [20:16]. -/
def THM_EXTSH_HYSS : Fld := ⟨0x28048, 0x10, 0x0, 20, 16⟩
/-- THM_EXTSH.SHUT [11:0]. -/
def THM_EXTSH_SHUT : Fld := ⟨0x28048, 0x10, 0x0, 11, 0⟩
/-- THM_EXTRD.VALID [31:31]. -/
def THM_EXTRD_VALID : Fld := ⟨0x2804C, 0x10, 0x0, 31, 31⟩
/-- THM_EXTRD.T [11:0]. -/
def THM_EXTRD_T : Fld := ⟨0x2804C, 0x10, 0x0, 11, 0⟩
/-- THM_CELLLVL.LVL [2:0]. -/
def THM_CELLLVL_LVL : Fld := ⟨0x28100, 0x4, 0x0, 2, 0⟩
/-- ADC_CTRL.HKBUFEN [1:1]. -/
def ADC_CTRL_HKBUFEN : Fld := ⟨0x30000, 0x0, 0x0, 1, 1⟩
/-- ADC_CTRL.FBUFEN [0:0]. -/
def ADC_CTRL_FBUFEN : Fld := ⟨0x30000, 0x0, 0x0, 0, 0⟩
/-- ADC_STAT.NS [24:16]. -/
def ADC_STAT_NS : Fld := ⟨0x30004, 0x0, 0x0, 24, 16⟩
/-- ADC_STAT.HKBUSY [1:1]. -/
def ADC_STAT_HKBUSY : Fld := ⟨0x30004, 0x0, 0x0, 1, 1⟩
/-- ADC_STAT.HKPWR [0:0]. -/
def ADC_STAT_HKPWR : Fld := ⟨0x30004, 0x0, 0x0, 0, 0⟩
/-- ADC_FBUFCFG.SIZE [2:0]. -/
def ADC_FBUFCFG_SIZE : Fld := ⟨0x30008, 0x0, 0x0, 2, 0⟩
/-- ADC_FBUFWP.WP [31:0]. -/
def ADC_FBUFWP_WP : Fld := ⟨0x3000C, 0x0, 0x0, 31, 0⟩
/-- ADC_HKBUFCFG.SIZE [2:0]. -/
def ADC_HKBUFCFG_SIZE : Fld := ⟨0x30010, 0x0, 0x0, 2, 0⟩
/-- ADC_HKBUFWP.WP [31:0]. -/
def ADC_HKBUFWP_WP : Fld := ⟨0x30014, 0x0, 0x0, 31, 0⟩
/-- ADC_HKCFG.SCANDIV [31:24]. -/
def ADC_HKCFG_SCANDIV : Fld := ⟨0x30018, 0x0, 0x0, 31, 24⟩
/-- ADC_HKCFG.NENT [21:16]. -/
def ADC_HKCFG_NENT : Fld := ⟨0x30018, 0x0, 0x0, 21, 16⟩
/-- ADC_HKCFG.SCANTO [15:0]. -/
def ADC_HKCFG_SCANTO : Fld := ⟨0x30018, 0x0, 0x0, 15, 0⟩
/-- ADC_TESTCTL.GO [31:31]. -/
def ADC_TESTCTL_GO : Fld := ⟨0x30020, 0x0, 0x0, 31, 31⟩
/-- ADC_TESTCTL.STOP [30:30]. -/
def ADC_TESTCTL_STOP : Fld := ⟨0x30020, 0x0, 0x0, 30, 30⟩
/-- ADC_TESTCTL.HK [29:29]. -/
def ADC_TESTCTL_HK : Fld := ⟨0x30020, 0x0, 0x0, 29, 29⟩
/-- ADC_TESTCTL.CHAN [28:24]. -/
def ADC_TESTCTL_CHAN : Fld := ⟨0x30020, 0x0, 0x0, 28, 24⟩
/-- ADC_TESTCTL.CODE [9:0]. -/
def ADC_TESTCTL_CODE : Fld := ⟨0x30020, 0x0, 0x0, 9, 0⟩
/-- ADC_TESTSTAT.CONN [31:31]. -/
def ADC_TESTSTAT_CONN : Fld := ⟨0x30024, 0x0, 0x0, 31, 31⟩
/-- ADC_TESTSTAT.DONE [30:30]. -/
def ADC_TESTSTAT_DONE : Fld := ⟨0x30024, 0x0, 0x0, 30, 30⟩
/-- ADC_TESTSTAT.PASS [29:29]. -/
def ADC_TESTSTAT_PASS : Fld := ⟨0x30024, 0x0, 0x0, 29, 29⟩
/-- ADC_TESTSTAT.MEAN [15:0]. -/
def ADC_TESTSTAT_MEAN : Fld := ⟨0x30024, 0x0, 0x0, 15, 0⟩
/-- ADC_TESTTOL.TOL [15:0]. -/
def ADC_TESTTOL_TOL : Fld := ⟨0x30028, 0x0, 0x0, 15, 0⟩
/-- ADC_FCFG.FSR [29:28]. -/
def ADC_FCFG_FSR : Fld := ⟨0x30100, 0x20, 0x0, 29, 28⟩
/-- ADC_FCFG.AVG [27:27]. -/
def ADC_FCFG_AVG : Fld := ⟨0x30100, 0x20, 0x0, 27, 27⟩
/-- ADC_FCFG.TO [3:0]. -/
def ADC_FCFG_TO : Fld := ⟨0x30100, 0x20, 0x0, 3, 0⟩
/-- ADC_FOFS.OFFS [15:0]. -/
def ADC_FOFS_OFFS : Fld := ⟨0x30104, 0x20, 0x0, 15, 0⟩
/-- ADC_FSCALE.SCALE [31:0]. -/
def ADC_FSCALE_SCALE : Fld := ⟨0x30108, 0x20, 0x0, 31, 0⟩
/-- ADC_FLIM.MAX [31:16]. -/
def ADC_FLIM_MAX : Fld := ⟨0x3010C, 0x20, 0x0, 31, 16⟩
/-- ADC_FLIM.MIN [15:0]. -/
def ADC_FLIM_MIN : Fld := ⟨0x3010C, 0x20, 0x0, 15, 0⟩
/-- ADC_FSUB.SUB [15:0]. -/
def ADC_FSUB_SUB : Fld := ⟨0x30110, 0x20, 0x0, 15, 0⟩
/-- ADC_FRES.INVALID [31:31]. -/
def ADC_FRES_INVALID : Fld := ⟨0x30114, 0x20, 0x0, 31, 31⟩
/-- ADC_FRES.CLIP [30:30]. -/
def ADC_FRES_CLIP : Fld := ⟨0x30114, 0x20, 0x0, 30, 30⟩
/-- ADC_FRES.CODE [15:0]. -/
def ADC_FRES_CODE : Fld := ⟨0x30114, 0x20, 0x0, 15, 0⟩
/-- ADC_FVAL.VALUE [31:0]. -/
def ADC_FVAL_VALUE : Fld := ⟨0x30118, 0x20, 0x0, 31, 0⟩
/-- ADC_FERR.COUNT [31:0]. -/
def ADC_FERR_COUNT : Fld := ⟨0x3011C, 0x20, 0x0, 31, 0⟩
/-- ADC_HKENT.SETTLE [15:8]. -/
def ADC_HKENT_SETTLE : Fld := ⟨0x30400, 0x4, 0x0, 15, 8⟩
/-- ADC_HKENT.CHAN [4:0]. -/
def ADC_HKENT_CHAN : Fld := ⟨0x30400, 0x4, 0x0, 4, 0⟩
/-- ADC_HCFG.SUB [31:16]. -/
def ADC_HCFG_SUB : Fld := ⟨0x30500, 0x10, 0x0, 31, 16⟩
/-- ADC_HCFG.OFFS [15:4]. -/
def ADC_HCFG_OFFS : Fld := ⟨0x30500, 0x10, 0x0, 15, 4⟩
/-- ADC_HCFG.TO [3:0]. -/
def ADC_HCFG_TO : Fld := ⟨0x30500, 0x10, 0x0, 3, 0⟩
/-- ADC_HSCALE.SCALE [31:0]. -/
def ADC_HSCALE_SCALE : Fld := ⟨0x30504, 0x10, 0x0, 31, 0⟩
/-- ADC_HLIM.MAX [31:16]. -/
def ADC_HLIM_MAX : Fld := ⟨0x30508, 0x10, 0x0, 31, 16⟩
/-- ADC_HLIM.MIN [15:0]. -/
def ADC_HLIM_MIN : Fld := ⟨0x30508, 0x10, 0x0, 15, 0⟩
/-- ADC_HRES.INVALID [31:31]. -/
def ADC_HRES_INVALID : Fld := ⟨0x3050C, 0x10, 0x0, 31, 31⟩
/-- ADC_HRES.CODE [27:16]. -/
def ADC_HRES_CODE : Fld := ⟨0x3050C, 0x10, 0x0, 27, 16⟩
/-- ADC_HRES.VALUE [15:0]. -/
def ADC_HRES_VALUE : Fld := ⟨0x3050C, 0x10, 0x0, 15, 0⟩
/-- CMP_CFG.EN [31:31]. -/
def CMP_CFG_EN : Fld := ⟨0x34100, 0x20, 0x0, 31, 31⟩
/-- CMP_CFG.CHAN [28:24]. -/
def CMP_CFG_CHAN : Fld := ⟨0x34100, 0x20, 0x0, 28, 24⟩
/-- CMP_CFG.HYST [23:22]. -/
def CMP_CFG_HYST : Fld := ⟨0x34100, 0x20, 0x0, 23, 22⟩
/-- CMP_CFG.MAJ [21:20]. -/
def CMP_CFG_MAJ : Fld := ⟨0x34100, 0x20, 0x0, 21, 20⟩
/-- CMP_CFG.SINT [19:12]. -/
def CMP_CFG_SINT : Fld := ⟨0x34100, 0x20, 0x0, 19, 12⟩
/-- CMP_CFG.LATCH [11:10]. -/
def CMP_CFG_LATCH : Fld := ⟨0x34100, 0x20, 0x0, 11, 10⟩
/-- CMP_CFG.INITU [9:9]. -/
def CMP_CFG_INITU : Fld := ⟨0x34100, 0x20, 0x0, 9, 9⟩
/-- CMP_CFG.INITL [8:8]. -/
def CMP_CFG_INITL : Fld := ⟨0x34100, 0x20, 0x0, 8, 8⟩
/-- CMP_CFG.WAKEU [7:7]. -/
def CMP_CFG_WAKEU : Fld := ⟨0x34100, 0x20, 0x0, 7, 7⟩
/-- CMP_CFG.WAKEL [6:6]. -/
def CMP_CFG_WAKEL : Fld := ⟨0x34100, 0x20, 0x0, 6, 6⟩
/-- CMP_THR.UTH [25:16]. -/
def CMP_THR_UTH : Fld := ⟨0x34104, 0x20, 0x0, 25, 16⟩
/-- CMP_THR.LTH [9:0]. -/
def CMP_THR_LTH : Fld := ⟨0x34104, 0x20, 0x0, 9, 0⟩
/-- CMP_STAT.OUTU [31:31]. -/
def CMP_STAT_OUTU : Fld := ⟨0x34108, 0x20, 0x0, 31, 31⟩
/-- CMP_STAT.OUTL [30:30]. -/
def CMP_STAT_OUTL : Fld := ⟨0x34108, 0x20, 0x0, 30, 30⟩
/-- CMP_STAT.RAWU [29:29]. -/
def CMP_STAT_RAWU : Fld := ⟨0x34108, 0x20, 0x0, 29, 29⟩
/-- CMP_STAT.RAWL [28:28]. -/
def CMP_STAT_RAWL : Fld := ⟨0x34108, 0x20, 0x0, 28, 28⟩
/-- CMP_STAT.LATU [1:1]. -/
def CMP_STAT_LATU : Fld := ⟨0x34108, 0x20, 0x0, 1, 1⟩
/-- CMP_STAT.LATL [0:0]. -/
def CMP_STAT_LATL : Fld := ⟨0x34108, 0x20, 0x0, 0, 0⟩
/-- CMP_CAPU.CT [31:0]. -/
def CMP_CAPU_CT : Fld := ⟨0x3410C, 0x20, 0x0, 31, 0⟩
/-- CMP_CAPL.CT [31:0]. -/
def CMP_CAPL_CT : Fld := ⟨0x34110, 0x20, 0x0, 31, 0⟩
/-- CMP_CNT.UCNT [31:16]. -/
def CMP_CNT_UCNT : Fld := ⟨0x34114, 0x20, 0x0, 31, 16⟩
/-- CMP_CNT.LCNT [15:0]. -/
def CMP_CNT_LCNT : Fld := ⟨0x34114, 0x20, 0x0, 15, 0⟩
/-- CMP_AONCFG.EN [7:7]. -/
def CMP_AONCFG_EN : Fld := ⟨0x34800, 0x4, 0x0, 7, 7⟩
/-- CMP_AONCFG.POL [6:6]. -/
def CMP_AONCFG_POL : Fld := ⟨0x34800, 0x4, 0x0, 6, 6⟩
/-- CMP_AONCFG.THR [5:0]. -/
def CMP_AONCFG_THR : Fld := ⟨0x34800, 0x4, 0x0, 5, 0⟩
/-- CMP_AONSTAT.WAKE [8:8]. -/
def CMP_AONSTAT_WAKE : Fld := ⟨0x34810, 0x0, 0x0, 8, 8⟩
/-- CMP_AONSTAT.CAUSE [7:4]. -/
def CMP_AONSTAT_CAUSE : Fld := ⟨0x34810, 0x0, 0x0, 7, 4⟩
/-- CMP_AONSTAT.OUT [3:0]. -/
def CMP_AONSTAT_OUT : Fld := ⟨0x34810, 0x0, 0x0, 3, 0⟩
/-- CMP_WAKECTL.HOLD [0:0]. -/
def CMP_WAKECTL_HOLD : Fld := ⟨0x34814, 0x0, 0x0, 0, 0⟩
/-- CE_CFG.NINST [27:16]. -/
def CE_CFG_NINST : Fld := ⟨0x40000, 0x0, 0x0, 27, 16⟩
/-- CE_CFG.SMODE [0:0]. -/
def CE_CFG_SMODE : Fld := ⟨0x40000, 0x0, 0x0, 0, 0⟩
/-- CE_SCHED.WNEED [31:16]. -/
def CE_SCHED_WNEED : Fld := ⟨0x40004, 0x0, 0x0, 31, 16⟩
/-- CE_SCHED.W [15:0]. -/
def CE_SCHED_W : Fld := ⟨0x40004, 0x0, 0x0, 15, 0⟩
/-- CE_SPATH.STOT [31:16]. -/
def CE_SPATH_STOT : Fld := ⟨0x40008, 0x0, 0x0, 31, 16⟩
/-- CE_SPATH.SB [15:0]. -/
def CE_SPATH_SB : Fld := ⟨0x40008, 0x0, 0x0, 15, 0⟩
/-- CE_DLCNT.COUNT [31:0]. -/
def CE_DLCNT_COUNT : Fld := ⟨0x4000C, 0x0, 0x0, 31, 0⟩
/-- CE_SLACK.MIN [15:0]. -/
def CE_SLACK_MIN : Fld := ⟨0x40010, 0x0, 0x0, 15, 0⟩
/-- CE_SLSTAT.MAXFIN [31:16]. -/
def CE_SLSTAT_MAXFIN : Fld := ⟨0x40020, 0x4, 0x0, 31, 16⟩
/-- CE_SLSTAT.FINISH [15:0]. -/
def CE_SLSTAT_FINISH : Fld := ⟨0x40020, 0x4, 0x0, 15, 0⟩
/-- CE_ECCCNT.COUNT [31:0]. -/
def CE_ECCCNT_COUNT : Fld := ⟨0x40030, 0x0, 0x0, 31, 0⟩
/-- CE_SATCNT.COUNT [31:0]. -/
def CE_SATCNT_COUNT : Fld := ⟨0x40034, 0x0, 0x0, 31, 0⟩
/-- CE_SATLAST.VALID [31:31]. -/
def CE_SATLAST_VALID : Fld := ⟨0x40038, 0x0, 0x0, 31, 31⟩
/-- CE_SATLAST.INST [10:0]. -/
def CE_SATLAST_INST : Fld := ⟨0x40038, 0x0, 0x0, 10, 0⟩
/-- CE_LOOPEN.EN [31:1]. -/
def CE_LOOPEN_EN : Fld := ⟨0x40040, 0x0, 0x0, 31, 1⟩
/-- CE_LOOPEN.CONV [0:0]. -/
def CE_LOOPEN_CONV : Fld := ⟨0x40040, 0x0, 0x0, 0, 0⟩
/-- CE_CLR.SATLAST [1:1]. -/
def CE_CLR_SATLAST : Fld := ⟨0x40044, 0x0, 0x0, 1, 1⟩
/-- CE_CLR.MAXFIN [0:0]. -/
def CE_CLR_MAXFIN : Fld := ⟨0x40044, 0x0, 0x0, 0, 0⟩
/-- CE_ARBCFG.CANDEN [13:8]. -/
def CE_ARBCFG_CANDEN : Fld := ⟨0x40080, 0x0, 0x0, 13, 8⟩
/-- CE_ARBCFG.LEAD [0:0]. -/
def CE_ARBCFG_LEAD : Fld := ⟨0x40080, 0x0, 0x0, 0, 0⟩
/-- CE_ARBSTAT.DIR [4:4]. -/
def CE_ARBSTAT_DIR : Fld := ⟨0x40084, 0x0, 0x0, 4, 4⟩
/-- CE_ARBSTAT.INVALID [3:3]. -/
def CE_ARBSTAT_INVALID : Fld := ⟨0x40084, 0x0, 0x0, 3, 3⟩
/-- CE_ARBSTAT.WIN [2:0]. -/
def CE_ARBSTAT_WIN : Fld := ⟨0x40084, 0x0, 0x0, 2, 0⟩
/-- CE_ARBOUT.PSTAR [31:0]. -/
def CE_ARBOUT_PSTAR : Fld := ⟨0x40088, 0x0, 0x0, 31, 0⟩
/-- CE_ARBCHG.COUNT [31:0]. -/
def CE_ARBCHG_COUNT : Fld := ⟨0x4008C, 0x0, 0x0, 31, 0⟩
/-- CE_SP.VALUE [31:0]. -/
def CE_SP_VALUE : Fld := ⟨0x400C0, 0x4, 0x0, 31, 0⟩
/-- CE_TRCFG.MODE [31:30]. -/
def CE_TRCFG_MODE : Fld := ⟨0x40200, 0x4, 0x0, 31, 30⟩
/-- CE_TRCFG.DEC [27:24]. -/
def CE_TRCFG_DEC : Fld := ⟨0x40200, 0x4, 0x0, 27, 24⟩
/-- CE_TRCFG.CELL [20:12]. -/
def CE_TRCFG_CELL : Fld := ⟨0x40200, 0x4, 0x0, 20, 12⟩
/-- CE_TRCFG.SRC [11:0]. -/
def CE_TRCFG_SRC : Fld := ⟨0x40200, 0x4, 0x0, 11, 0⟩
/-- CE_TRCTRL.STOP [31:16]. -/
def CE_TRCTRL_STOP : Fld := ⟨0x40240, 0x0, 0x0, 31, 16⟩
/-- CE_TRCTRL.ARM [15:0]. -/
def CE_TRCTRL_ARM : Fld := ⟨0x40240, 0x0, 0x0, 15, 0⟩
/-- CE_TRTRIG.SW [31:31]. -/
def CE_TRTRIG_SW : Fld := ⟨0x40244, 0x0, 0x0, 31, 31⟩
/-- CE_TRTRIG.PRE [27:20]. -/
def CE_TRTRIG_PRE : Fld := ⟨0x40244, 0x0, 0x0, 27, 20⟩
/-- CE_TRTRIG.SRC [11:10]. -/
def CE_TRTRIG_SRC : Fld := ⟨0x40244, 0x0, 0x0, 11, 10⟩
/-- CE_TRTRIG.EV [9:0]. -/
def CE_TRTRIG_EV : Fld := ⟨0x40244, 0x0, 0x0, 9, 0⟩
/-- CE_TRSTAT.STATE [31:30]. -/
def CE_TRSTAT_STATE : Fld := ⟨0x40280, 0x4, 0x0, 31, 30⟩
/-- CE_TRSTAT.LOST [29:29]. -/
def CE_TRSTAT_LOST : Fld := ⟨0x40280, 0x4, 0x0, 29, 29⟩
/-- CE_TRSTAT.WRPTR [15:0]. -/
def CE_TRSTAT_WRPTR : Fld := ⟨0x40280, 0x4, 0x0, 15, 0⟩
/-- CE_TRSEL.CHAN [19:16]. -/
def CE_TRSEL_CHAN : Fld := ⟨0x402C0, 0x0, 0x0, 19, 16⟩
/-- CE_TRSEL.BLOCK [7:0]. -/
def CE_TRSEL_BLOCK : Fld := ⟨0x402C0, 0x0, 0x0, 7, 0⟩
/-- CE_TRPER.PERIOD [31:0]. -/
def CE_TRPER_PERIOD : Fld := ⟨0x402C4, 0x0, 0x0, 31, 0⟩
/-- CE_OUT.WORD [31:0]. -/
def CE_OUT_WORD : Fld := ⟨0x41000, 0x4, 0x0, 31, 0⟩
/-- CE_TRWIN.WORD [31:0]. -/
def CE_TRWIN_WORD : Fld := ⟨0x43000, 0x4, 0x0, 31, 0⟩
/-- CE_COEF.WORD [31:0]. -/
def CE_COEF_WORD : Fld := ⟨0x44000, 0x4, 0x0, 31, 0⟩
/-- CE_INSTR.WORD [31:0]. -/
def CE_INSTR_WORD : Fld := ⟨0x48000, 0x30, 0x4, 31, 0⟩
/-- CE_INSTW.WORD [31:0]. -/
def CE_INSTW_WORD : Fld := ⟨0x4800C, 0x30, 0x4, 31, 0⟩
/-- MVS_CFG.NETPH [2:2]. -/
def MVS_CFG_NETPH : Fld := ⟨0x60000, 0x0, 0x0, 2, 2⟩
/-- MVS_CFG.RESPACE [1:1]. -/
def MVS_CFG_RESPACE : Fld := ⟨0x60000, 0x0, 0x0, 1, 1⟩
/-- MVS_CFG.BLKCOMP [0:0]. -/
def MVS_CFG_BLKCOMP : Fld := ⟨0x60000, 0x0, 0x0, 0, 0⟩
/-- MVS_STOP.STOPN [31:16]. -/
def MVS_STOP_STOPN : Fld := ⟨0x60004, 0x0, 0x0, 31, 16⟩
/-- MVS_STOP.ISTOP [15:0]. -/
def MVS_STOP_ISTOP : Fld := ⟨0x60004, 0x0, 0x0, 15, 0⟩
/-- MVS_NETOFS.OFS [15:0]. -/
def MVS_NETOFS_OFS : Fld := ⟨0x60008, 0x0, 0x0, 15, 0⟩
/-- MVS_STAT.STOPPING [1:1]. -/
def MVS_STAT_STOPPING : Fld := ⟨0x6000C, 0x0, 0x0, 1, 1⟩
/-- MVS_STAT.NETLOCK [0:0]. -/
def MVS_STAT_NETLOCK : Fld := ⟨0x6000C, 0x0, 0x0, 0, 0⟩
/-- MVS_GCFG.VTMAX [31:16]. -/
def MVS_GCFG_VTMAX : Fld := ⟨0x60020, 0x4, 0x0, 31, 16⟩
/-- MVS_GCFG.VRISE [15:15]. -/
def MVS_GCFG_VRISE : Fld := ⟨0x60020, 0x4, 0x0, 15, 15⟩
/-- MVS_GCFG.NREF [14:8]. -/
def MVS_GCFG_NREF : Fld := ⟨0x60020, 0x4, 0x0, 14, 8⟩
/-- MVS_GCFG.TSTEP [7:0]. -/
def MVS_GCFG_TSTEP : Fld := ⟨0x60020, 0x4, 0x0, 7, 0⟩
/-- MVS_GSTAT.PWMCELL [31:23]. -/
def MVS_GSTAT_PWMCELL : Fld := ⟨0x60040, 0x4, 0x0, 31, 23⟩
/-- MVS_GSTAT.PWMV [22:22]. -/
def MVS_GSTAT_PWMV : Fld := ⟨0x60040, 0x4, 0x0, 22, 22⟩
/-- MVS_GSTAT.OVM [21:21]. -/
def MVS_GSTAT_OVM : Fld := ⟨0x60040, 0x4, 0x0, 21, 21⟩
/-- MVS_GSTAT.DIR [20:20]. -/
def MVS_GSTAT_DIR : Fld := ⟨0x60040, 0x4, 0x0, 20, 20⟩
/-- MVS_GSTAT.POL [19:19]. -/
def MVS_GSTAT_POL : Fld := ⟨0x60040, 0x4, 0x0, 19, 19⟩
/-- MVS_GSTAT.NFULL [14:8]. -/
def MVS_GSTAT_NFULL : Fld := ⟨0x60040, 0x4, 0x0, 14, 8⟩
/-- MVS_GSTAT.NINS [6:0]. -/
def MVS_GSTAT_NINS : Fld := ⟨0x60040, 0x4, 0x0, 6, 0⟩
/-- MVS_GTGT.TGT [15:0]. -/
def MVS_GTGT_TGT : Fld := ⟨0x60060, 0x4, 0x0, 15, 0⟩
/-- MVS_SWCNT.COUNT [31:0]. -/
def MVS_SWCNT_COUNT : Fld := ⟨0x60080, 0x4, 0x0, 31, 0⟩
/-- MVS_CELL.DUTY [31:16]. -/
def MVS_CELL_DUTY : Fld := ⟨0x61000, 0x4, 0x0, 31, 16⟩
/-- MVS_CELL.INS [15:14]. -/
def MVS_CELL_INS : Fld := ⟨0x61000, 0x4, 0x0, 15, 14⟩
/-- MVS_CELL.STICKY [13:13]. -/
def MVS_CELL_STICKY : Fld := ⟨0x61000, 0x4, 0x0, 13, 13⟩
/-- MVS_CELL.COMP [12:12]. -/
def MVS_CELL_COMP : Fld := ⟨0x61000, 0x4, 0x0, 12, 12⟩
/-- MVS_CELL.RANK [8:0]. -/
def MVS_CELL_RANK : Fld := ⟨0x61000, 0x4, 0x0, 8, 0⟩
/-- ISO_CFG.PRESRC [2:2]. -/
def ISO_CFG_PRESRC : Fld := ⟨0x70000, 0x0, 0x0, 2, 2⟩
/-- ISO_CFG.THEN [1:1]. -/
def ISO_CFG_THEN : Fld := ⟨0x70000, 0x0, 0x0, 1, 1⟩
/-- ISO_CFG.BALEN [0:0]. -/
def ISO_CFG_BALEN : Fld := ⟨0x70000, 0x0, 0x0, 0, 0⟩
/-- ISO_LIM.PHMAX [31:16]. -/
def ISO_LIM_PHMAX : Fld := ⟨0x70004, 0x0, 0x0, 31, 16⟩
/-- ISO_LIM.PMAX [15:0]. -/
def ISO_LIM_PMAX : Fld := ⟨0x70004, 0x0, 0x0, 15, 0⟩
/-- ISO_PRE.PPRE [31:16]. -/
def ISO_PRE_PPRE : Fld := ⟨0x70008, 0x0, 0x0, 31, 16⟩
/-- ISO_PRE.VMIN [15:0]. -/
def ISO_PRE_VMIN : Fld := ⟨0x70008, 0x0, 0x0, 15, 0⟩
/-- ISO_THM.THMAX [15:0]. -/
def ISO_THM_THMAX : Fld := ⟨0x7000C, 0x0, 0x0, 15, 0⟩
/-- ISO_MON.FMAX [31:16]. -/
def ISO_MON_FMAX : Fld := ⟨0x70010, 0x0, 0x0, 31, 16⟩
/-- ISO_MON.ZVSN [15:8]. -/
def ISO_MON_ZVSN : Fld := ⟨0x70010, 0x0, 0x0, 15, 8⟩
/-- ISO_MON.IZVS [7:0]. -/
def ISO_MON_IZVS : Fld := ⟨0x70010, 0x0, 0x0, 7, 0⟩
/-- ISO_STAT.PSUM [31:16]. -/
def ISO_STAT_PSUM : Fld := ⟨0x70020, 0x0, 0x0, 31, 16⟩
/-- ISO_STAT.SAT [2:2]. -/
def ISO_STAT_SAT : Fld := ⟨0x70020, 0x0, 0x0, 2, 2⟩
/-- ISO_STAT.PRECH [1:1]. -/
def ISO_STAT_PRECH : Fld := ⟨0x70020, 0x0, 0x0, 1, 1⟩
/-- ISO_STAT.DIR [0:0]. -/
def ISO_STAT_DIR : Fld := ⟨0x70020, 0x0, 0x0, 0, 0⟩
/-- ISO_REVCNT.COUNT [31:0]. -/
def ISO_REVCNT_COUNT : Fld := ⟨0x70024, 0x0, 0x0, 31, 0⟩
/-- ISO_GSTAT.NSAT [31:24]. -/
def ISO_GSTAT_NSAT : Fld := ⟨0x70040, 0x4, 0x0, 31, 24⟩
/-- ISO_GSTAT.NZVS [23:16]. -/
def ISO_GSTAT_NZVS : Fld := ⟨0x70040, 0x4, 0x0, 23, 16⟩
/-- ISO_GSTAT.SHORT [15:0]. -/
def ISO_GSTAT_SHORT : Fld := ⟨0x70040, 0x4, 0x0, 15, 0⟩
/-- ISO_CELL0.PCMD [31:16]. -/
def ISO_CELL0_PCMD : Fld := ⟨0x71000, 0x8, 0x0, 31, 16⟩
/-- ISO_CELL0.DELTA [15:0]. -/
def ISO_CELL0_DELTA : Fld := ⟨0x71000, 0x8, 0x0, 15, 0⟩
/-- ISO_CELL1.CM [31:16]. -/
def ISO_CELL1_CM : Fld := ⟨0x71004, 0x8, 0x0, 31, 16⟩
/-- ISO_CELL1.ZVSS [10:10]. -/
def ISO_CELL1_ZVSS : Fld := ⟨0x71004, 0x8, 0x0, 10, 10⟩
/-- ISO_CELL1.ZVSP [9:9]. -/
def ISO_CELL1_ZVSP : Fld := ⟨0x71004, 0x8, 0x0, 9, 9⟩
/-- ISO_CELL1.SAT [8:8]. -/
def ISO_CELL1_SAT : Fld := ⟨0x71004, 0x8, 0x0, 8, 8⟩
/-- ISO_CELL1.REG2 [7:7]. -/
def ISO_CELL1_REG2 : Fld := ⟨0x71004, 0x8, 0x0, 7, 7⟩
/-- ISO_CELL1.HISEC [6:6]. -/
def ISO_CELL1_HISEC : Fld := ⟨0x71004, 0x8, 0x0, 6, 6⟩
/-- LVS_GCFG.SHOOTN [31:28]. -/
def LVS_GCFG_SHOOTN : Fld := ⟨0x80000, 0x0, 0x0, 31, 28⟩
/-- LVS_GCFG.VBSRC [23:12]. -/
def LVS_GCFG_VBSRC : Fld := ⟨0x80000, 0x0, 0x0, 23, 12⟩
/-- LVS_GCFG.DTMIN [11:0]. -/
def LVS_GCFG_DTMIN : Fld := ⟨0x80000, 0x0, 0x0, 11, 0⟩
/-- LVS_STAT.BAND [31:30]. -/
def LVS_STAT_BAND : Fld := ⟨0x80004, 0x0, 0x0, 31, 30⟩
/-- LVS_STAT.INVALID [29:29]. -/
def LVS_STAT_INVALID : Fld := ⟨0x80004, 0x0, 0x0, 29, 29⟩
/-- LVS_STAT.FORCED [28:28]. -/
def LVS_STAT_FORCED : Fld := ⟨0x80004, 0x0, 0x0, 28, 28⟩
/-- LVS_STAT.LOW [17:0]. -/
def LVS_STAT_LOW : Fld := ⟨0x80004, 0x0, 0x0, 17, 0⟩
/-- LVS_FORCE0.FL0 [3:2]. -/
def LVS_FORCE0_FL0 : Fld := ⟨0x80010, 0x0, 0x0, 3, 2⟩
/-- LVS_FORCE0.FL1 [7:6]. -/
def LVS_FORCE0_FL1 : Fld := ⟨0x80010, 0x0, 0x0, 7, 6⟩
/-- LVS_FORCE0.FL2 [11:10]. -/
def LVS_FORCE0_FL2 : Fld := ⟨0x80010, 0x0, 0x0, 11, 10⟩
/-- LVS_FORCE0.FL3 [15:14]. -/
def LVS_FORCE0_FL3 : Fld := ⟨0x80010, 0x0, 0x0, 15, 14⟩
/-- LVS_FORCE0.FL4 [19:18]. -/
def LVS_FORCE0_FL4 : Fld := ⟨0x80010, 0x0, 0x0, 19, 18⟩
/-- LVS_FORCE0.FL5 [23:22]. -/
def LVS_FORCE0_FL5 : Fld := ⟨0x80010, 0x0, 0x0, 23, 22⟩
/-- LVS_FORCE0.FL6 [27:26]. -/
def LVS_FORCE0_FL6 : Fld := ⟨0x80010, 0x0, 0x0, 27, 26⟩
/-- LVS_FORCE0.FL7 [31:30]. -/
def LVS_FORCE0_FL7 : Fld := ⟨0x80010, 0x0, 0x0, 31, 30⟩
/-- LVS_FORCE0.FH0 [1:0]. -/
def LVS_FORCE0_FH0 : Fld := ⟨0x80010, 0x0, 0x0, 1, 0⟩
/-- LVS_FORCE0.FH1 [5:4]. -/
def LVS_FORCE0_FH1 : Fld := ⟨0x80010, 0x0, 0x0, 5, 4⟩
/-- LVS_FORCE0.FH2 [9:8]. -/
def LVS_FORCE0_FH2 : Fld := ⟨0x80010, 0x0, 0x0, 9, 8⟩
/-- LVS_FORCE0.FH3 [13:12]. -/
def LVS_FORCE0_FH3 : Fld := ⟨0x80010, 0x0, 0x0, 13, 12⟩
/-- LVS_FORCE0.FH4 [17:16]. -/
def LVS_FORCE0_FH4 : Fld := ⟨0x80010, 0x0, 0x0, 17, 16⟩
/-- LVS_FORCE0.FH5 [21:20]. -/
def LVS_FORCE0_FH5 : Fld := ⟨0x80010, 0x0, 0x0, 21, 20⟩
/-- LVS_FORCE0.FH6 [25:24]. -/
def LVS_FORCE0_FH6 : Fld := ⟨0x80010, 0x0, 0x0, 25, 24⟩
/-- LVS_FORCE0.FH7 [29:28]. -/
def LVS_FORCE0_FH7 : Fld := ⟨0x80010, 0x0, 0x0, 29, 28⟩
/-- LVS_FORCE1.FL0 [3:2]. -/
def LVS_FORCE1_FL0 : Fld := ⟨0x80014, 0x0, 0x0, 3, 2⟩
/-- LVS_FORCE1.FL1 [7:6]. -/
def LVS_FORCE1_FL1 : Fld := ⟨0x80014, 0x0, 0x0, 7, 6⟩
/-- LVS_FORCE1.FL2 [11:10]. -/
def LVS_FORCE1_FL2 : Fld := ⟨0x80014, 0x0, 0x0, 11, 10⟩
/-- LVS_FORCE1.FL3 [15:14]. -/
def LVS_FORCE1_FL3 : Fld := ⟨0x80014, 0x0, 0x0, 15, 14⟩
/-- LVS_FORCE1.FL4 [19:18]. -/
def LVS_FORCE1_FL4 : Fld := ⟨0x80014, 0x0, 0x0, 19, 18⟩
/-- LVS_FORCE1.FL5 [23:22]. -/
def LVS_FORCE1_FL5 : Fld := ⟨0x80014, 0x0, 0x0, 23, 22⟩
/-- LVS_FORCE1.FL6 [27:26]. -/
def LVS_FORCE1_FL6 : Fld := ⟨0x80014, 0x0, 0x0, 27, 26⟩
/-- LVS_FORCE1.FL7 [31:30]. -/
def LVS_FORCE1_FL7 : Fld := ⟨0x80014, 0x0, 0x0, 31, 30⟩
/-- LVS_FORCE1.FH0 [1:0]. -/
def LVS_FORCE1_FH0 : Fld := ⟨0x80014, 0x0, 0x0, 1, 0⟩
/-- LVS_FORCE1.FH1 [5:4]. -/
def LVS_FORCE1_FH1 : Fld := ⟨0x80014, 0x0, 0x0, 5, 4⟩
/-- LVS_FORCE1.FH2 [9:8]. -/
def LVS_FORCE1_FH2 : Fld := ⟨0x80014, 0x0, 0x0, 9, 8⟩
/-- LVS_FORCE1.FH3 [13:12]. -/
def LVS_FORCE1_FH3 : Fld := ⟨0x80014, 0x0, 0x0, 13, 12⟩
/-- LVS_FORCE1.FH4 [17:16]. -/
def LVS_FORCE1_FH4 : Fld := ⟨0x80014, 0x0, 0x0, 17, 16⟩
/-- LVS_FORCE1.FH5 [21:20]. -/
def LVS_FORCE1_FH5 : Fld := ⟨0x80014, 0x0, 0x0, 21, 20⟩
/-- LVS_FORCE1.FH6 [25:24]. -/
def LVS_FORCE1_FH6 : Fld := ⟨0x80014, 0x0, 0x0, 25, 24⟩
/-- LVS_FORCE1.FH7 [29:28]. -/
def LVS_FORCE1_FH7 : Fld := ⟨0x80014, 0x0, 0x0, 29, 28⟩
/-- LVS_FORCE2.F1 [3:2]. -/
def LVS_FORCE2_F1 : Fld := ⟨0x80018, 0x0, 0x0, 3, 2⟩
/-- LVS_FORCE2.F0 [1:0]. -/
def LVS_FORCE2_F0 : Fld := ⟨0x80018, 0x0, 0x0, 1, 0⟩
/-- LVS_FORCEGO.RELEASE [1:1]. -/
def LVS_FORCEGO_RELEASE : Fld := ⟨0x8001C, 0x0, 0x0, 1, 1⟩
/-- LVS_FORCEGO.GO [0:0]. -/
def LVS_FORCEGO_GO : Fld := ⟨0x8001C, 0x0, 0x0, 0, 0⟩
/-- LVS_TRIPCFG.EN [31:31]. -/
def LVS_TRIPCFG_EN : Fld := ⟨0x80040, 0x4, 0x0, 31, 31⟩
/-- LVS_TRIPCFG.FILT [19:8]. -/
def LVS_TRIPCFG_FILT : Fld := ⟨0x80040, 0x4, 0x0, 19, 8⟩
/-- LVS_TRIPCFG.SRC [7:0]. -/
def LVS_TRIPCFG_SRC : Fld := ⟨0x80040, 0x4, 0x0, 7, 0⟩
/-- LVS_TRIPSCOPE.SCOPE [17:0]. -/
def LVS_TRIPSCOPE_SCOPE : Fld := ⟨0x80060, 0x4, 0x0, 17, 0⟩
/-- LVS_TRIPSTAT.TRIP_CLR_REJ [23:16]. -/
def LVS_TRIPSTAT_TRIP_CLR_REJ : Fld := ⟨0x80080, 0x0, 0x0, 23, 16⟩
/-- LVS_TRIPSTAT.LATCHED [15:8]. -/
def LVS_TRIPSTAT_LATCHED : Fld := ⟨0x80080, 0x0, 0x0, 15, 8⟩
/-- LVS_TRIPSTAT.ACTIVE [7:0]. -/
def LVS_TRIPSTAT_ACTIVE : Fld := ⟨0x80080, 0x0, 0x0, 7, 0⟩
/-- LVS_TRIPSW.LINE [7:0]. -/
def LVS_TRIPSW_LINE : Fld := ⟨0x80084, 0x0, 0x0, 7, 0⟩
/-- LVS_USE.LOOP [21:17]. -/
def LVS_USE_LOOP : Fld := ⟨0x800A0, 0x4, 0x0, 21, 17⟩
/-- LVS_USE.DMODE [12:12]. -/
def LVS_USE_DMODE : Fld := ⟨0x800A0, 0x4, 0x0, 12, 12⟩
/-- LVS_USE.SRC [11:0]. -/
def LVS_USE_SRC : Fld := ⟨0x800A0, 0x4, 0x0, 11, 0⟩
/-- LVS_CHOPCFG.MODE [31:30]. -/
def LVS_CHOPCFG_MODE : Fld := ⟨0x800C0, 0x4, 0x0, 31, 30⟩
/-- LVS_CHOPCFG.WIN [27:24]. -/
def LVS_CHOPCFG_WIN : Fld := ⟨0x800C0, 0x4, 0x0, 27, 24⟩
/-- LVS_CHOPCFG.TONMIN [23:12]. -/
def LVS_CHOPCFG_TONMIN : Fld := ⟨0x800C0, 0x4, 0x0, 23, 12⟩
/-- LVS_CHOPCFG.SRC [11:0]. -/
def LVS_CHOPCFG_SRC : Fld := ⟨0x800C0, 0x4, 0x0, 11, 0⟩
/-- LVS_CHOPTAU.TAU [15:0]. -/
def LVS_CHOPTAU_TAU : Fld := ⟨0x800C8, 0x0, 0x0, 15, 0⟩
/-- LVS_CHOPE.E [31:0]. -/
def LVS_CHOPE_E : Fld := ⟨0x800D0, 0x4, 0x0, 31, 0⟩
/-- LVS_CFG.HOSTCTL [31:31]. -/
def LVS_CFG_HOSTCTL : Fld := ⟨0x80100, 0x20, 0x0, 31, 31⟩
/-- LVS_CFG.TRIMSRC [11:0]. -/
def LVS_CFG_TRIMSRC : Fld := ⟨0x80100, 0x20, 0x0, 11, 0⟩
/-- LVS_PER.PER [19:0]. -/
def LVS_PER_PER : Fld := ⟨0x80104, 0x20, 0x0, 19, 0⟩
/-- LVS_CMP.CMP [19:0]. -/
def LVS_CMP_CMP : Fld := ⟨0x80108, 0x20, 0x0, 19, 0⟩
/-- LVS_OFS.OFS [19:0]. -/
def LVS_OFS_OFS : Fld := ⟨0x8010C, 0x20, 0x0, 19, 0⟩
/-- LVS_DT.DR [27:16]. -/
def LVS_DT_DR : Fld := ⟨0x80110, 0x20, 0x0, 27, 16⟩
/-- LVS_DT.DF [11:0]. -/
def LVS_DT_DF : Fld := ⟨0x80110, 0x20, 0x0, 11, 0⟩
/-- LVS_PWM_STAT.SHOOTCNT [11:8]. -/
def LVS_PWM_STAT_SHOOTCNT : Fld := ⟨0x80114, 0x20, 0x0, 11, 8⟩
/-- LVS_PWM_STAT.FORCE [7:4]. -/
def LVS_PWM_STAT_FORCE : Fld := ⟨0x80114, 0x20, 0x0, 7, 4⟩
/-- LVS_PWM_STAT.TRIPPED [3:3]. -/
def LVS_PWM_STAT_TRIPPED : Fld := ⟨0x80114, 0x20, 0x0, 3, 3⟩
/-- LVS_PWM_STAT.HIGHNOW [2:2]. -/
def LVS_PWM_STAT_HIGHNOW : Fld := ⟨0x80114, 0x20, 0x0, 2, 2⟩
/-- LVS_PWM_STAT.SHOOT_REJ [1:1]. -/
def LVS_PWM_STAT_SHOOT_REJ : Fld := ⟨0x80114, 0x20, 0x0, 1, 1⟩
/-- LVS_PWM_STAT.LATE [0:0]. -/
def LVS_PWM_STAT_LATE : Fld := ⟨0x80114, 0x20, 0x0, 0, 0⟩
/-- LVS_REJCNT.COUNT [31:0]. -/
def LVS_REJCNT_COUNT : Fld := ⟨0x80118, 0x20, 0x0, 31, 0⟩
/-- LVS_DTB.DR [27:16]. -/
def LVS_DTB_DR : Fld := ⟨0x80400, 0x40, 0x4, 27, 16⟩
/-- LVS_DTB.DF [11:0]. -/
def LVS_DTB_DF : Fld := ⟨0x80400, 0x40, 0x4, 11, 0⟩
/-- GDI_CFG.IBUSCH [28:24]. -/
def GDI_CFG_IBUSCH : Fld := ⟨0x88000, 0x0, 0x0, 28, 24⟩
/-- GDI_CFG.IBUSLINE [22:20]. -/
def GDI_CFG_IBUSLINE : Fld := ⟨0x88000, 0x0, 0x0, 22, 20⟩
/-- GDI_CFG.IBUSWIN [19:16]. -/
def GDI_CFG_IBUSWIN : Fld := ⟨0x88000, 0x0, 0x0, 19, 16⟩
/-- GDI_CFG.SOFTHOLD [11:0]. -/
def GDI_CFG_SOFTHOLD : Fld := ⟨0x88000, 0x0, 0x0, 11, 0⟩
/-- GDI_FLT.READYLOW [31:16]. -/
def GDI_FLT_READYLOW : Fld := ⟨0x88010, 0x0, 0x0, 31, 16⟩
/-- GDI_FLT.LATCHED [15:0]. -/
def GDI_FLT_LATCHED : Fld := ⟨0x88010, 0x0, 0x0, 15, 0⟩
/-- GDI_CLRSTAT.SHOOT [31:16]. -/
def GDI_CLRSTAT_SHOOT : Fld := ⟨0x88014, 0x0, 0x0, 31, 16⟩
/-- GDI_CLRSTAT.FAULT [15:0]. -/
def GDI_CLRSTAT_FAULT : Fld := ⟨0x88014, 0x0, 0x0, 15, 0⟩
/-- GDI_HOLD.ACTIVE [31:31]. -/
def GDI_HOLD_ACTIVE : Fld := ⟨0x88018, 0x0, 0x0, 31, 31⟩
/-- GDI_HOLD.MEMBERS [15:0]. -/
def GDI_HOLD_MEMBERS : Fld := ⟨0x88018, 0x0, 0x0, 15, 0⟩
/-- GDI_HOLDREL.RELEASE [31:0]. -/
def GDI_HOLDREL_RELEASE : Fld := ⟨0x8801C, 0x0, 0x0, 31, 0⟩
/-- GDI_FIRST.VALID [31:31]. -/
def GDI_FIRST_VALID : Fld := ⟨0x88020, 0x0, 0x0, 31, 31⟩
/-- GDI_FIRST.CLASS [11:8]. -/
def GDI_FIRST_CLASS : Fld := ⟨0x88020, 0x0, 0x0, 11, 8⟩
/-- GDI_FIRST.INDEX [7:0]. -/
def GDI_FIRST_INDEX : Fld := ⟨0x88020, 0x0, 0x0, 7, 0⟩
/-- GDI_CTCNT.CT [31:0]. -/
def GDI_CTCNT_CT : Fld := ⟨0x88024, 0x0, 0x0, 31, 0⟩
/-- GDI_PUCFG.PPM1 [31:28]. -/
def GDI_PUCFG_PPM1 : Fld := ⟨0x88040, 0x0, 0x0, 31, 28⟩
/-- GDI_PUCFG.DIR [27:27]. -/
def GDI_PUCFG_DIR : Fld := ⟨0x88040, 0x0, 0x0, 27, 27⟩
/-- GDI_PUCFG.HALLOFS [26:24]. -/
def GDI_PUCFG_HALLOFS : Fld := ⟨0x88040, 0x0, 0x0, 26, 24⟩
/-- GDI_PUCFG.PUDT [23:12]. -/
def GDI_PUCFG_PUDT : Fld := ⟨0x88040, 0x0, 0x0, 23, 12⟩
/-- GDI_PUCFG.HFILT [11:0]. -/
def GDI_PUCFG_HFILT : Fld := ⟨0x88040, 0x0, 0x0, 11, 0⟩
/-- GDI_PUPWM.DMAX [31:16]. -/
def GDI_PUPWM_DMAX : Fld := ⟨0x88044, 0x0, 0x0, 31, 16⟩
/-- GDI_PUPWM.PER [15:0]. -/
def GDI_PUPWM_PER : Fld := ⟨0x88044, 0x0, 0x0, 15, 0⟩
/-- GDI_PUSRC.SRC [11:0]. -/
def GDI_PUSRC_SRC : Fld := ⟨0x88048, 0x0, 0x0, 11, 0⟩
/-- GDI_PUSTART.SPDOK [31:16]. -/
def GDI_PUSTART_SPDOK : Fld := ⟨0x8804C, 0x0, 0x0, 31, 16⟩
/-- GDI_PUSTART.STARTHOLD [15:8]. -/
def GDI_PUSTART_STARTHOLD : Fld := ⟨0x8804C, 0x0, 0x0, 15, 8⟩
/-- GDI_PUSTART.STARTTO [7:0]. -/
def GDI_PUSTART_STARTTO : Fld := ⟨0x8804C, 0x0, 0x0, 7, 0⟩
/-- GDI_PUTIM.TBOOT [31:24]. -/
def GDI_PUTIM_TBOOT : Fld := ⟨0x88050, 0x0, 0x0, 31, 24⟩
/-- GDI_PUTIM.DIAGSET [23:16]. -/
def GDI_PUTIM_DIAGSET : Fld := ⟨0x88050, 0x0, 0x0, 23, 16⟩
/-- GDI_PUTIM.STALLTO [15:8]. -/
def GDI_PUTIM_STALLTO : Fld := ⟨0x88050, 0x0, 0x0, 15, 8⟩
/-- GDI_PUTIM.HALLTO [7:0]. -/
def GDI_PUTIM_HALLTO : Fld := ⟨0x88050, 0x0, 0x0, 7, 0⟩
/-- GDI_PUVLIM0.OVLIM [25:16]. -/
def GDI_PUVLIM0_OVLIM : Fld := ⟨0x88054, 0x0, 0x0, 25, 16⟩
/-- GDI_PUVLIM0.UVLIM [9:0]. -/
def GDI_PUVLIM0_UVLIM : Fld := ⟨0x88054, 0x0, 0x0, 9, 0⟩
/-- GDI_PUVLIM1.BRKON [25:16]. -/
def GDI_PUVLIM1_BRKON : Fld := ⟨0x88058, 0x0, 0x0, 25, 16⟩
/-- GDI_PUVLIM1.BRKOFF [9:0]. -/
def GDI_PUVLIM1_BRKOFF : Fld := ⟨0x88058, 0x0, 0x0, 9, 0⟩
/-- GDI_PUOC.OCN [31:24]. -/
def GDI_PUOC_OCN : Fld := ⟨0x8805C, 0x0, 0x0, 31, 24⟩
/-- GDI_PUOC.BRKMAX [23:16]. -/
def GDI_PUOC_BRKMAX : Fld := ⟨0x8805C, 0x0, 0x0, 23, 16⟩
/-- GDI_PUOC.ILIM [7:0]. -/
def GDI_PUOC_ILIM : Fld := ⟨0x8805C, 0x0, 0x0, 7, 0⟩
/-- GDI_PUCTRL.CMD [1:0]. -/
def GDI_PUCTRL_CMD : Fld := ⟨0x88060, 0x0, 0x0, 1, 0⟩
/-- GDI_PUSTAT.STATE [31:28]. -/
def GDI_PUSTAT_STATE : Fld := ⟨0x88064, 0x0, 0x0, 31, 28⟩
/-- GDI_PUSTAT.LASTFAULT [27:24]. -/
def GDI_PUSTAT_LASTFAULT : Fld := ⟨0x88064, 0x0, 0x0, 27, 24⟩
/-- GDI_PUSTAT.HALL [23:21]. -/
def GDI_PUSTAT_HALL : Fld := ⟨0x88064, 0x0, 0x0, 23, 21⟩
/-- GDI_PUSTAT.BRK [20:20]. -/
def GDI_PUSTAT_BRK : Fld := ⟨0x88064, 0x0, 0x0, 20, 20⟩
/-- GDI_PUSTAT.HALLERR [19:16]. -/
def GDI_PUSTAT_HALLERR : Fld := ⟨0x88064, 0x0, 0x0, 19, 16⟩
/-- GDI_PUSTAT.SPEED [15:0]. -/
def GDI_PUSTAT_SPEED : Fld := ⟨0x88064, 0x0, 0x0, 15, 0⟩
/-- GDI_PUVM.VM [9:0]. -/
def GDI_PUVM_VM : Fld := ⟨0x88068, 0x0, 0x0, 9, 0⟩
/-- GDI_PUDIAG.MARKS [13:11]. -/
def GDI_PUDIAG_MARKS : Fld := ⟨0x8806C, 0x0, 0x0, 13, 11⟩
/-- GDI_PUDIAG.GND [10:8]. -/
def GDI_PUDIAG_GND : Fld := ⟨0x8806C, 0x0, 0x0, 10, 8⟩
/-- GDI_PUDIAG.SUP [7:5]. -/
def GDI_PUDIAG_SUP : Fld := ⟨0x8806C, 0x0, 0x0, 7, 5⟩
/-- GDI_PUDIAG.PASS [4:0]. -/
def GDI_PUDIAG_PASS : Fld := ⟨0x8806C, 0x0, 0x0, 4, 0⟩
/-- GDI_RETRYCFG.CLEAN [23:16]. -/
def GDI_RETRYCFG_CLEAN : Fld := ⟨0x88080, 0x4, 0x0, 23, 16⟩
/-- GDI_RETRYCFG.WAIT [15:8]. -/
def GDI_RETRYCFG_WAIT : Fld := ⟨0x88080, 0x4, 0x0, 15, 8⟩
/-- GDI_RETRYCFG.TRIES [3:0]. -/
def GDI_RETRYCFG_TRIES : Fld := ⟨0x88080, 0x4, 0x0, 3, 0⟩
/-- GDI_RETRYSTAT.LATCHED [31:31]. -/
def GDI_RETRYSTAT_LATCHED : Fld := ⟨0x88090, 0x4, 0x0, 31, 31⟩
/-- GDI_RETRYSTAT.CLR_REJ [30:30]. -/
def GDI_RETRYSTAT_CLR_REJ : Fld := ⟨0x88090, 0x4, 0x0, 30, 30⟩
/-- GDI_RETRYSTAT.WAITING [29:29]. -/
def GDI_RETRYSTAT_WAITING : Fld := ⟨0x88090, 0x4, 0x0, 29, 29⟩
/-- GDI_RETRYSTAT.COUNT [3:0]. -/
def GDI_RETRYSTAT_COUNT : Fld := ⟨0x88090, 0x4, 0x0, 3, 0⟩
/-- GDI_RETRYCLR.CLR [2:0]. -/
def GDI_RETRYCLR_CLR : Fld := ⟨0x880A0, 0x0, 0x0, 2, 0⟩
/-- GDI_PCFG.BLANK [27:16]. -/
def GDI_PCFG_BLANK : Fld := ⟨0x88100, 0x10, 0x0, 27, 16⟩
/-- GDI_PCFG.FFILT [11:0]. -/
def GDI_PCFG_FFILT : Fld := ⟨0x88100, 0x10, 0x0, 11, 0⟩
/-- GDI_RCFG.RDYREQ [12:12]. -/
def GDI_RCFG_RDYREQ : Fld := ⟨0x88104, 0x10, 0x0, 12, 12⟩
/-- GDI_RCFG.RFILT [11:0]. -/
def GDI_RCFG_RFILT : Fld := ⟨0x88104, 0x10, 0x0, 11, 0⟩
/-- GDI_FSCOPE.SCOPE [17:0]. -/
def GDI_FSCOPE_SCOPE : Fld := ⟨0x88108, 0x10, 0x0, 17, 0⟩
/-- GDI_TS.TS [31:0]. -/
def GDI_TS_TS : Fld := ⟨0x8810C, 0x10, 0x0, 31, 0⟩
/-- DML_CTRL.RESTART [1:1]. -/
def DML_CTRL_RESTART : Fld := ⟨0x90000, 0x1000, 0x0, 1, 1⟩
/-- DML_CTRL.EN [0:0]. -/
def DML_CTRL_EN : Fld := ⟨0x90000, 0x1000, 0x0, 0, 0⟩
/-- DML_STAT.STATE [31:28]. -/
def DML_STAT_STATE : Fld := ⟨0x90004, 0x1000, 0x0, 31, 28⟩
/-- DML_STAT.BLOCKLOCK [27:27]. -/
def DML_STAT_BLOCKLOCK : Fld := ⟨0x90004, 0x1000, 0x0, 27, 27⟩
/-- DML_STAT.GEN [26:26]. -/
def DML_STAT_GEN : Fld := ⟨0x90004, 0x1000, 0x0, 26, 26⟩
/-- DML_STAT.FAREND [25:25]. -/
def DML_STAT_FAREND : Fld := ⟨0x90004, 0x1000, 0x0, 25, 25⟩
/-- DML_STAT.NREC [24:20]. -/
def DML_STAT_NREC : Fld := ⟨0x90004, 0x1000, 0x0, 24, 20⟩
/-- DML_STAT.RETRIES [19:16]. -/
def DML_STAT_RETRIES : Fld := ⟨0x90004, 0x1000, 0x0, 19, 16⟩
/-- DML_STAT.LASTCAUSE [7:0]. -/
def DML_STAT_LASTCAUSE : Fld := ⟨0x90004, 0x1000, 0x0, 7, 0⟩
/-- DML_CFG.RETRYWAIT [31:24]. -/
def DML_CFG_RETRYWAIT : Fld := ⟨0x90008, 0x1000, 0x0, 31, 24⟩
/-- DML_CFG.RETRYMAX [23:20]. -/
def DML_CFG_RETRYMAX : Fld := ⟨0x90008, 0x1000, 0x0, 23, 20⟩
/-- DML_CFG.LOSTN [19:16]. -/
def DML_CFG_LOSTN : Fld := ⟨0x90008, 0x1000, 0x0, 19, 16⟩
/-- DML_CFG.LINKTO [15:8]. -/
def DML_CFG_LINKTO : Fld := ⟨0x90008, 0x1000, 0x0, 15, 8⟩
/-- DML_CFG.CODETHR [7:0]. -/
def DML_CFG_CODETHR : Fld := ⟨0x90008, 0x1000, 0x0, 7, 0⟩
/-- DML_RTT.LIMIT [31:16]. -/
def DML_RTT_LIMIT : Fld := ⟨0x9000C, 0x1000, 0x0, 31, 16⟩
/-- DML_RTT.RTT [15:0]. -/
def DML_RTT_RTT : Fld := ⟨0x9000C, 0x1000, 0x0, 15, 0⟩
/-- DML_CODEERR.COUNT [31:0]. -/
def DML_CODEERR_COUNT : Fld := ⟨0x90010, 0x1000, 0x0, 31, 0⟩
/-- DML_FLAKES.COUNT [31:0]. -/
def DML_FLAKES_COUNT : Fld := ⟨0x90014, 0x1000, 0x0, 31, 0⟩
/-- DML_GLATE.COUNT [31:0]. -/
def DML_GLATE_COUNT : Fld := ⟨0x90018, 0x1000, 0x0, 31, 0⟩
/-- DML_EQ.BAND [31:30]. -/
def DML_EQ_BAND : Fld := ⟨0x90020, 0x1000, 0x0, 31, 30⟩
/-- DML_EQ.ROW [20:0]. -/
def DML_EQ_ROW : Fld := ⟨0x90020, 0x1000, 0x0, 20, 0⟩
/-- DML_EQTB.SWING [20:16]. -/
def DML_EQTB_SWING : Fld := ⟨0x90024, 0x1000, 0x4, 20, 16⟩
/-- DML_EQTB.PRE [15:12]. -/
def DML_EQTB_PRE : Fld := ⟨0x90024, 0x1000, 0x4, 15, 12⟩
/-- DML_EQTB.POST [11:7]. -/
def DML_EQTB_POST : Fld := ⟨0x90024, 0x1000, 0x4, 11, 7⟩
/-- DML_EQTB.CTLE [6:3]. -/
def DML_EQTB_CTLE : Fld := ⟨0x90024, 0x1000, 0x4, 6, 3⟩
/-- DML_HALOCTRL.GO [31:31]. -/
def DML_HALOCTRL_GO : Fld := ⟨0x90040, 0x1000, 0x0, 31, 31⟩
/-- DML_HALOCTRL.STOP [30:30]. -/
def DML_HALOCTRL_STOP : Fld := ⟨0x90040, 0x1000, 0x0, 30, 30⟩
/-- DML_HALOCTRL.DWELL [5:0]. -/
def DML_HALOCTRL_DWELL : Fld := ⟨0x90040, 0x1000, 0x0, 5, 0⟩
/-- DML_HALOSTAT.BUSY [31:31]. -/
def DML_HALOSTAT_BUSY : Fld := ⟨0x90044, 0x1000, 0x0, 31, 31⟩
/-- DML_HALOSTAT.DONE [30:30]. -/
def DML_HALOSTAT_DONE : Fld := ⟨0x90044, 0x1000, 0x0, 30, 30⟩
/-- DML_HALOSTAT.ABORTED [29:29]. -/
def DML_HALOSTAT_ABORTED : Fld := ⟨0x90044, 0x1000, 0x0, 29, 29⟩
/-- DML_HALOSTAT.ACAUSE [28:26]. -/
def DML_HALOSTAT_ACAUSE : Fld := ⟨0x90044, 0x1000, 0x0, 28, 26⟩
/-- DML_HALOSTAT.WIDTH [25:19]. -/
def DML_HALOSTAT_WIDTH : Fld := ⟨0x90044, 0x1000, 0x0, 25, 19⟩
/-- DML_HALOSTAT.HEIGHT [18:13]. -/
def DML_HALOSTAT_HEIGHT : Fld := ⟨0x90044, 0x1000, 0x0, 18, 13⟩
/-- DML_HALOSTAT.AREA [11:0]. -/
def DML_HALOSTAT_AREA : Fld := ⟨0x90044, 0x1000, 0x0, 11, 0⟩
/-- DML_HALOMASK.MINW [14:8]. -/
def DML_HALOMASK_MINW : Fld := ⟨0x90048, 0x1000, 0x0, 14, 8⟩
/-- DML_HALOMASK.MINH [5:0]. -/
def DML_HALOMASK_MINH : Fld := ⟨0x90048, 0x1000, 0x0, 5, 0⟩
/-- DML_HALOTIME.PERIOD [31:0]. -/
def DML_HALOTIME_PERIOD : Fld := ⟨0x9004C, 0x1000, 0x0, 31, 0⟩
/-- DML_OFFSA.VALID [31:31]. -/
def DML_OFFSA_VALID : Fld := ⟨0x90100, 0x1000, 0x4, 31, 31⟩
/-- DML_OFFSA.OFFS [19:0]. -/
def DML_OFFSA_OFFS : Fld := ⟨0x90100, 0x1000, 0x4, 19, 0⟩
/-- DML_OFFSB.VALID [31:31]. -/
def DML_OFFSB_VALID : Fld := ⟨0x90140, 0x1000, 0x4, 31, 31⟩
/-- DML_OFFSB.OFFS [19:0]. -/
def DML_OFFSB_OFFS : Fld := ⟨0x90140, 0x1000, 0x4, 19, 0⟩
/-- DML_HALO.WORD [31:0]. -/
def DML_HALO_WORD : Fld := ⟨0x90800, 0x1000, 0x4, 31, 0⟩
/-- DML_QSTAT.CLKALARM [2:2]. -/
def DML_QSTAT_CLKALARM : Fld := ⟨0xAF000, 0x4, 0x0, 2, 2⟩
/-- DML_QSTAT.LOCKED [1:1]. -/
def DML_QSTAT_LOCKED : Fld := ⟨0xAF000, 0x4, 0x0, 1, 1⟩
/-- DML_QSTAT.POWERED [0:0]. -/
def DML_QSTAT_POWERED : Fld := ⟨0xAF000, 0x4, 0x0, 0, 0⟩
/-- CELL_ENTRY0.WORD [31:0]. -/
def CELL_ENTRY0_WORD : Fld := ⟨0xB0000, 0x100, 0x4, 31, 0⟩
/-- CELL_ENTRYW.WORD [31:0]. -/
def CELL_ENTRYW_WORD : Fld := ⟨0xB0004, 0x100, 0x4, 31, 0⟩
/-- CELL_ENTRYH.WORD [31:0]. -/
def CELL_ENTRYH_WORD : Fld := ⟨0xB000C, 0x100, 0x4, 31, 0⟩
/-- CELL_CTRL.CMD [2:0]. -/
def CELL_CTRL_CMD : Fld := ⟨0xB0020, 0x100, 0x0, 2, 0⟩
/-- CELL_STAT.STATE [31:28]. -/
def CELL_STAT_STATE : Fld := ⟨0xB0024, 0x100, 0x0, 31, 28⟩
/-- CELL_STAT.PRMOK [27:27]. -/
def CELL_STAT_PRMOK : Fld := ⟨0xB0024, 0x100, 0x0, 27, 27⟩
/-- CELL_STAT.IDSEEN [26:26]. -/
def CELL_STAT_IDSEEN : Fld := ⟨0xB0024, 0x100, 0x0, 26, 26⟩
/-- CELL_STAT.HOLDCNT [19:16]. -/
def CELL_STAT_HOLDCNT : Fld := ⟨0xB0024, 0x100, 0x0, 19, 16⟩
/-- CELL_STAT.EVENTS [9:0]. -/
def CELL_STAT_EVENTS : Fld := ⟨0xB0024, 0x100, 0x0, 9, 0⟩
/-- CELL_ERR.INVALID [31:8]. -/
def CELL_ERR_INVALID : Fld := ⟨0xB0028, 0x100, 0x0, 31, 8⟩
/-- CELL_ERR.RUN [3:0]. -/
def CELL_ERR_RUN : Fld := ⟨0xB0028, 0x100, 0x0, 3, 0⟩
/-- CELL_IDLO.ID [31:0]. -/
def CELL_IDLO_ID : Fld := ⟨0xB002C, 0x100, 0x0, 31, 0⟩
/-- CELL_IDHI.ID [31:0]. -/
def CELL_IDHI_ID : Fld := ⟨0xB0030, 0x100, 0x0, 31, 0⟩
/-- CELL_PROF.PROFILE [31:0]. -/
def CELL_PROF_PROFILE : Fld := ⟨0xB0034, 0x100, 0x0, 31, 0⟩
/-- CELL_MREC.WORD [31:0]. -/
def CELL_MREC_WORD : Fld := ⟨0xB0040, 0x100, 0x4, 31, 0⟩
/-- CELL_CREC.WORD [31:0]. -/
def CELL_CREC_WORD : Fld := ⟨0xB0060, 0x100, 0x4, 31, 0⟩
/-- CELL_PRM.VALUE [31:0]. -/
def CELL_PRM_VALUE : Fld := ⟨0xB0080, 0x100, 0x4, 31, 0⟩
/-- CELL_GCTRL.CMD [1:0]. -/
def CELL_GCTRL_CMD : Fld := ⟨0xCF000, 0x0, 0x0, 1, 0⟩
/-- CELL_GCFG.PRECHV [31:16]. -/
def CELL_GCFG_PRECHV : Fld := ⟨0xCF004, 0x0, 0x0, 31, 16⟩
/-- CELL_GCFG.PRECHTO [15:8]. -/
def CELL_GCFG_PRECHTO : Fld := ⟨0xCF004, 0x0, 0x0, 15, 8⟩
/-- CELL_GCFG.LOSTN [7:4]. -/
def CELL_GCFG_LOSTN : Fld := ⟨0xCF004, 0x0, 0x0, 7, 4⟩
/-- CELL_GCFG.MISSTO [3:0]. -/
def CELL_GCFG_MISSTO : Fld := ⟨0xCF004, 0x0, 0x0, 3, 0⟩
/-- CELL_QSTAT.FREE [31:23]. -/
def CELL_QSTAT_FREE : Fld := ⟨0xCF008, 0x0, 0x0, 31, 23⟩
/-- CELL_QSTAT.DEPTH [22:14]. -/
def CELL_QSTAT_DEPTH : Fld := ⟨0xCF008, 0x0, 0x0, 22, 14⟩
/-- CELL_QSTAT.PUMPHEAD [13:13]. -/
def CELL_QSTAT_PUMPHEAD : Fld := ⟨0xCF008, 0x0, 0x0, 13, 13⟩
/-- CELL_QSTAT.HEAD [8:0]. -/
def CELL_QSTAT_HEAD : Fld := ⟨0xCF008, 0x0, 0x0, 8, 0⟩
/-- CELL_GRP.AVAIL [22:16]. -/
def CELL_GRP_AVAIL : Fld := ⟨0xCF010, 0x4, 0x0, 22, 16⟩
/-- CELL_GRP.INSVC [6:0]. -/
def CELL_GRP_INSVC : Fld := ⟨0xCF010, 0x4, 0x0, 6, 0⟩
/-- RED_MODE.MODE [1:0]. -/
def RED_MODE_MODE : Fld := ⟨0xD0000, 0x0, 0x0, 1, 0⟩
/-- RED_STAT.ROLE [31:28]. -/
def RED_STAT_ROLE : Fld := ⟨0xD0008, 0x0, 0x0, 31, 28⟩
/-- RED_STAT.HEADID [27:27]. -/
def RED_STAT_HEADID : Fld := ⟨0xD0008, 0x0, 0x0, 27, 27⟩
/-- RED_STAT.RESIGNI [26:26]. -/
def RED_STAT_RESIGNI : Fld := ⟨0xD0008, 0x0, 0x0, 26, 26⟩
/-- RED_STAT.PEERRDY [25:25]. -/
def RED_STAT_PEERRDY : Fld := ⟨0xD0008, 0x0, 0x0, 25, 25⟩
/-- RED_STAT.XL [24:23]. -/
def RED_STAT_XL : Fld := ⟨0xD0008, 0x0, 0x0, 24, 23⟩
/-- RED_STAT.SYNCPCT [6:0]. -/
def RED_STAT_SYNCPCT : Fld := ⟨0xD0008, 0x0, 0x0, 6, 0⟩
/-- RED_CFG.SWAPDUE [31:24]. -/
def RED_CFG_SWAPDUE : Fld := ⟨0xD000C, 0x0, 0x0, 31, 24⟩
/-- RED_CFG.ELECTWAIT [23:16]. -/
def RED_CFG_ELECTWAIT : Fld := ⟨0xD000C, 0x0, 0x0, 23, 16⟩
/-- RED_CFG.RFILT [9:0]. -/
def RED_CFG_RFILT : Fld := ⟨0xD000C, 0x0, 0x0, 9, 0⟩
/-- RED_CTRL.RESYNC [1:1]. -/
def RED_CTRL_RESYNC : Fld := ⟨0xD0010, 0x0, 0x0, 1, 1⟩
/-- RED_CTRL.SWAP [0:0]. -/
def RED_CTRL_SWAP : Fld := ⟨0xD0010, 0x0, 0x0, 0, 0⟩
/-- RED_ALIGN.EMAX [31:16]. -/
def RED_ALIGN_EMAX : Fld := ⟨0xD0014, 0x0, 0x0, 31, 16⟩
/-- RED_ALIGN.E [15:0]. -/
def RED_ALIGN_E : Fld := ⟨0xD0014, 0x0, 0x0, 15, 0⟩
/-- RED_XSCHED.TCUT [31:16]. -/
def RED_XSCHED_TCUT : Fld := ⟨0xD0018, 0x0, 0x0, 31, 16⟩
/-- RED_XSCHED.XLAT [15:0]. -/
def RED_XSCHED_XLAT : Fld := ⟨0xD0018, 0x0, 0x0, 15, 0⟩
/-- RED_TOVER.PERIOD [31:0]. -/
def RED_TOVER_PERIOD : Fld := ⟨0xD001C, 0x0, 0x0, 31, 0⟩
/-- RED_GAP.HOLDS [31:30]. -/
def RED_GAP_HOLDS : Fld := ⟨0xD0020, 0x0, 0x0, 31, 30⟩
/-- RED_GAP.GAP [16:0]. -/
def RED_GAP_GAP : Fld := ⟨0xD0020, 0x0, 0x0, 16, 0⟩
/-- RED_CNT.TAKEOVERS [31:16]. -/
def RED_CNT_TAKEOVERS : Fld := ⟨0xD0024, 0x0, 0x0, 31, 16⟩
/-- RED_CNT.SWAPS [15:0]. -/
def RED_CNT_SWAPS : Fld := ⟨0xD0024, 0x0, 0x0, 15, 0⟩
/-- RED_DIVCNT.COUNT [31:0]. -/
def RED_DIVCNT_COUNT : Fld := ⟨0xD0028, 0x0, 0x0, 31, 0⟩
/-- RED_XERR.COUNT [31:0]. -/
def RED_XERR_COUNT : Fld := ⟨0xD002C, 0x0, 0x0, 31, 0⟩
/-- RED_TCFG.REINTWIN [15:8]. -/
def RED_TCFG_REINTWIN : Fld := ⟨0xD0030, 0x0, 0x0, 15, 8⟩
/-- RED_TCFG.REINTMAX [3:0]. -/
def RED_TCFG_REINTMAX : Fld := ⟨0xD0030, 0x0, 0x0, 3, 0⟩
/-- RED_SWAPAGE.COUNT [31:0]. -/
def RED_SWAPAGE_COUNT : Fld := ⟨0xD0034, 0x0, 0x0, 31, 0⟩
/-- RED_SLSTAT.STATE [31:30]. -/
def RED_SLSTAT_STATE : Fld := ⟨0xD0040, 0x4, 0x0, 31, 30⟩
/-- RED_SLSTAT.RECENT [23:16]. -/
def RED_SLSTAT_RECENT : Fld := ⟨0xD0040, 0x4, 0x0, 23, 16⟩
/-- RED_SLSTAT.MINORITY [15:0]. -/
def RED_SLSTAT_MINORITY : Fld := ⟨0xD0040, 0x4, 0x0, 15, 0⟩
/-- RED_VOTE.PERIOD [31:0]. -/
def RED_VOTE_PERIOD : Fld := ⟨0xD0050, 0x0, 0x0, 31, 0⟩
/-- RED_VOTEITEM.SLICE [31:30]. -/
def RED_VOTEITEM_SLICE : Fld := ⟨0xD0054, 0x0, 0x0, 31, 30⟩
/-- RED_VOTEITEM.KIND [29:28]. -/
def RED_VOTEITEM_KIND : Fld := ⟨0xD0054, 0x0, 0x0, 29, 28⟩
/-- RED_VOTEITEM.INDEX [8:0]. -/
def RED_VOTEITEM_INDEX : Fld := ⟨0xD0054, 0x0, 0x0, 8, 0⟩
/-- SAF_CTRL.WOREQ [1:1]. -/
def SAF_CTRL_WOREQ : Fld := ⟨0xD8000, 0x0, 0x0, 1, 1⟩
/-- SAF_CTRL.RESET [0:0]. -/
def SAF_CTRL_RESET : Fld := ⟨0xD8000, 0x0, 0x0, 0, 0⟩
/-- SAF_STAT.WO [31:31]. -/
def SAF_STAT_WO : Fld := ⟨0xD8004, 0x0, 0x0, 31, 31⟩
/-- SAF_STAT.LOGICOK [30:30]. -/
def SAF_STAT_LOGICOK : Fld := ⟨0xD8004, 0x0, 0x0, 30, 30⟩
/-- SAF_STAT.RST_REJ [29:29]. -/
def SAF_STAT_RST_REJ : Fld := ⟨0xD8004, 0x0, 0x0, 29, 29⟩
/-- SAF_STAT.CAUSES [26:16]. -/
def SAF_STAT_CAUSES : Fld := ⟨0xD8004, 0x0, 0x0, 26, 16⟩
/-- SAF_WOCAUSE.CLASS [31:28]. -/
def SAF_WOCAUSE_CLASS : Fld := ⟨0xD8008, 0x0, 0x0, 31, 28⟩
/-- SAF_WOCAUSE.INDEX [9:0]. -/
def SAF_WOCAUSE_INDEX : Fld := ⟨0xD8008, 0x0, 0x0, 9, 0⟩
/-- SAF_WOTIME.CT [31:0]. -/
def SAF_WOTIME_CT : Fld := ⟨0xD800C, 0x0, 0x0, 31, 0⟩
/-- SAF_TPCFG.TPPER [31:25]. -/
def SAF_TPCFG_TPPER : Fld := ⟨0xD8010, 0x0, 0x0, 31, 25⟩
/-- SAF_TPCFG.TPW [24:18]. -/
def SAF_TPCFG_TPW : Fld := ⟨0xD8010, 0x0, 0x0, 24, 18⟩
/-- SAF_TPCFG.TECHO [17:12]. -/
def SAF_TPCFG_TECHO : Fld := ⟨0xD8010, 0x0, 0x0, 17, 12⟩
/-- SAF_TPCFG.TPFAILN [11:10]. -/
def SAF_TPCFG_TPFAILN : Fld := ⟨0xD8010, 0x0, 0x0, 11, 10⟩
/-- SAF_TPCFG.XMASK [7:0]. -/
def SAF_TPCFG_XMASK : Fld := ⟨0xD8010, 0x0, 0x0, 7, 0⟩
/-- SAF_TGGLOB.TAGGED [28:28]. -/
def SAF_TGGLOB_TAGGED : Fld := ⟨0xD8018, 0x0, 0x0, 28, 28⟩
/-- SAF_TGGLOB.VID [27:16]. -/
def SAF_TGGLOB_VID : Fld := ⟨0xD8018, 0x0, 0x0, 27, 16⟩
/-- SAF_TGGLOB.ETYPE [15:0]. -/
def SAF_TGGLOB_ETYPE : Fld := ⟨0xD8018, 0x0, 0x0, 15, 0⟩
/-- SAF_INSTAT.DISC [31:24]. -/
def SAF_INSTAT_DISC : Fld := ⟨0xD8020, 0x0, 0x0, 31, 24⟩
/-- SAF_INSTAT.BFLT [23:16]. -/
def SAF_INSTAT_BFLT : Fld := ⟨0xD8020, 0x0, 0x0, 23, 16⟩
/-- SAF_INSTAT.AFLT [15:8]. -/
def SAF_INSTAT_AFLT : Fld := ⟨0xD8020, 0x0, 0x0, 15, 8⟩
/-- SAF_INSTAT.DEMAND [7:0]. -/
def SAF_INSTAT_DEMAND : Fld := ⟨0xD8020, 0x0, 0x0, 7, 0⟩
/-- SAF_CHAN.B [15:8]. -/
def SAF_CHAN_B : Fld := ⟨0xD8024, 0x0, 0x0, 15, 8⟩
/-- SAF_CHAN.A [7:0]. -/
def SAF_CHAN_A : Fld := ⟨0xD8024, 0x0, 0x0, 7, 0⟩
/-- SAF_INCFG.MODE [31:30]. -/
def SAF_INCFG_MODE : Fld := ⟨0xD8040, 0x8, 0x0, 31, 30⟩
/-- SAF_INCFG.SRCA [29:28]. -/
def SAF_INCFG_SRCA : Fld := ⟨0xD8040, 0x8, 0x0, 29, 28⟩
/-- SAF_INCFG.SRCB [27:26]. -/
def SAF_INCFG_SRCB : Fld := ⟨0xD8040, 0x8, 0x0, 27, 26⟩
/-- SAF_INCFG.ACT [25:25]. -/
def SAF_INCFG_ACT : Fld := ⟨0xD8040, 0x8, 0x0, 25, 25⟩
/-- SAF_INCFG.DISC [24:16]. -/
def SAF_INCFG_DISC : Fld := ⟨0xD8040, 0x8, 0x0, 24, 16⟩
/-- SAF_INCFG.FILT [11:0]. -/
def SAF_INCFG_FILT : Fld := ⟨0xD8040, 0x8, 0x0, 11, 0⟩
/-- SAF_TGCFG.EN [31:31]. -/
def SAF_TGCFG_EN : Fld := ⟨0xD8100, 0x20, 0x0, 31, 31⟩
/-- SAF_TGCFG.SINGLE [30:30]. -/
def SAF_TGCFG_SINGLE : Fld := ⟨0xD8100, 0x20, 0x0, 30, 30⟩
/-- SAF_TGCFG.WDT [29:23]. -/
def SAF_TGCFG_WDT : Fld := ⟨0xD8100, 0x20, 0x0, 29, 23⟩
/-- SAF_TGCFG.TWIN [22:16]. -/
def SAF_TGCFG_TWIN : Fld := ⟨0xD8100, 0x20, 0x0, 22, 16⟩
/-- SAF_TGCFG.TGID [15:0]. -/
def SAF_TGCFG_TGID : Fld := ⟨0xD8100, 0x20, 0x0, 15, 0⟩
/-- SAF_TGSTAT.STATE [31:30]. -/
def SAF_TGSTAT_STATE : Fld := ⟨0xD8108, 0x20, 0x0, 31, 30⟩
/-- SAF_TGSTAT.TRIP [29:29]. -/
def SAF_TGSTAT_TRIP : Fld := ⟨0xD8108, 0x20, 0x0, 29, 29⟩
/-- SAF_TGSTAT.PERMIT [28:28]. -/
def SAF_TGSTAT_PERMIT : Fld := ⟨0xD8108, 0x20, 0x0, 28, 28⟩
/-- SAF_TGSTAT.PEND [27:27]. -/
def SAF_TGSTAT_PEND : Fld := ⟨0xD8108, 0x20, 0x0, 27, 27⟩
/-- SAF_TGSTAT.AGE [15:0]. -/
def SAF_TGSTAT_AGE : Fld := ⟨0xD8108, 0x20, 0x0, 15, 0⟩
/-- SAF_TGSEQ.LAST [31:0]. -/
def SAF_TGSEQ_LAST : Fld := ⟨0xD810C, 0x20, 0x0, 31, 0⟩
/-- SAF_TGCNT.SINGLES [31:20]. -/
def SAF_TGCNT_SINGLES : Fld := ⟨0xD8110, 0x20, 0x0, 31, 20⟩
/-- SAF_TGCNT.BAD [19:8]. -/
def SAF_TGCNT_BAD : Fld := ⟨0xD8110, 0x20, 0x0, 19, 8⟩
/-- SAF_TGCNT.DISAGREE [7:0]. -/
def SAF_TGCNT_DISAGREE : Fld := ⟨0xD8110, 0x20, 0x0, 7, 0⟩
/-- NET_CTRL.EN [2:0]. -/
def NET_CTRL_EN : Fld := ⟨0xE0000, 0x0, 0x0, 2, 0⟩
/-- NET_STAT.LINK [2:0]. -/
def NET_STAT_LINK : Fld := ⟨0xE0004, 0x0, 0x0, 2, 0⟩
/-- NET_TIMELO.NS [31:0]. -/
def NET_TIMELO_NS : Fld := ⟨0xE0008, 0x0, 0x0, 31, 0⟩
/-- NET_TIMEHI.NS [31:0]. -/
def NET_TIMEHI_NS : Fld := ⟨0xE000C, 0x0, 0x0, 31, 0⟩
/-- NET_UTCOFS.VALID [31:31]. -/
def NET_UTCOFS_VALID : Fld := ⟨0xE0010, 0x0, 0x0, 31, 31⟩
/-- NET_UTCOFS.OFS [15:0]. -/
def NET_UTCOFS_OFS : Fld := ⟨0xE0010, 0x0, 0x0, 15, 0⟩
/-- NET_PTPCFG.STEER [28:28]. -/
def NET_PTPCFG_STEER : Fld := ⟨0xE0014, 0x0, 0x0, 28, 28⟩
/-- NET_PTPCFG.JUMPN [27:24]. -/
def NET_PTPCFG_JUMPN : Fld := ⟨0xE0014, 0x0, 0x0, 27, 24⟩
/-- NET_PTPCFG.LOCKTHR [23:16]. -/
def NET_PTPCFG_LOCKTHR : Fld := ⟨0xE0014, 0x0, 0x0, 23, 16⟩
/-- NET_PTPCFG.STEPLIM [15:0]. -/
def NET_PTPCFG_STEPLIM : Fld := ⟨0xE0014, 0x0, 0x0, 15, 0⟩
/-- NET_PTPCTL.SELECT [2:1]. -/
def NET_PTPCTL_SELECT : Fld := ⟨0xE0018, 0x0, 0x0, 2, 1⟩
/-- NET_PTPCTL.ARMSTEP [0:0]. -/
def NET_PTPCTL_ARMSTEP : Fld := ⟨0xE0018, 0x0, 0x0, 0, 0⟩
/-- NET_PTPSTAT.STATE [31:28]. -/
def NET_PTPSTAT_STATE : Fld := ⟨0xE001C, 0x0, 0x0, 31, 28⟩
/-- NET_PTPSTAT.STEERING [27:27]. -/
def NET_PTPSTAT_STEERING : Fld := ⟨0xE001C, 0x0, 0x0, 27, 27⟩
/-- NET_PTPSTAT.ARMED [26:26]. -/
def NET_PTPSTAT_ARMED : Fld := ⟨0xE001C, 0x0, 0x0, 26, 26⟩
/-- NET_PTPSTAT.STEPS [7:0]. -/
def NET_PTPSTAT_STEPS : Fld := ⟨0xE001C, 0x0, 0x0, 7, 0⟩
/-- NET_FREQ.FREQ [31:0]. -/
def NET_FREQ_FREQ : Fld := ⟨0xE0020, 0x0, 0x0, 31, 0⟩
/-- NET_PLCFG.LOCKEN [31:31]. -/
def NET_PLCFG_LOCKEN : Fld := ⟨0xE0024, 0x0, 0x0, 31, 31⟩
/-- NET_PLCFG.QSTEP [8:8]. -/
def NET_PLCFG_QSTEP : Fld := ⟨0xE0024, 0x0, 0x0, 8, 8⟩
/-- NET_PLCFG.PLRATE [7:0]. -/
def NET_PLCFG_PLRATE : Fld := ⟨0xE0024, 0x0, 0x0, 7, 0⟩
/-- NET_PLSTAT.STATE [31:30]. -/
def NET_PLSTAT_STATE : Fld := ⟨0xE0028, 0x0, 0x0, 31, 30⟩
/-- NET_PLSTAT.E [15:0]. -/
def NET_PLSTAT_E : Fld := ⟨0xE0028, 0x0, 0x0, 15, 0⟩
/-- NET_RAPCFG.UDP [31:16]. -/
def NET_RAPCFG_UDP : Fld := ⟨0xE0030, 0x0, 0x0, 31, 16⟩
/-- NET_RAPCFG.IDLE [15:8]. -/
def NET_RAPCFG_IDLE : Fld := ⟨0xE0030, 0x0, 0x0, 15, 8⟩
/-- NET_RAPCFG.PORTS [2:0]. -/
def NET_RAPCFG_PORTS : Fld := ⟨0xE0030, 0x0, 0x0, 2, 0⟩
/-- NET_RAPSTAT.OPEN [3:0]. -/
def NET_RAPSTAT_OPEN : Fld := ⟨0xE0034, 0x0, 0x0, 3, 0⟩
/-- NET_RAPERR.AUTH [31:16]. -/
def NET_RAPERR_AUTH : Fld := ⟨0xE0038, 0x0, 0x0, 31, 16⟩
/-- NET_RAPERR.REPLAY [15:0]. -/
def NET_RAPERR_REPLAY : Fld := ⟨0xE0038, 0x0, 0x0, 15, 0⟩
/-- NET_DCFG.EN [31:31]. -/
def NET_DCFG_EN : Fld := ⟨0xE0100, 0x40, 0x0, 31, 31⟩
/-- NET_DCFG.PROFILE [30:29]. -/
def NET_DCFG_PROFILE : Fld := ⟨0xE0100, 0x40, 0x0, 30, 29⟩
/-- NET_DCFG.MINOR [28:28]. -/
def NET_DCFG_MINOR : Fld := ⟨0xE0100, 0x40, 0x0, 28, 28⟩
/-- NET_DCFG.PORTS [27:26]. -/
def NET_DCFG_PORTS : Fld := ⟨0xE0100, 0x40, 0x0, 27, 26⟩
/-- NET_DCFG.ANNTO [25:22]. -/
def NET_DCFG_ANNTO : Fld := ⟨0xE0100, 0x40, 0x0, 25, 22⟩
/-- NET_DCFG.DOMAIN [7:0]. -/
def NET_DCFG_DOMAIN : Fld := ⟨0xE0100, 0x40, 0x0, 7, 0⟩
/-- NET_DSTAT.ROLE [31:30]. -/
def NET_DSTAT_ROLE : Fld := ⟨0xE0104, 0x40, 0x0, 31, 30⟩
/-- NET_DSTAT.PORT [29:29]. -/
def NET_DSTAT_PORT : Fld := ⟨0xE0104, 0x40, 0x0, 29, 29⟩
/-- NET_DSTAT.GMCLASS [23:16]. -/
def NET_DSTAT_GMCLASS : Fld := ⟨0xE0104, 0x40, 0x0, 23, 16⟩
/-- NET_DSTAT.SAMPLES [15:0]. -/
def NET_DSTAT_SAMPLES : Fld := ⟨0xE0104, 0x40, 0x0, 15, 0⟩
/-- NET_DGMLO.ID [31:0]. -/
def NET_DGMLO_ID : Fld := ⟨0xE0108, 0x40, 0x0, 31, 0⟩
/-- NET_DGMHI.ID [31:0]. -/
def NET_DGMHI_ID : Fld := ⟨0xE010C, 0x40, 0x0, 31, 0⟩
/-- NET_DOFS.OF [31:0]. -/
def NET_DOFS_OF : Fld := ⟨0xE0110, 0x40, 0x0, 31, 0⟩
/-- NET_DPDLY.PDLY [31:0]. -/
def NET_DPDLY_PDLY : Fld := ⟨0xE0114, 0x40, 0x0, 31, 0⟩
/-- NET_DERR.COUNT [31:0]. -/
def NET_DERR_COUNT : Fld := ⟨0xE0118, 0x40, 0x0, 31, 0⟩
/-- NET_DJUMP.JUMP [31:0]. -/
def NET_DJUMP_JUMP : Fld := ⟨0xE011C, 0x40, 0x0, 31, 0⟩
/-- NET_PCFG.IFMODE [31:31]. -/
def NET_PCFG_IFMODE : Fld := ⟨0xE0200, 0x40, 0x0, 31, 31⟩
/-- NET_PCFG.VID [11:0]. -/
def NET_PCFG_VID : Fld := ⟨0xE0200, 0x40, 0x0, 11, 0⟩
/-- NET_MACLO.MAC [31:0]. -/
def NET_MACLO_MAC : Fld := ⟨0xE0204, 0x40, 0x0, 31, 0⟩
/-- NET_MACHI.MAC [15:0]. -/
def NET_MACHI_MAC : Fld := ⟨0xE0208, 0x40, 0x0, 15, 0⟩
/-- NET_IP.IP [31:0]. -/
def NET_IP_IP : Fld := ⟨0xE020C, 0x40, 0x0, 31, 0⟩
/-- NET_TXCOR.COR [15:0]. -/
def NET_TXCOR_COR : Fld := ⟨0xE0210, 0x40, 0x0, 15, 0⟩
/-- NET_RXCOR.COR [15:0]. -/
def NET_RXCOR_COR : Fld := ⟨0xE0214, 0x40, 0x0, 15, 0⟩
/-- NET_ASYM.ASYM [31:0]. -/
def NET_ASYM_ASYM : Fld := ⟨0xE0218, 0x40, 0x0, 31, 0⟩
/-- NET_PSTAT.DROP [31:16]. -/
def NET_PSTAT_DROP : Fld := ⟨0xE021C, 0x40, 0x0, 31, 16⟩
/-- NET_PSTAT.FCS [15:0]. -/
def NET_PSTAT_FCS : Fld := ⟨0xE021C, 0x40, 0x0, 15, 0⟩
/-- NET_RXCNT.COUNT [31:0]. -/
def NET_RXCNT_COUNT : Fld := ⟨0xE0220, 0x40, 0x0, 31, 0⟩
/-- NET_TOUTCFG.POL [2:2]. -/
def NET_TOUTCFG_POL : Fld := ⟨0xE0400, 0x20, 0x0, 2, 2⟩
/-- NET_TOUTCFG.MODE [1:0]. -/
def NET_TOUTCFG_MODE : Fld := ⟨0xE0400, 0x20, 0x0, 1, 0⟩
/-- NET_TOUTTGT.TGT [31:0]. -/
def NET_TOUTTGT_TGT : Fld := ⟨0xE0404, 0x20, 0x0, 31, 0⟩
/-- NET_TOUTPER.PER [31:0]. -/
def NET_TOUTPER_PER : Fld := ⟨0xE0408, 0x20, 0x0, 31, 0⟩
/-- NET_TOUTW.W [31:0]. -/
def NET_TOUTW_W : Fld := ⟨0xE040C, 0x20, 0x0, 31, 0⟩
/-- NET_TOUTCTL.STOP [1:1]. -/
def NET_TOUTCTL_STOP : Fld := ⟨0xE0410, 0x20, 0x0, 1, 1⟩
/-- NET_TOUTCTL.ARM [0:0]. -/
def NET_TOUTCTL_ARM : Fld := ⟨0xE0410, 0x20, 0x0, 0, 0⟩
/-- NET_TOUTSTAT.STATE [31:30]. -/
def NET_TOUTSTAT_STATE : Fld := ⟨0xE0414, 0x20, 0x0, 31, 30⟩
/-- NET_TOUTSTAT.DONE [29:29]. -/
def NET_TOUTSTAT_DONE : Fld := ⟨0xE0414, 0x20, 0x0, 29, 29⟩
/-- NET_TOUTSTAT.ABORTED [28:28]. -/
def NET_TOUTSTAT_ABORTED : Fld := ⟨0xE0414, 0x20, 0x0, 28, 28⟩
/-- NET_TOUTSTAT.LATE [27:27]. -/
def NET_TOUTSTAT_LATE : Fld := ⟨0xE0414, 0x20, 0x0, 27, 27⟩
/-- NET_TOUTSTAT.COUNT [15:0]. -/
def NET_TOUTSTAT_COUNT : Fld := ⟨0xE0414, 0x20, 0x0, 15, 0⟩
/-- NET_TOUTLAST.NS [31:0]. -/
def NET_TOUTLAST_NS : Fld := ⟨0xE0418, 0x20, 0x0, 31, 0⟩
/-- NET_GPCFG.EN [31:31]. -/
def NET_GPCFG_EN : Fld := ⟨0xE0600, 0x10, 0x0, 31, 31⟩
/-- NET_GPCFG.PORTS [30:29]. -/
def NET_GPCFG_PORTS : Fld := ⟨0xE0600, 0x10, 0x0, 30, 29⟩
/-- NET_GPCFG.NELEM [21:16]. -/
def NET_GPCFG_NELEM : Fld := ⟨0xE0600, 0x10, 0x0, 21, 16⟩
/-- NET_GPCFG.APPID [15:0]. -/
def NET_GPCFG_APPID : Fld := ⟨0xE0600, 0x10, 0x0, 15, 0⟩
/-- NET_GPTIM.TMAX [31:16]. -/
def NET_GPTIM_TMAX : Fld := ⟨0xE0604, 0x10, 0x0, 31, 16⟩
/-- NET_GPTIM.TMIN [15:0]. -/
def NET_GPTIM_TMIN : Fld := ⟨0xE0604, 0x10, 0x0, 15, 0⟩
/-- NET_GPST.STNUM [31:0]. -/
def NET_GPST_STNUM : Fld := ⟨0xE0608, 0x10, 0x0, 31, 0⟩
/-- NET_GPSQ.SQNUM [31:0]. -/
def NET_GPSQ_SQNUM : Fld := ⟨0xE060C, 0x10, 0x0, 31, 0⟩
/-- NET_GSUBW.WORD [31:0]. -/
def NET_GSUBW_WORD : Fld := ⟨0xE1000, 0x20, 0x4, 31, 0⟩
/-- NET_GSUBR.WORD [31:0]. -/
def NET_GSUBR_WORD : Fld := ⟨0xE1014, 0x20, 0x4, 31, 0⟩
/-- NET_SVSUBW.WORD [31:0]. -/
def NET_SVSUBW_WORD : Fld := ⟨0xE1800, 0x20, 0x4, 31, 0⟩
/-- NET_SVSUBR.WORD [31:0]. -/
def NET_SVSUBR_WORD : Fld := ⟨0xE1818, 0x20, 0x4, 31, 0⟩
/-- NET_MAPW.WORD [31:0]. -/
def NET_MAPW_WORD : Fld := ⟨0xE2000, 0x10, 0x4, 31, 0⟩
/-- NET_MAP3.WORD [30:0]. -/
def NET_MAP3_WORD : Fld := ⟨0xE200C, 0x10, 0x0, 30, 0⟩
/-- NET_MAP3.INVALID [31:31]. -/
def NET_MAP3_INVALID : Fld := ⟨0xE200C, 0x10, 0x0, 31, 31⟩
/-- NET_GPEL.WORD [31:0]. -/
def NET_GPEL_WORD : Fld := ⟨0xE3000, 0x4, 0x0, 31, 0⟩
/-- ACQ_CFG.MINFREE [31:24]. -/
def ACQ_CFG_MINFREE : Fld := ⟨0xF0000, 0x0, 0x0, 31, 24⟩
/-- ACQ_CFG.CETRIG [23:21]. -/
def ACQ_CFG_CETRIG : Fld := ⟨0xF0000, 0x0, 0x0, 23, 21⟩
/-- ACQ_CFG.CALBAND [20:20]. -/
def ACQ_CFG_CALBAND : Fld := ⟨0xF0000, 0x0, 0x0, 20, 20⟩
/-- ACQ_STAT.MODE [31:31]. -/
def ACQ_STAT_MODE : Fld := ⟨0xF0004, 0x0, 0x0, 31, 31⟩
/-- ACQ_STAT.SHED [30:30]. -/
def ACQ_STAT_SHED : Fld := ⟨0xF0004, 0x0, 0x0, 30, 30⟩
/-- ACQ_STAT.OVRUN [29:29]. -/
def ACQ_STAT_OVRUN : Fld := ⟨0xF0004, 0x0, 0x0, 29, 29⟩
/-- ACQ_STAT.FREE [12:0]. -/
def ACQ_STAT_FREE : Fld := ⟨0xF0004, 0x0, 0x0, 12, 0⟩
/-- ACQ_CALCTRL.GO [0:0]. -/
def ACQ_CALCTRL_GO : Fld := ⟨0xF0008, 0x0, 0x0, 0, 0⟩
/-- ACQ_CALSTAT.STATE [31:30]. -/
def ACQ_CALSTAT_STATE : Fld := ⟨0xF000C, 0x0, 0x0, 31, 30⟩
/-- ACQ_CALSTAT.CAUSE [29:27]. -/
def ACQ_CALSTAT_CAUSE : Fld := ⟨0xF000C, 0x0, 0x0, 29, 27⟩
/-- ACQ_CALSTAT.COUNT [15:0]. -/
def ACQ_CALSTAT_COUNT : Fld := ⟨0xF000C, 0x0, 0x0, 15, 0⟩
/-- ACQ_POOL.TOTAL [28:16]. -/
def ACQ_POOL_TOTAL : Fld := ⟨0xF0010, 0x0, 0x0, 28, 16⟩
/-- ACQ_POOL.PROT [12:0]. -/
def ACQ_POOL_PROT : Fld := ⟨0xF0010, 0x0, 0x0, 12, 0⟩
/-- ACQ_EVCNT.COUNT [31:0]. -/
def ACQ_EVCNT_COUNT : Fld := ⟨0xF0014, 0x0, 0x0, 31, 0⟩
/-- ACQ_RECID.NEXT [31:0]. -/
def ACQ_RECID_NEXT : Fld := ⟨0xF0018, 0x0, 0x0, 31, 0⟩
/-- ACQ_DIRCTL.CMD [1:0]. -/
def ACQ_DIRCTL_CMD : Fld := ⟨0xF0020, 0x0, 0x0, 1, 0⟩
/-- ACQ_DIRARG.RECID [31:0]. -/
def ACQ_DIRARG_RECID : Fld := ⟨0xF0024, 0x0, 0x0, 31, 0⟩
/-- ACQ_SKEW.SKEW [15:0]. -/
def ACQ_SKEW_SKEW : Fld := ⟨0xF0100, 0x10, 0x0, 15, 0⟩
/-- ACQ_FDOFS.OFS [15:0]. -/
def ACQ_FDOFS_OFS : Fld := ⟨0xF0104, 0x10, 0x0, 15, 0⟩
/-- ACQ_FD.FD [15:0]. -/
def ACQ_FD_FD : Fld := ⟨0xF0108, 0x10, 0x0, 15, 0⟩
/-- ACQ_WMAP.OWN [31:31]. -/
def ACQ_WMAP_OWN : Fld := ⟨0xF0400, 0x8, 0x0, 31, 31⟩
/-- ACQ_WMAP.PAGE [11:0]. -/
def ACQ_WMAP_PAGE : Fld := ⟨0xF0400, 0x8, 0x0, 11, 0⟩
/-- ACQ_WSTAT.VALID [31:31]. -/
def ACQ_WSTAT_VALID : Fld := ⟨0xF0404, 0x8, 0x0, 31, 31⟩
/-- ACQ_WSTAT.RECID [30:0]. -/
def ACQ_WSTAT_RECID : Fld := ⟨0xF0404, 0x8, 0x0, 30, 0⟩
/-- ACQ_MCFG.EN [31:31]. -/
def ACQ_MCFG_EN : Fld := ⟨0xF0800, 0x10, 0x0, 31, 31⟩
/-- ACQ_MCFG.REC [30:28]. -/
def ACQ_MCFG_REC : Fld := ⟨0xF0800, 0x10, 0x0, 30, 28⟩
/-- ACQ_MCFG.CHAN [27:23]. -/
def ACQ_MCFG_CHAN : Fld := ⟨0xF0800, 0x10, 0x0, 27, 23⟩
/-- ACQ_MCFG.ALIGN [22:22]. -/
def ACQ_MCFG_ALIGN : Fld := ⟨0xF0800, 0x10, 0x0, 22, 22⟩
/-- ACQ_MCFG.TEST [21:20]. -/
def ACQ_MCFG_TEST : Fld := ⟨0xF0800, 0x10, 0x0, 21, 20⟩
/-- ACQ_MCFG.ACTION [19:18]. -/
def ACQ_MCFG_ACTION : Fld := ⟨0xF0800, 0x10, 0x0, 19, 18⟩
/-- ACQ_MCFG.SEGLEN [17:0]. -/
def ACQ_MCFG_SEGLEN : Fld := ⟨0xF0800, 0x10, 0x0, 17, 0⟩
/-- ACQ_MCNT.COUNT [31:0]. -/
def ACQ_MCNT_COUNT : Fld := ⟨0xF0804, 0x10, 0x0, 31, 0⟩
/-- ACQ_MFIRST.ROW [31:0]. -/
def ACQ_MFIRST_ROW : Fld := ⟨0xF0808, 0x10, 0x0, 31, 0⟩
/-- ACQ_MAPCFG.EN [31:31]. -/
def ACQ_MAPCFG_EN : Fld := ⟨0xF0C00, 0x0, 0x0, 31, 31⟩
/-- ACQ_MAPCFG.FRAME [30:30]. -/
def ACQ_MAPCFG_FRAME : Fld := ⟨0xF0C00, 0x0, 0x0, 30, 30⟩
/-- ACQ_MAPCFG.MAPREC [29:27]. -/
def ACQ_MAPCFG_MAPREC : Fld := ⟨0xF0C00, 0x0, 0x0, 29, 27⟩
/-- ACQ_MAPCFG.XDIV [15:0]. -/
def ACQ_MAPCFG_XDIV : Fld := ⟨0xF0C00, 0x0, 0x0, 15, 0⟩
/-- ACQ_MAPCH0.CH [31:0]. -/
def ACQ_MAPCH0_CH : Fld := ⟨0xF0C04, 0x0, 0x0, 31, 0⟩
/-- ACQ_MAPCTL.CLR [1:1]. -/
def ACQ_MAPCTL_CLR : Fld := ⟨0xF0C08, 0x0, 0x0, 1, 1⟩
/-- ACQ_MAPCTL.SNAP [0:0]. -/
def ACQ_MAPCTL_SNAP : Fld := ⟨0xF0C08, 0x0, 0x0, 0, 0⟩
/-- ACQ_MAPSTAT.PAUSED [31:31]. -/
def ACQ_MAPSTAT_PAUSED : Fld := ⟨0xF0C0C, 0x0, 0x0, 31, 31⟩
/-- ACQ_MAPSTAT.BUSY [30:30]. -/
def ACQ_MAPSTAT_BUSY : Fld := ⟨0xF0C0C, 0x0, 0x0, 30, 30⟩
/-- ACQ_MAPSTAT.SNAPPAGE [11:0]. -/
def ACQ_MAPSTAT_SNAPPAGE : Fld := ⟨0xF0C0C, 0x0, 0x0, 11, 0⟩
/-- ACQ_MAPCH1.CH [31:0]. -/
def ACQ_MAPCH1_CH : Fld := ⟨0xF0C10, 0x0, 0x0, 31, 0⟩
/-- ACQ_RCTL.FORCE [2:2]. -/
def ACQ_RCTL_FORCE : Fld := ⟨0xF1000, 0x100, 0x0, 2, 2⟩
/-- ACQ_RCTL.STOP [1:1]. -/
def ACQ_RCTL_STOP : Fld := ⟨0xF1000, 0x100, 0x0, 1, 1⟩
/-- ACQ_RCTL.ARM [0:0]. -/
def ACQ_RCTL_ARM : Fld := ⟨0xF1000, 0x100, 0x0, 0, 0⟩
/-- ACQ_RSTAT.STATE [31:29]. -/
def ACQ_RSTAT_STATE : Fld := ⟨0xF1004, 0x100, 0x0, 31, 29⟩
/-- ACQ_RSTAT.DONE [28:28]. -/
def ACQ_RSTAT_DONE : Fld := ⟨0xF1004, 0x100, 0x0, 28, 28⟩
/-- ACQ_RSTAT.ABORTED [27:27]. -/
def ACQ_RSTAT_ABORTED : Fld := ⟨0xF1004, 0x100, 0x0, 27, 27⟩
/-- ACQ_RSTAT.RECORDS [15:0]. -/
def ACQ_RSTAT_RECORDS : Fld := ⟨0xF1004, 0x100, 0x0, 15, 0⟩
/-- ACQ_RCFG.MODE [31:30]. -/
def ACQ_RCFG_MODE : Fld := ⟨0xF1008, 0x100, 0x0, 31, 30⟩
/-- ACQ_RCFG.KEEP [29:29]. -/
def ACQ_RCFG_KEEP : Fld := ⟨0xF1008, 0x100, 0x0, 29, 29⟩
/-- ACQ_RCFG.COUNT [23:16]. -/
def ACQ_RCFG_COUNT : Fld := ⟨0xF1008, 0x100, 0x0, 23, 16⟩
/-- ACQ_RCFG.STREAMS [6:0]. -/
def ACQ_RCFG_STREAMS : Fld := ⟨0xF1008, 0x100, 0x0, 6, 0⟩
/-- ACQ_RCH.CH [23:0]. -/
def ACQ_RCH_CH : Fld := ⟨0xF100C, 0x100, 0x0, 23, 0⟩
/-- ACQ_RVCH.VCNT [26:16]. -/
def ACQ_RVCH_VCNT : Fld := ⟨0xF1010, 0x100, 0x0, 26, 16⟩
/-- ACQ_RVCH.VFIRST [9:0]. -/
def ACQ_RVCH_VFIRST : Fld := ⟨0xF1010, 0x100, 0x0, 9, 0⟩
/-- ACQ_RPRE.PRE [31:0]. -/
def ACQ_RPRE_PRE : Fld := ⟨0xF1014, 0x100, 0x0, 31, 0⟩
/-- ACQ_RPOST.POST [31:0]. -/
def ACQ_RPOST_POST : Fld := ⟨0xF1018, 0x100, 0x0, 31, 0⟩
/-- ACQ_RRED.BK [31:27]. -/
def ACQ_RRED_BK : Fld := ⟨0xF101C, 0x100, 0x0, 31, 27⟩
/-- ACQ_RRED.CYCSRC [26:26]. -/
def ACQ_RRED_CYCSRC : Fld := ⟨0xF101C, 0x100, 0x0, 26, 26⟩
/-- ACQ_RRED.CYCCH [25:21]. -/
def ACQ_RRED_CYCCH : Fld := ⟨0xF101C, 0x100, 0x0, 25, 21⟩
/-- ACQ_RRED.NCYC [19:0]. -/
def ACQ_RRED_NCYC : Fld := ⟨0xF101C, 0x100, 0x0, 19, 0⟩
/-- ACQ_RCOMB.FUNC [31:30]. -/
def ACQ_RCOMB_FUNC : Fld := ⟨0xF1020, 0x100, 0x0, 31, 30⟩
/-- ACQ_RCOMB.ENA [29:26]. -/
def ACQ_RCOMB_ENA : Fld := ⟨0xF1020, 0x100, 0x0, 29, 26⟩
/-- ACQ_RCOMB.WIN [25:0]. -/
def ACQ_RCOMB_WIN : Fld := ⟨0xF1020, 0x100, 0x0, 25, 0⟩
/-- ACQ_RHOLD.HOLDOFF [31:0]. -/
def ACQ_RHOLD_HOLDOFF : Fld := ⟨0xF1024, 0x100, 0x0, 31, 0⟩
/-- ACQ_RTRG0.KIND [31:28]. -/
def ACQ_RTRG0_KIND : Fld := ⟨0xF1040, 0x100, 0x8, 31, 28⟩
/-- ACQ_RTRG0.EDGE [27:26]. -/
def ACQ_RTRG0_EDGE : Fld := ⟨0xF1040, 0x100, 0x8, 27, 26⟩
/-- ACQ_RTRG0.UPPER [25:25]. -/
def ACQ_RTRG0_UPPER : Fld := ⟨0xF1040, 0x100, 0x8, 25, 25⟩
/-- ACQ_RTRG0.SRC [9:0]. -/
def ACQ_RTRG0_SRC : Fld := ⟨0xF1040, 0x100, 0x8, 9, 0⟩
/-- ACQ_RTRG1.ARG [31:0]. -/
def ACQ_RTRG1_ARG : Fld := ⟨0xF1044, 0x100, 0x8, 31, 0⟩
/-- ACQ_RTRIG.PERIOD [31:0]. -/
def ACQ_RTRIG_PERIOD : Fld := ⟨0xF1060, 0x100, 0x0, 31, 0⟩
/-- ACQ_RTPOS.COND [31:30]. -/
def ACQ_RTPOS_COND : Fld := ⟨0xF1064, 0x100, 0x0, 31, 30⟩
/-- ACQ_RTPOS.QUAL [29:28]. -/
def ACQ_RTPOS_QUAL : Fld := ⟨0xF1064, 0x100, 0x0, 29, 28⟩
/-- ACQ_RTPOS.J [25:16]. -/
def ACQ_RTPOS_J : Fld := ⟨0xF1064, 0x100, 0x0, 25, 16⟩
/-- ACQ_RTPOS.TOFS [11:0]. -/
def ACQ_RTPOS_TOFS : Fld := ⟨0xF1064, 0x100, 0x0, 11, 0⟩
/-- ACQ_RLAST.RECID [31:0]. -/
def ACQ_RLAST_RECID : Fld := ⟨0xF1068, 0x100, 0x0, 31, 0⟩
/-- ACQ_MTAB.WORD [31:0]. -/
def ACQ_MTAB_WORD : Fld := ⟨0xF4000, 0x400, 0x4, 31, 0⟩
/-- ACQ_VCH.WORD [31:0]. -/
def ACQ_VCH_WORD : Fld := ⟨0xF8000, 0x4, 0x0, 31, 0⟩
/-- ACQ_DIR.WORD [31:0]. -/
def ACQ_DIR_WORD : Fld := ⟨0xF9000, 0x8, 0x4, 31, 0⟩
/-- SEC_STATE.LCS [18:16]. -/
def SEC_STATE_LCS : Fld := ⟨0xFC000, 0x0, 0x0, 18, 16⟩
/-- SEC_STATE.SLOT [8:8]. -/
def SEC_STATE_SLOT : Fld := ⟨0xFC000, 0x0, 0x0, 8, 8⟩
/-- SEC_STATE.HSTATE [3:0]. -/
def SEC_STATE_HSTATE : Fld := ⟨0xFC000, 0x0, 0x0, 3, 0⟩
/-- SEC_RSTCAUSE.CAUSE [7:0]. -/
def SEC_RSTCAUSE_CAUSE : Fld := ⟨0xFC004, 0x0, 0x0, 7, 0⟩
/-- SEC_BOOTSTAT.B [7:4]. -/
def SEC_BOOTSTAT_B : Fld := ⟨0xFC008, 0x0, 0x0, 7, 4⟩
/-- SEC_BOOTSTAT.A [3:0]. -/
def SEC_BOOTSTAT_A : Fld := ⟨0xFC008, 0x0, 0x0, 3, 0⟩
/-- SEC_IMGSEQ.SEQ [31:0]. -/
def SEC_IMGSEQ_SEQ : Fld := ⟨0xFC00C, 0x0, 0x0, 31, 0⟩
/-- SEC_SVN.OTP [22:16]. -/
def SEC_SVN_OTP : Fld := ⟨0xFC010, 0x0, 0x0, 22, 16⟩
/-- SEC_SVN.IMAGE [6:0]. -/
def SEC_SVN_IMAGE : Fld := ⟨0xFC010, 0x0, 0x0, 6, 0⟩
/-- SEC_BOOTSEL.ONESHOT [1:1]. -/
def SEC_BOOTSEL_ONESHOT : Fld := ⟨0xFC014, 0x0, 0x0, 1, 1⟩
/-- SEC_BOOTSEL.SLOT [0:0]. -/
def SEC_BOOTSEL_SLOT : Fld := ⟨0xFC014, 0x0, 0x0, 0, 0⟩
/-- SEC_RESET.GO [0:0]. -/
def SEC_RESET_GO : Fld := ⟨0xFC018, 0x0, 0x0, 0, 0⟩
/-- SEC_LCREQ.TARGET [2:0]. -/
def SEC_LCREQ_TARGET : Fld := ⟨0xFC020, 0x0, 0x0, 2, 0⟩
/-- SEC_KEYOP.OP [31:28]. -/
def SEC_KEYOP_OP : Fld := ⟨0xFC028, 0x0, 0x0, 31, 28⟩
/-- SEC_KEYOP.SLOT [1:0]. -/
def SEC_KEYOP_SLOT : Fld := ⟨0xFC028, 0x0, 0x0, 1, 0⟩
/-- SEC_KEYSTAT.BUSY [31:31]. -/
def SEC_KEYSTAT_BUSY : Fld := ⟨0xFC030, 0x0, 0x0, 31, 31⟩
/-- SEC_KEYSTAT.FAIL [30:30]. -/
def SEC_KEYSTAT_FAIL : Fld := ⟨0xFC030, 0x0, 0x0, 30, 30⟩
/-- SEC_KEYSTAT.OKREV [15:12]. -/
def SEC_KEYSTAT_OKREV : Fld := ⟨0xFC030, 0x0, 0x0, 15, 12⟩
/-- SEC_KEYSTAT.OKPROV [11:8]. -/
def SEC_KEYSTAT_OKPROV : Fld := ⟨0xFC030, 0x0, 0x0, 11, 8⟩
/-- SEC_KEYSTAT.IKREV [7:6]. -/
def SEC_KEYSTAT_IKREV : Fld := ⟨0xFC030, 0x0, 0x0, 7, 6⟩
/-- SEC_KEYSTAT.IKPROV [5:4]. -/
def SEC_KEYSTAT_IKPROV : Fld := ⟨0xFC030, 0x0, 0x0, 5, 4⟩
/-- SEC_KEYSTAT.NKPROV [1:0]. -/
def SEC_KEYSTAT_NKPROV : Fld := ⟨0xFC030, 0x0, 0x0, 1, 0⟩
/-- SEC_WIPE.DONE [31:31]. -/
def SEC_WIPE_DONE : Fld := ⟨0xFC034, 0x0, 0x0, 31, 31⟩
/-- SEC_WIPE.RETIRED [4:0]. -/
def SEC_WIPE_RETIRED : Fld := ⟨0xFC034, 0x0, 0x0, 4, 0⟩
/-- SEC_RESIGN.LEFT [31:16]. -/
def SEC_RESIGN_LEFT : Fld := ⟨0xFC040, 0x0, 0x0, 31, 16⟩
/-- SEC_RESIGN.NOTO [15:15]. -/
def SEC_RESIGN_NOTO : Fld := ⟨0xFC040, 0x0, 0x0, 15, 15⟩
/-- SEC_RESIGN.CAUSE [7:0]. -/
def SEC_RESIGN_CAUSE : Fld := ⟨0xFC040, 0x0, 0x0, 7, 0⟩
/-- SEC_RELEASE.GO [0:0]. -/
def SEC_RELEASE_GO : Fld := ⟨0xFC044, 0x0, 0x0, 0, 0⟩
/-- SEC_RESIGNTO.SEC [15:0]. -/
def SEC_RESIGNTO_SEC : Fld := ⟨0xFC048, 0x0, 0x0, 15, 0⟩
/-- SEC_FSUM.VALID [31:31]. -/
def SEC_FSUM_VALID : Fld := ⟨0xFC04C, 0x0, 0x0, 31, 31⟩
/-- SEC_FSUM.BOOT [30:0]. -/
def SEC_FSUM_BOOT : Fld := ⟨0xFC04C, 0x0, 0x0, 30, 0⟩
/-- SEC_ATTCMD.GO [0:0]. -/
def SEC_ATTCMD_GO : Fld := ⟨0xFC050, 0x0, 0x0, 0, 0⟩
/-- SEC_ATTSTAT.BUSY [1:1]. -/
def SEC_ATTSTAT_BUSY : Fld := ⟨0xFC054, 0x0, 0x0, 1, 1⟩
/-- SEC_ATTSTAT.DONE [0:0]. -/
def SEC_ATTSTAT_DONE : Fld := ⟨0xFC054, 0x0, 0x0, 0, 0⟩
/-- SEC_TAMPER.TEMP [2:2]. -/
def SEC_TAMPER_TEMP : Fld := ⟨0xFC058, 0x0, 0x0, 2, 2⟩
/-- SEC_TAMPER.CLOCK [1:1]. -/
def SEC_TAMPER_CLOCK : Fld := ⟨0xFC058, 0x0, 0x0, 1, 1⟩
/-- SEC_TAMPER.SUPPLY [0:0]. -/
def SEC_TAMPER_SUPPLY : Fld := ⟨0xFC058, 0x0, 0x0, 0, 0⟩
/-- SEC_BOOTCNT.CNT [31:0]. -/
def SEC_BOOTCNT_CNT : Fld := ⟨0xFC05C, 0x0, 0x0, 31, 0⟩
/-- SEC_ATTNONCE.NONCE [31:0]. -/
def SEC_ATTNONCE_NONCE : Fld := ⟨0xFC060, 0x4, 0x0, 31, 0⟩
/-- SEC_NVMCTL.CMD [31:30]. -/
def SEC_NVMCTL_CMD : Fld := ⟨0xFC080, 0x0, 0x0, 31, 30⟩
/-- SEC_NVMCTL.ADDR [25:0]. -/
def SEC_NVMCTL_ADDR : Fld := ⟨0xFC080, 0x0, 0x0, 25, 0⟩
/-- SEC_NVMSTAT.ERR [1:1]. -/
def SEC_NVMSTAT_ERR : Fld := ⟨0xFC084, 0x0, 0x0, 1, 1⟩
/-- SEC_NVMSTAT.BUSY [0:0]. -/
def SEC_NVMSTAT_BUSY : Fld := ⟨0xFC084, 0x0, 0x0, 0, 0⟩
/-- SEC_KEYBUF.WORD [31:0]. -/
def SEC_KEYBUF_WORD : Fld := ⟨0xFC100, 0x4, 0x0, 31, 0⟩
/-- SEC_NVMBUF.WORD [31:0]. -/
def SEC_NVMBUF_WORD : Fld := ⟨0xFC200, 0x4, 0x0, 31, 0⟩
/-- SEC_ATT.WORD [31:0]. -/
def SEC_ATT_WORD : Fld := ⟨0xFD000, 0x4, 0x0, 31, 0⟩
/-- SEC_DEVID.WORD [31:0]. -/
def SEC_DEVID_WORD : Fld := ⟨0xFE000, 0x4, 0x0, 31, 0⟩

end F

/-- The register blocks of R453, and the shared capture window. -/
inductive Block where
  | sys | evt | clk | thm | adc | cmp | ce | mvs | iso | lvs | gdi | dml | cell | red | saf | net | acq | sec | window
  deriving DecidableEq, Repr

/-- The block an address falls in (R453). -/
def blockOf (a : Nat) : Option Block :=
  if a ≤ 0xFFFF then some .sys else
  if a ≤ 0x1FFFF then some .evt else
  if a ≤ 0x27FFF then some .clk else
  if a ≤ 0x2FFFF then some .thm else
  if a ≤ 0x33FFF then some .adc else
  if a ≤ 0x3FFFF then some .cmp else
  if a ≤ 0x5FFFF then some .ce else
  if a ≤ 0x6FFFF then some .mvs else
  if a ≤ 0x7FFFF then some .iso else
  if a ≤ 0x87FFF then some .lvs else
  if a ≤ 0x8FFFF then some .gdi else
  if a ≤ 0xAFFFF then some .dml else
  if a ≤ 0xCFFFF then some .cell else
  if a ≤ 0xD7FFF then some .red else
  if a ≤ 0xDFFFF then some .saf else
  if a ≤ 0xEFFFF then some .net else
  if a ≤ 0xFBFFF then some .acq else
  if a ≤ 0xFFFFF then some .sec else
  if 0x10000000 ≤ a ∧ a ≤ 0x13FFFFFF then some .window else none

/-- The register families of each block, in ascending address order of their first instance. -/
def rowsOf : Block → List Row
  | .sys => [R.SYS_ID, R.SYS_THAW, R.SYS_GSTAT, R.SYS_WRSTAT, R.SYS_TXN, R.SYS_TXNSTAT, R.SYS_TXNCELL, R.SYS_TXNACT, R.SYS_TXNCFG, R.SYS_CFGREF, R.SYS_CFGCRC, R.SYS_CFGSTAT, R.SYS_FREEZE, R.SYS_FRZSTAT, R.SYS_FRZPER, R.SYS_PERIODLO, R.SYS_PERIODHI, R.SYS_FRZ]
  | .evt => [R.EVT_CTRL, R.EVT_LOGWP, R.EVT_LOGSEQ, R.EVT_LOGSTAT, R.EVT_IRQMASK, R.EVT_IRQSTAT, R.EVT_CNTCLR, R.EVT_DERATE, R.EVT_EN, R.EVT_PEND, R.EVT_ACT, R.EVT_CFG, R.EVT_CNT]
  | .clk => [R.CLK_CFG, R.CLK_STAT, R.CLK_ALARM, R.CLK_MONCFG, R.CLK_CSTEER, R.CLK_RTCLO, R.CLK_RTCHI, R.CLK_OUTCFG, R.CLK_OUTSTAT]
  | .thm => [R.THM_DIECFG0, R.THM_DIECFG1, R.THM_STAT, R.THM_SRCSTAT, R.THM_LEVEL, R.THM_LIMSRC, R.THM_CELLCFG, R.THM_DIERD, R.THM_EXTCFG, R.THM_EXTTHR, R.THM_EXTSH, R.THM_EXTRD, R.THM_CELLLVL]
  | .adc => [R.ADC_CTRL, R.ADC_STAT, R.ADC_FBUFCFG, R.ADC_FBUFWP, R.ADC_HKBUFCFG, R.ADC_HKBUFWP, R.ADC_HKCFG, R.ADC_TESTCTL, R.ADC_TESTSTAT, R.ADC_TESTTOL, R.ADC_FCFG, R.ADC_FOFS, R.ADC_FSCALE, R.ADC_FLIM, R.ADC_FSUB, R.ADC_FRES, R.ADC_FVAL, R.ADC_FERR, R.ADC_HKENT, R.ADC_HCFG, R.ADC_HSCALE, R.ADC_HLIM, R.ADC_HRES]
  | .cmp => [R.CMP_CFG, R.CMP_THR, R.CMP_STAT, R.CMP_CAPU, R.CMP_CAPL, R.CMP_CNT, R.CMP_AONCFG, R.CMP_AONSTAT, R.CMP_WAKECTL]
  | .ce => [R.CE_CFG, R.CE_SCHED, R.CE_SPATH, R.CE_DLCNT, R.CE_SLACK, R.CE_SLSTAT, R.CE_ECCCNT, R.CE_SATCNT, R.CE_SATLAST, R.CE_LOOPEN, R.CE_CLR, R.CE_ARBCFG, R.CE_ARBSTAT, R.CE_ARBOUT, R.CE_ARBCHG, R.CE_SP, R.CE_TRCFG, R.CE_TRCTRL, R.CE_TRTRIG, R.CE_TRSTAT, R.CE_TRSEL, R.CE_TRPER, R.CE_OUT, R.CE_TRWIN, R.CE_COEF, R.CE_INSTR, R.CE_INSTW]
  | .mvs => [R.MVS_CFG, R.MVS_STOP, R.MVS_NETOFS, R.MVS_STAT, R.MVS_GCFG, R.MVS_GSTAT, R.MVS_GTGT, R.MVS_SWCNT, R.MVS_CELL]
  | .iso => [R.ISO_CFG, R.ISO_LIM, R.ISO_PRE, R.ISO_THM, R.ISO_MON, R.ISO_STAT, R.ISO_REVCNT, R.ISO_GSTAT, R.ISO_CELL0, R.ISO_CELL1]
  | .lvs => [R.LVS_GCFG, R.LVS_STAT, R.LVS_FORCE0, R.LVS_FORCE1, R.LVS_FORCE2, R.LVS_FORCEGO, R.LVS_TRIPCFG, R.LVS_TRIPSCOPE, R.LVS_TRIPSTAT, R.LVS_TRIPSW, R.LVS_USE, R.LVS_CHOPCFG, R.LVS_CHOPTAU, R.LVS_CHOPE, R.LVS_CFG, R.LVS_PER, R.LVS_CMP, R.LVS_OFS, R.LVS_DT, R.LVS_PWM_STAT, R.LVS_REJCNT, R.LVS_DTB]
  | .gdi => [R.GDI_CFG, R.GDI_FLT, R.GDI_CLRSTAT, R.GDI_HOLD, R.GDI_HOLDREL, R.GDI_FIRST, R.GDI_CTCNT, R.GDI_PUCFG, R.GDI_PUPWM, R.GDI_PUSRC, R.GDI_PUSTART, R.GDI_PUTIM, R.GDI_PUVLIM0, R.GDI_PUVLIM1, R.GDI_PUOC, R.GDI_PUCTRL, R.GDI_PUSTAT, R.GDI_PUVM, R.GDI_PUDIAG, R.GDI_RETRYCFG, R.GDI_RETRYSTAT, R.GDI_RETRYCLR, R.GDI_PCFG, R.GDI_RCFG, R.GDI_FSCOPE, R.GDI_TS]
  | .dml => [R.DML_CTRL, R.DML_STAT, R.DML_CFG, R.DML_RTT, R.DML_CODEERR, R.DML_FLAKES, R.DML_GLATE, R.DML_EQ, R.DML_EQTB, R.DML_HALOCTRL, R.DML_HALOSTAT, R.DML_HALOMASK, R.DML_HALOTIME, R.DML_OFFSA, R.DML_OFFSB, R.DML_HALO, R.DML_QSTAT]
  | .cell => [R.CELL_ENTRY0, R.CELL_ENTRYW, R.CELL_ENTRYH, R.CELL_CTRL, R.CELL_STAT, R.CELL_ERR, R.CELL_IDLO, R.CELL_IDHI, R.CELL_PROF, R.CELL_MREC, R.CELL_CREC, R.CELL_PRM, R.CELL_GCTRL, R.CELL_GCFG, R.CELL_QSTAT, R.CELL_GRP]
  | .red => [R.RED_MODE, R.RED_STAT, R.RED_CFG, R.RED_CTRL, R.RED_ALIGN, R.RED_XSCHED, R.RED_TOVER, R.RED_GAP, R.RED_CNT, R.RED_DIVCNT, R.RED_XERR, R.RED_TCFG, R.RED_SWAPAGE, R.RED_SLSTAT, R.RED_VOTE, R.RED_VOTEITEM]
  | .saf => [R.SAF_CTRL, R.SAF_STAT, R.SAF_WOCAUSE, R.SAF_WOTIME, R.SAF_TPCFG, R.SAF_TGGLOB, R.SAF_INSTAT, R.SAF_CHAN, R.SAF_INCFG, R.SAF_TGCFG, R.SAF_TGSTAT, R.SAF_TGSEQ, R.SAF_TGCNT]
  | .net => [R.NET_CTRL, R.NET_STAT, R.NET_TIMELO, R.NET_TIMEHI, R.NET_UTCOFS, R.NET_PTPCFG, R.NET_PTPCTL, R.NET_PTPSTAT, R.NET_FREQ, R.NET_PLCFG, R.NET_PLSTAT, R.NET_RAPCFG, R.NET_RAPSTAT, R.NET_RAPERR, R.NET_DCFG, R.NET_DSTAT, R.NET_DGMLO, R.NET_DGMHI, R.NET_DOFS, R.NET_DPDLY, R.NET_DERR, R.NET_DJUMP, R.NET_PCFG, R.NET_MACLO, R.NET_MACHI, R.NET_IP, R.NET_TXCOR, R.NET_RXCOR, R.NET_ASYM, R.NET_PSTAT, R.NET_RXCNT, R.NET_TOUTCFG, R.NET_TOUTTGT, R.NET_TOUTPER, R.NET_TOUTW, R.NET_TOUTCTL, R.NET_TOUTSTAT, R.NET_TOUTLAST, R.NET_GPCFG, R.NET_GPTIM, R.NET_GPST, R.NET_GPSQ, R.NET_GSUBW, R.NET_GSUBR, R.NET_SVSUBW, R.NET_SVSUBR, R.NET_MAPW, R.NET_MAP3, R.NET_GPEL]
  | .acq => [R.ACQ_CFG, R.ACQ_STAT, R.ACQ_CALCTRL, R.ACQ_CALSTAT, R.ACQ_POOL, R.ACQ_EVCNT, R.ACQ_RECID, R.ACQ_DIRCTL, R.ACQ_DIRARG, R.ACQ_SKEW, R.ACQ_FDOFS, R.ACQ_FD, R.ACQ_WMAP, R.ACQ_WSTAT, R.ACQ_MCFG, R.ACQ_MCNT, R.ACQ_MFIRST, R.ACQ_MAPCFG, R.ACQ_MAPCH0, R.ACQ_MAPCTL, R.ACQ_MAPSTAT, R.ACQ_MAPCH1, R.ACQ_RCTL, R.ACQ_RSTAT, R.ACQ_RCFG, R.ACQ_RCH, R.ACQ_RVCH, R.ACQ_RPRE, R.ACQ_RPOST, R.ACQ_RRED, R.ACQ_RCOMB, R.ACQ_RHOLD, R.ACQ_RTRG0, R.ACQ_RTRG1, R.ACQ_RTRIG, R.ACQ_RTPOS, R.ACQ_RLAST, R.ACQ_MTAB, R.ACQ_VCH, R.ACQ_DIR]
  | .sec => [R.SEC_STATE, R.SEC_RSTCAUSE, R.SEC_BOOTSTAT, R.SEC_IMGSEQ, R.SEC_SVN, R.SEC_BOOTSEL, R.SEC_RESET, R.SEC_LCREQ, R.SEC_KEYOP, R.SEC_KEYSTAT, R.SEC_WIPE, R.SEC_RESIGN, R.SEC_RELEASE, R.SEC_RESIGNTO, R.SEC_FSUM, R.SEC_ATTCMD, R.SEC_ATTSTAT, R.SEC_TAMPER, R.SEC_BOOTCNT, R.SEC_ATTNONCE, R.SEC_NVMCTL, R.SEC_NVMSTAT, R.SEC_KEYBUF, R.SEC_NVMBUF, R.SEC_ATT, R.SEC_DEVID]
  | .window => []

/-- The instance of a family at an address, if the address is one of its words. -/
def Row.indexOf (r : Row) (a : Nat) : Option (Nat × Nat) :=
  if a < r.base then none else
  let d := a - r.base
  let i := if r.n1 ≤ 1 then 0 else d / r.s1
  let e := d - r.s1 * i
  let j := if r.n2 ≤ 1 then 0 else e / r.s2
  if i < r.n1 ∧ j < r.n2 ∧ d = r.s1 * i + r.s2 * j then some (i, j) else none

/-- The family whose instance lies at an address, with the instance. -/
def findIn : List Row → Nat → Option (Row × Nat × Nat)
  | [], _ => none
  | r :: rs, a => match r.indexOf a with
    | some ij => some (r, ij)
    | none => findIn rs a

/-- The register family at an address (R454). -/
def findRow (a : Nat) : Option (Row × Nat × Nat) :=
  match blockOf a with
  | some b => findIn (rowsOf b) a
  | none => none

end Sys2Proof.Machine
end

