-- ==== Sys2Proof/Machine/Events.lean ====
section
/-! DEFINITION. The event sources of R460: numbers, default reactions, floors, and the sources with an associated cell
(R459). -/

namespace Sys2Proof.Machine

namespace Ev
/-- EV_EVT_CNT_OVF (R460). -/
def EVT_CNT_OVF : Nat := 0
/-- EV_ERRCNT_OVF (R460). -/
def ERRCNT_OVF : Nat := 1
/-- EV_LOG_DROP (R460). -/
def LOG_DROP : Nat := 2
/-- EV_EVT_CFG_REJ (R460). -/
def EVT_CFG_REJ : Nat := 3
/-- EV_XING_PAR (R460). -/
def XING_PAR : Nat := 4
/-- EV_REG_RANGE (R460). -/
def REG_RANGE : Nat := 5
/-- EV_GUARD_REJ (R460). -/
def GUARD_REJ : Nat := 6
/-- EV_TXN_REQ (R460). -/
def TXN_REQ : Nat := 7
/-- EV_TXN_TIMEOUT (R460). -/
def TXN_TIMEOUT : Nat := 8
/-- EV_TXN_NOACK (R460). -/
def TXN_NOACK : Nat := 9
/-- EV_CFG_CRC (R460). -/
def CFG_CRC : Nat := 10
/-- EV_START_REFUSED (R460). -/
def START_REFUSED : Nat := 11
/-- EV_CELL_CFG_REJ (R460). -/
def CELL_CFG_REJ : Nat := 12
/-- EV_IMG_FALLBACK (R460). -/
def IMG_FALLBACK : Nat := 32
/-- EV_IMG_NONE (R460). -/
def IMG_NONE : Nat := 33
/-- EV_IMG_BLANK (R460). -/
def IMG_BLANK : Nat := 34
/-- EV_IMG_HDR (R460). -/
def IMG_HDR : Nat := 35
/-- EV_IMG_PART (R460). -/
def IMG_PART : Nat := 36
/-- EV_IMG_KEY (R460). -/
def IMG_KEY : Nat := 37
/-- EV_IMG_SIG_ED (R460). -/
def IMG_SIG_ED : Nat := 38
/-- EV_IMG_SIG_ML (R460). -/
def IMG_SIG_ML : Nat := 39
/-- EV_IMG_SVN (R460). -/
def IMG_SVN : Nat := 40
/-- EV_IMG_DECRYPT (R460). -/
def IMG_DECRYPT : Nat := 41
/-- EV_IMG_FORMAT (R460). -/
def IMG_FORMAT : Nat := 42
/-- EV_IMG_CONTENT (R460). -/
def IMG_CONTENT : Nat := 43
/-- EV_IMG_CFGREF (R460). -/
def IMG_CFGREF : Nat := 44
/-- EV_IMG_READ (R460). -/
def IMG_READ : Nat := 45
/-- EV_WIPE_FAULT (R460). -/
def WIPE_FAULT : Nat := 46
/-- EV_LC_MISMATCH (R460). -/
def LC_MISMATCH : Nat := 47
/-- EV_TAMPER (R460). -/
def TAMPER : Nat := 48
/-- EV_CLK_ALARM (R460). -/
def CLK_ALARM : Nat := 64
/-- EV_CLK_LATCH (R460). -/
def CLK_LATCH : Nat := 65
/-- EV_THM_WARN (R460). -/
def THM_WARN : Nat := 66
/-- EV_THM_THROTTLE (R460). -/
def THM_THROTTLE : Nat := 67
/-- EV_THM_DIE_SHUT (R460). -/
def THM_DIE_SHUT : Nat := 68
/-- EV_THM_EXT_SHUT (R460). -/
def THM_EXT_SHUT : Nat := 69
/-- EV_THM_CELL_SHUT (R460). -/
def THM_CELL_SHUT : Nat := 70
/-- EV_THM_SENSOR (R460). -/
def THM_SENSOR : Nat := 71
/-- EV_THM_BAND (R460). -/
def THM_BAND : Nat := 72
/-- EV_GATHER_LATE (R460). -/
def GATHER_LATE : Nat := 96
/-- EV_LANE_RTT (R460). -/
def LANE_RTT : Nat := 97
/-- EV_STRING_LEN (R460). -/
def STRING_LEN : Nat := 98
/-- EV_LANE_CROSSED (R460). -/
def LANE_CROSSED : Nat := 99
/-- EV_LANE_LOST (R460). -/
def LANE_LOST : Nat := 100
/-- EV_LANE_FAULT (R460). -/
def LANE_FAULT : Nat := 101
/-- EV_LANE_CODE (R460). -/
def LANE_CODE : Nat := 102
/-- EV_LANE_SKEW (R460). -/
def LANE_SKEW : Nat := 103
/-- EV_HALO_MARGIN (R460). -/
def HALO_MARGIN : Nat := 104
/-- EV_XL_LOST (R460). -/
def XL_LOST : Nat := 105
/-- EV_CELL_IDENT (R460). -/
def CELL_IDENT : Nat := 106
/-- EV_CELL_REC (R460). -/
def CELL_REC : Nat := 107
/-- EV_CELL_RANGE (R460). -/
def CELL_RANGE : Nat := 108
/-- EV_CELL_LOST (R460). -/
def CELL_LOST : Nat := 109
/-- EV_CELL_FAULT (R460). -/
def CELL_FAULT : Nat := 110
/-- EV_CELL_PRECHG (R460). -/
def CELL_PRECHG : Nat := 111
/-- EV_CELL_PARAM (R460). -/
def CELL_PARAM : Nat := 112
/-- EV_GROUP_UNDER (R460). -/
def GROUP_UNDER : Nat := 113
/-- EV_CE_DEADLINE (R460). -/
def CE_DEADLINE : Nat := 128
/-- EV_CE_SLICE_LATE (R460). -/
def CE_SLICE_LATE : Nat := 129
/-- EV_CE_ECC1 (R460). -/
def CE_ECC1 : Nat := 130
/-- EV_CE_ECC2 (R460). -/
def CE_ECC2 : Nat := 131
/-- EV_CE_SLACK (R460). -/
def CE_SLACK : Nat := 132
/-- EV_CE_SAT (R460). -/
def CE_SAT : Nat := 133
/-- EV_CE_SDIFF (R460). -/
def CE_SDIFF : Nat := 134
/-- EV_ARB_WIN (R460). -/
def ARB_WIN : Nat := 135
/-- EV_TRACE_LOST (R460). -/
def TRACE_LOST : Nat := 136
/-- EV_MV_OVM (R460). -/
def MV_OVM : Nat := 137
/-- EV_MV_TGTLIM (R460). -/
def MV_TGTLIM : Nat := 138
/-- EV_MV_RIDE (R460). -/
def MV_RIDE : Nat := 139
/-- EV_MV_SPARE (R460). -/
def MV_SPARE : Nat := 140
/-- EV_MV_NOSPARE (R460). -/
def MV_NOSPARE : Nat := 141
/-- EV_MV_STOPTO (R460). -/
def MV_STOPTO : Nat := 142
/-- EV_MV_NETPH (R460). -/
def MV_NETPH : Nat := 143
/-- EV_ISO_SAT (R460). -/
def ISO_SAT : Nat := 144
/-- EV_ISO_ZVS (R460). -/
def ISO_ZVS : Nat := 145
/-- EV_ISO_FLUX (R460). -/
def ISO_FLUX : Nat := 146
/-- EV_ISO_NOBUS (R460). -/
def ISO_NOBUS : Nat := 147
/-- EV_CE_ECC2_MASK (R460). -/
def CE_ECC2_MASK : Nat := 148
/-- EV_LV_TRIP (R460). -/
def LV_TRIP : Nat := 160
/-- EV_LV_SHOOT (R460). -/
def LV_SHOOT : Nat := 161
/-- EV_LV_SHOOT_REJ (R460). -/
def LV_SHOOT_REJ : Nat := 162
/-- EV_LV_LATE (R460). -/
def LV_LATE : Nat := 163
/-- EV_LV_CHOP_E (R460). -/
def LV_CHOP_E : Nat := 164
/-- EV_GD_FAULT (R460). -/
def GD_FAULT : Nat := 165
/-- EV_GD_READY (R460). -/
def GD_READY : Nat := 166
/-- EV_GD_NOTREADY (R460). -/
def GD_NOTREADY : Nat := 167
/-- EV_GD_CLR_REJ (R460). -/
def GD_CLR_REJ : Nat := 168
/-- EV_PU_FAULT (R460). -/
def PU_FAULT : Nat := 169
/-- EV_PU_LATCH (R460). -/
def PU_LATCH : Nat := 170
/-- EV_PU_BRAKE (R460). -/
def PU_BRAKE : Nat := 171
/-- EV_CHOP_LATCH (R460). -/
def CHOP_LATCH : Nat := 172
/-- EV_ADC_LATE (R460). -/
def ADC_LATE : Nat := 192
/-- EV_ADC_RANGE (R460). -/
def ADC_RANGE : Nat := 193
/-- EV_ADC_TEST (R460). -/
def ADC_TEST : Nat := 194
/-- EV_HK_SEQ (R460). -/
def HK_SEQ : Nat := 195
/-- EV_HK_RANGE (R460). -/
def HK_RANGE : Nat := 196
/-- EV_HK_TO (R460). -/
def HK_TO : Nat := 197
/-- EV_AON_WAKE (R460). -/
def AON_WAKE : Nat := 198
/-- EV_CMP_U0 (R460). -/
def CMP_U0 : Nat := 224
/-- EV_CMP_L0 (R460). -/
def CMP_L0 : Nat := 240
/-- EV_RED_RESIGN (R460). -/
def RED_RESIGN : Nat := 256
/-- EV_RED_TAKEOVER (R460). -/
def RED_TAKEOVER : Nat := 257
/-- EV_RED_NOTAKE (R460). -/
def RED_NOTAKE : Nat := 258
/-- EV_RED_PEER (R460). -/
def RED_PEER : Nat := 259
/-- EV_RED_ALIGN (R460). -/
def RED_ALIGN : Nat := 260
/-- EV_RED_DIVERGE (R460). -/
def RED_DIVERGE : Nat := 261
/-- EV_RED_SWAP (R460). -/
def RED_SWAP : Nat := 262
/-- EV_RED_SWAPDUE (R460). -/
def RED_SWAPDUE : Nat := 263
/-- EV_RED_MINORITY (R460). -/
def RED_MINORITY : Nat := 264
/-- EV_RED_REINT (R460). -/
def RED_REINT : Nat := 265
/-- EV_RED_SLICEFAIL (R460). -/
def RED_SLICEFAIL : Nat := 266
/-- EV_XL_DOWN (R460). -/
def XL_DOWN : Nat := 267
/-- EV_SAF_WHITEOUT (R460). -/
def SAF_WHITEOUT : Nat := 288
/-- EV_SAF_DEMAND (R460). -/
def SAF_DEMAND : Nat := 289
/-- EV_SAF_TPFAIL (R460). -/
def SAF_TPFAIL : Nat := 290
/-- EV_SAF_DISC (R460). -/
def SAF_DISC : Nat := 291
/-- EV_SAF_TG_TRIP (R460). -/
def SAF_TG_TRIP : Nat := 292
/-- EV_SAF_TG_DISAGREE (R460). -/
def SAF_TG_DISAGREE : Nat := 293
/-- EV_SAF_TG_WDT (R460). -/
def SAF_TG_WDT : Nat := 294
/-- EV_SAF_TG_SINGLE (R460). -/
def SAF_TG_SINGLE : Nat := 295
/-- EV_SAF_TG_BAD (R460). -/
def SAF_TG_BAD : Nat := 296
/-- EV_SAF_LOGIC (R460). -/
def SAF_LOGIC : Nat := 297
/-- EV_SAF_RST_REJ (R460). -/
def SAF_RST_REJ : Nat := 298
/-- EV_NET_LINK (R460). -/
def NET_LINK : Nat := 320
/-- EV_NET_POLICE (R460). -/
def NET_POLICE : Nat := 321
/-- EV_PTP_MSG (R460). -/
def PTP_MSG : Nat := 322
/-- EV_PTP_STEP (R460). -/
def PTP_STEP : Nat := 323
/-- EV_PTP_FREQLIM (R460). -/
def PTP_FREQLIM : Nat := 324
/-- EV_PTP_LOCK (R460). -/
def PTP_LOCK : Nat := 325
/-- EV_PTP_SWITCH (R460). -/
def PTP_SWITCH : Nat := 326
/-- EV_PTP_HOLD (R460). -/
def PTP_HOLD : Nat := 327
/-- EV_PTP_ASYM (R460). -/
def PTP_ASYM : Nat := 328
/-- EV_PTP_JUMP (R460). -/
def PTP_JUMP : Nat := 329
/-- EV_PL_LOCK (R460). -/
def PL_LOCK : Nat := 330
/-- EV_TOUT_LATE (R460). -/
def TOUT_LATE : Nat := 331
/-- EV_GOOSE_CFG (R460). -/
def GOOSE_CFG : Nat := 332
/-- EV_GOOSE_TO (R460). -/
def GOOSE_TO : Nat := 333
/-- EV_SV_CFG (R460). -/
def SV_CFG : Nat := 334
/-- EV_SV_GAP (R460). -/
def SV_GAP : Nat := 335
/-- EV_SV_AGE (R460). -/
def SV_AGE : Nat := 336
/-- EV_NET_RANGE (R460). -/
def NET_RANGE : Nat := 337
/-- EV_RAP_AUTH (R460). -/
def RAP_AUTH : Nat := 338
/-- EV_RAP_SESSION (R460). -/
def RAP_SESSION : Nat := 339
/-- EV_ACQ_TRIG (R460). -/
def ACQ_TRIG : Nat := 352
/-- EV_ACQ_MASK (R460). -/
def ACQ_MASK : Nat := 353
/-- EV_ACQ_NOPAGE (R460). -/
def ACQ_NOPAGE : Nat := 354
/-- EV_ACQ_TRUNC (R460). -/
def ACQ_TRUNC : Nat := 355
/-- EV_ACQ_OVRUN (R460). -/
def ACQ_OVRUN : Nat := 356
/-- EV_ACQ_CAL (R460). -/
def ACQ_CAL : Nat := 357
/-- EV_ACQ_FDLIM (R460). -/
def ACQ_FDLIM : Nat := 358
/-- EV_ACQ_DIRFULL (R460). -/
def ACQ_DIRFULL : Nat := 359
end Ev

/-- One run of consecutive sources with one default reaction and one floor (R460). -/
structure EvRun where
  first : Nat
  last : Nat
  react : Nat
  floor : Nat
  deriving DecidableEq, Repr

/-- The defined sources of R460, by rising number. -/
def evRuns : List EvRun := [
  ⟨0, 1, 1, 1⟩,
  ⟨2, 2, 0, 0⟩,
  ⟨3, 3, 1, 0⟩,
  ⟨4, 4, 2, 1⟩,
  ⟨5, 7, 1, 0⟩,
  ⟨8, 9, 2, 0⟩,
  ⟨10, 10, 6, 6⟩,
  ⟨11, 11, 2, 0⟩,
  ⟨12, 12, 1, 0⟩,
  ⟨32, 33, 2, 1⟩,
  ⟨34, 45, 1, 1⟩,
  ⟨46, 48, 2, 1⟩,
  ⟨64, 64, 2, 1⟩,
  ⟨65, 65, 6, 2⟩,
  ⟨66, 66, 1, 0⟩,
  ⟨67, 67, 2, 1⟩,
  ⟨68, 68, 6, 6⟩,
  ⟨69, 69, 5, 1⟩,
  ⟨70, 70, 4, 1⟩,
  ⟨71, 71, 2, 1⟩,
  ⟨72, 72, 1, 0⟩,
  ⟨96, 96, 1, 0⟩,
  ⟨97, 101, 2, 1⟩,
  ⟨102, 103, 1, 0⟩,
  ⟨104, 104, 2, 0⟩,
  ⟨105, 106, 2, 1⟩,
  ⟨107, 108, 1, 0⟩,
  ⟨109, 110, 2, 1⟩,
  ⟨111, 112, 2, 0⟩,
  ⟨113, 113, 5, 5⟩,
  ⟨128, 128, 6, 6⟩,
  ⟨129, 130, 1, 1⟩,
  ⟨131, 131, 6, 6⟩,
  ⟨132, 132, 2, 0⟩,
  ⟨133, 133, 1, 0⟩,
  ⟨134, 134, 2, 1⟩,
  ⟨135, 137, 1, 0⟩,
  ⟨138, 138, 2, 0⟩,
  ⟨139, 141, 2, 1⟩,
  ⟨142, 143, 2, 0⟩,
  ⟨144, 145, 1, 0⟩,
  ⟨146, 147, 2, 0⟩,
  ⟨148, 148, 2, 1⟩,
  ⟨160, 161, 2, 1⟩,
  ⟨162, 162, 1, 1⟩,
  ⟨163, 163, 1, 0⟩,
  ⟨164, 165, 2, 1⟩,
  ⟨166, 167, 2, 0⟩,
  ⟨168, 168, 1, 0⟩,
  ⟨169, 170, 2, 1⟩,
  ⟨171, 171, 1, 0⟩,
  ⟨172, 172, 2, 1⟩,
  ⟨192, 193, 1, 0⟩,
  ⟨194, 194, 2, 0⟩,
  ⟨195, 197, 1, 0⟩,
  ⟨198, 198, 2, 0⟩,
  ⟨224, 255, 1, 0⟩,
  ⟨256, 259, 2, 1⟩,
  ⟨260, 260, 2, 0⟩,
  ⟨261, 261, 2, 1⟩,
  ⟨262, 263, 2, 0⟩,
  ⟨264, 264, 2, 1⟩,
  ⟨265, 265, 1, 0⟩,
  ⟨266, 267, 2, 1⟩,
  ⟨288, 294, 2, 1⟩,
  ⟨295, 295, 1, 1⟩,
  ⟨296, 296, 1, 0⟩,
  ⟨297, 297, 5, 5⟩,
  ⟨298, 298, 1, 0⟩,
  ⟨320, 320, 2, 0⟩,
  ⟨321, 322, 1, 0⟩,
  ⟨323, 323, 2, 1⟩,
  ⟨324, 325, 2, 0⟩,
  ⟨326, 329, 2, 1⟩,
  ⟨330, 330, 2, 0⟩,
  ⟨331, 331, 1, 0⟩,
  ⟨332, 334, 2, 0⟩,
  ⟨335, 337, 1, 0⟩,
  ⟨338, 338, 1, 1⟩,
  ⟨339, 339, 1, 0⟩,
  ⟨352, 353, 1, 0⟩,
  ⟨354, 354, 2, 0⟩,
  ⟨355, 355, 1, 0⟩,
  ⟨356, 356, 2, 0⟩,
  ⟨357, 357, 1, 0⟩,
  ⟨358, 359, 2, 0⟩]

/-- The run a source lies in, if the source is defined. -/
def evRun (n : Nat) : Option EvRun := evRuns.find? fun r => r.first ≤ n && n ≤ r.last

/-- A source that is not in the table of R460 is reserved. -/
def evDefined (n : Nat) : Bool := (evRun n).isSome

/-- Default reaction (R460), coded as in R48. -/
def evDefault (n : Nat) : Nat := match evRun n with | some r => r.react | none => 0

/-- Floor reaction (R460, R49). -/
def evFloor (n : Nat) : Nat := match evRun n with | some r => r.floor | none => 0

/-- The sources marked * in R460: they have an associated cell (R459). -/
def evHasCell (n : Nat) : Bool := [70, 103, 106, 107, 108, 109, 110, 111, 112, 145, 146, 147].contains n

/-- The associated cell of an occurrence (R459): CTX0, or CTX0 − 0x100 for EV_THM_CELL_SHUT. -/
def evCell (n ctx0 : Nat) : Nat := if n = Ev.THM_CELL_SHUT then ctx0 - 0x100 else ctx0

/-- Enable bits of bank b as R458 leaves them: every defined source enabled. -/
def evBankEnables (b : Nat) : Nat :=
  (List.range 32).foldl (fun w j => if evDefined (32 * b + j) then w ||| (1 <<< j) else w) 0

/-- Bits of bank b that must stay enabled, because their floor is above none (R49). -/
def evBankFloors (b : Nat) : Nat :=
  (List.range 32).foldl (fun w j => if evFloor (32 * b + j) > 0 then w ||| (1 <<< j) else w) 0

/-- EVT_CFGn as R458 leaves it: the floor and default of R460, SQBURST 8, SQINT 9. -/
def evCfgReset (n : Nat) : Nat :=
  if evDefined n then (evFloor n <<< 24) ||| (9 <<< 16) ||| (8 <<< 8) ||| evDefault n
  else (9 <<< 16) ||| (8 <<< 8)

/-- What a register reads at reset before anything has written it: the reset values of the register tables, and R458 for
the event settings. -/
def resetWord (a : Nat) : Word :=
  match findRow a with
  | some (r, i, _) =>
    if r.base = R.EVT_CFG.base then BitVec.ofNat 32 (evCfgReset i)
    else if r.base = R.EVT_EN.base then BitVec.ofNat 32 (evBankEnables i)
    else BitVec.ofNat 32 r.resetWord
  | none => 0

end Sys2Proof.Machine
end

