-- ==== Sys2Proof/Machine/Sparse.lean ====
section
/-! DEFINITION. Sparse maps from Nat keys in ONE canonical form: keys strictly rising, and no entry equal to what an
unlisted key reads as. Every register file, memory and indexed bank of the model is one of these. -/

namespace Sys2Proof.Machine

/-- A sparse map, listed by rising key. -/
abbrev Sparse (α : Type) := List (Nat × α)

/-- Read a key: an unlisted key reads as `d k`. -/
def Sparse.get {α : Type} (d : Nat → α) : Sparse α → Nat → α
  | [], k => d k
  | (j, v) :: l, k => if j = k then v else Sparse.get d l k

/-- Remove a key: it reads as its default again. -/
def Sparse.erase {α : Type} (l : Sparse α) (k : Nat) : Sparse α := l.filter fun e => e.1 != k

/-- List a key at its place. -/
def Sparse.ins {α : Type} : Sparse α → Nat → α → Sparse α
  | [], k, v => [(k, v)]
  | (j, w) :: l, k, v =>
    if k < j then (k, v) :: (j, w) :: l
    else if k = j then (k, v) :: l
    else (j, w) :: Sparse.ins l k v

/-- Write a key: writing what an unlisted key reads as removes the entry. -/
def Sparse.set {α : Type} [DecidableEq α] (d : Nat → α) (l : Sparse α) (k : Nat) (v : α) : Sparse α :=
  if v = d k then Sparse.erase l k else Sparse.ins l k v

/-- The canonical form from a lower bound on the keys: strictly rising, no entry equal to its default. -/
def Sparse.wfFrom {α : Type} [DecidableEq α] (d : Nat → α) : Nat → Sparse α → Bool
  | _, [] => true
  | n, (k, v) :: l => decide (n ≤ k) && decide (v ≠ d k) && Sparse.wfFrom d (k + 1) l

/-- The canonical form. -/
def Sparse.wf {α : Type} [DecidableEq α] (d : Nat → α) (l : Sparse α) : Bool := Sparse.wfFrom d 0 l

/-- Write a run of values at consecutive keys, `stride` apart. -/
def Sparse.setRun {α : Type} [DecidableEq α] (d : Nat → α) (stride : Nat) : Sparse α → Nat → List α → Sparse α
  | l, _, [] => l
  | l, k, v :: vs => Sparse.setRun d stride (Sparse.set d l k v) (k + stride) vs

/-- Read `n` values at consecutive keys. -/
def Sparse.getRun {α : Type} (d : Nat → α) (l : Sparse α) (k n : Nat) : List α :=
  (List.range n).map fun i => Sparse.get d l (k + i)

/-- Keep only the entries whose key passes the test: every other key reads as its default again. -/
def Sparse.keep {α : Type} (p : Nat → Bool) (l : Sparse α) : Sparse α := l.filter fun e => p e.1

end Sys2Proof.Machine
end

