-- ==== Sys2Proof/Machine/State.lean ====
section
/-! DEFINITION. The state of the part: every register (one sparse file of words over the register table), the engine state
behind the registers, the memories, the fuses, the clocks, and the queue of waiting commands. -/

namespace Sys2Proof.Machine

/-! ### The event fabric (R45 to R57) -/

/-- One log entry of R54, before it is laid out in bytes. -/
structure LogEntry where
  time : Nat
  period : Nat
  ev : Nat
  react : Nat
  typ : Nat
  tvalid : Bool
  suppressed : Nat
  seq : Nat
  ctx0 : Word
  ctx1 : Word
  deriving DecidableEq, Repr

/-- Squall guard bucket of one source (R52). `last` is in CT since reset. -/
structure Bucket where
  tokens : Nat
  last : Nat
  suppressed : Nat
  ctx0 : Word
  ctx1 : Word
  deriving DecidableEq, Repr

/-- The event fabric. `raised` holds the occurrences of the current command, oldest first, until its end counts them. `regs` holds
the EVT block's registers. The three request fields hold reactions raised within the current command until the end of that command
carries them out (`settle`); `blockReq` holds the block-cell removals that the next T_OPEN carries out (R48). `derating` lists the
active sources that derate, `derateHold` the holds that run after a source cleared, each with the control tick of its start, in that
order. `nowOcc` lists the sources of the occurrences counted in the present control tick and `nowLog` counts the log entries made in
it (R51). `notifies` are the notifications that the end of the command hands to the network port: source, its count, log SEQ (R389). -/
structure Evt where
  regs : Sparse Word := []
  buckets : Sparse (Option Bucket) := []
  filledAt : Nat := 0
  queue : List LogEntry := []
  changed : List Nat := []
  blockReq : List Nat := []
  woReq : Option (Nat × Nat) := none
  resignReq : Option (Nat × Nat) := none
  raised : List (Nat × Word × Word) := []
  derating : List Nat := []
  derateHold : List (Nat × Nat) := []
  nowOcc : List Nat := []
  nowLog : Nat := 0
  notifies : List (Nat × Nat × Nat) := []
  deriving DecidableEq, Repr

/-! ### Access paths, guards, buffers and transactions (R58 to R90) -/

/-- Status codes of an access (R60). -/
inductive Code where
  | ok | nomap | ro | range | guard | txnReq | busy | full | state | abortLate
  deriving DecidableEq, Repr

/-- A buffered write: the bits of `mask` still wait for their apply points (R62). `old`: a later write of the register has replaced it,
and it only takes its place in the buffer (R64). `notAt`: its commit fell in the control tick of a reload, which does not take it (R66).
`wait`: it was accepted after the REG segment of its period had left, and waits for the next one (R329). -/
structure BufWrite where
  path : Nat
  addr : Nat
  val : Word
  mask : Word
  old : Bool := false
  notAt : Option Nat := none
  wait : Bool := false
  deriving DecidableEq, Repr

/-- A held G2 value awaiting its complement (R69). -/
structure G2Pend where
  path : Nat
  addr : Nat
  val : Word
  deriving DecidableEq, Repr

/-- Engine state of the transaction (R71 to R82); `nak` is a cell that reported a staging error, `passed` that the point of no
return lies behind it, `peer` that a standby follows the active's transaction (R82), `restage` the affected cells that went to BLOCKED while it committed (R80); what software sees of it is in the
SYS_TXN registers. -/
structure Txn where
  staged : List (Nat × Word) := []
  affected : List Nat := []
  acked : List Nat := []
  nak : Option Nat := none
  updateRef : Bool := false
  passed : Bool := false
  restage : List Nat := []
  kact : Option Nat := none
  peer : Bool := false
  deriving DecidableEq, Repr

/-- The configuration monitor (R84 to R86). -/
structure CfgMon where
  running : Bool := false
  discard : Bool := false
  refDue : Bool := false
  armed : Bool := false
  deriving DecidableEq, Repr

/-- The register bus: thawed paths, the pending G2 value, the block write buffers with the writes held behind a full
one, the apply stage of R76 with what still waits for a reload or a packet, the transaction, and the latched high words. `waiting` are the accesses (path, address, value)
that a full REG segment holds (R325). `lastRead` is the data of the last read of each path and `readCode` its
status (model's own outputs). -/
structure Bus where
  thaw : List Nat := []
  g2 : Option G2Pend := none
  buf : List BufWrite := []
  held : List BufWrite := []
  stage : List BufWrite := []
  txn : Txn := {}
  mon : CfgMon := {}
  periodHi : Sparse Word := []
  timeHi : Sparse Word := []
  rtcHi : Sparse Word := []
  waiting : List (Nat × Nat × Word) := []
  lastRead : Sparse Word := []
  deriving DecidableEq, Repr

/-! ### Fuses, the always-on domain and the non-volatile records (R116 to R134) -/

/-- One-time-programmable fuses. A key slot holds its bytes once provisioned; `revoked` slots stay provisioned. -/
structure Otp where
  lcs : Nat := 0
  owner : Sparse (List Byte) := []
  ownerRev : List Nat := []
  image : Sparse (List Byte) := []
  imageRev : List Nat := []
  svn : Nat := 0
  destroyed : Bool := false
  deriving DecidableEq, Repr

/-- The records that MRAM keeps beside the counts, the log ring and the fault summary: the life-cycle record with its
mirror, boot count and wipe-pending flag with the state it leads to (R121), the log positions and the network key area. Their byte
layout is not given. -/
structure NvRecord where
  lcMirror : Nat := 0
  wipePending : Option Nat := none
  bootCnt : Nat := 0
  logWp : Nat := 0
  logSeq : Nat := 0
  netKeys : Sparse (List Byte) := []
  deriving DecidableEq, Repr

/-- The always-on domain: it keeps its content through every reset (R116). `rtc` counts 32.768 kHz ticks. -/
structure Aon where
  tamper : Nat := 0
  tamperNew : Bool := false
  oneshot : Bool := false
  slot : Nat := 0
  cmpCfg : Sparse Word := []
  out : Nat := 0
  cause : Nat := 0
  wake : Bool := false
  rtc : Nat := 0
  deriving DecidableEq, Repr

/-- Input and board pins the head reads and is not told by another command: among them the voltage in µV between the balls of each fast
channel, as a comparator last followed it (R307); and the device on its NVM balls: its density in bytes, and whether its SFDP tables
declare what R95 asks for. -/
structure Pins where
  headsel : Bool := false
  coreGood : Bool := true
  vin : Sparse Int := []
  density : Nat := 2 ^ 26
  sfdp : Bool := true
  deriving DecidableEq, Repr

/-- Stages of the verification of one slot (R106): not started, reading the image after step 4, digest ready after
step 5, applied and awaiting the check pass (step 11), accepted. -/
inductive BootStage where
  | idle | reading | digest | applied | accepted
  deriving DecidableEq, Repr

/-- The boot process: slots still to try, the slot in verification, its stage and the wipes (R92 to R118). `mustWipe`: the staging
region is to be wiped before another slot is tried (R111). `aonWas` is the always-on domain as it was before the apply. -/
structure Boot where
  ordered : Bool := false
  todo : List Nat := []
  slot : Option Nat := none
  stage : BootStage := .idle
  fellBack : Bool := false
  digest : List Byte := []
  cfgref : Nat := 0
  sramDone : Bool := false
  dramDone : Bool := false
  stagingDone : Bool := false
  mustWipe : Bool := false
  aonWas : Option Aon := none
  deriving DecidableEq, Repr

/-- Security operations in progress (R120 to R135). `keyop` is the operation code, its slot and whether it failed;
`nvm` the flash command and its address. `lcTarget` is an accepted life-cycle target. `holdFrames` counts the
periods of block-all frames before RESIGNED (R347), `resignedAt` is the control tick of entry to RESIGNED. `imgDigest` and `okSlot` are
those of the image that was applied, none where there is none. -/
structure Sec where
  lcTarget : Option Nat := none
  keyop : Option (Nat × Nat × Bool) := none
  nvm : Option (Nat × Nat) := none
  imgDigest : List Byte := []
  okSlot : Option Nat := none
  holdFrames : Option Nat := none
  resignedAt : Nat := 0
  deriving DecidableEq, Repr

/-! ### The plant as the image declares it (R12 to R29, R37) -/

/-- Chopper quantities of R26: resistance in mΩ (0: absent) and energy rating in J. -/
structure Chop where
  res : Nat
  ej : Nat
  deriving DecidableEq, Repr

/-- The PLANT section (R12, R20, R22, R25 to R27, R462), decoded. `pairs` gives each pair's use; voltages are in
units of 0.1 V and CBUS in µF; `ratedI` in 0.1 A; `ovlim` in 0.1 V; `brake`, the resistance on BRK, in mΩ; FBASE in mHz. -/
structure Plant where
  topo : Nat := 0
  held : Bool := false
  kstart : Nat := 0
  fbase : Nat := 0
  pairs : List Nat := []
  vbusNom : Nat := 0
  vbusMax : Nat := 0
  vbusMin : Nat := 0
  cbus : Nat := 0
  chops : List Chop := []
  poles : Nat := 0
  ratedI : Nat := 0
  ovlim : Nat := 0
  brake : Nat := 0
  pumpOwn : Nat := 0
  mvdcTied : Bool := false
  refsel : Nat := 0
  refmul : Nat := 0
  deriving DecidableEq, Repr

/-- The PERIOD section (R28, R29, R32, R190, R318). -/
structure PeriodCfg where
  p : Nat := 4800
  tadv : Nat := 300
  lock : Bool := false
  mode : Nat := 0
  perf : Bool := true
  deriving DecidableEq, Repr

/-- One lane of the STRINGS section: in use, generation, far end, and per-position one-way fibre in cm; `fsb` is the
one-way fibre to a far-end head. -/
structure LaneCfg where
  used : Bool := false
  gen2 : Bool := true
  farHead : Bool := false
  fibre : List Nat := []
  fsb : Nat := 0
  deriving DecidableEq, Repr

/-- The STRINGS section, with the crosslink fibre length LXL in cm (R320). `figures` are the composer's schedule figures (R101), whose
layout is not given; the head forms its schedule by R37. -/
structure Strings where
  lanes : List LaneCfg := []
  lxl : Nat := 0
  figures : List Word := []
  deriving DecidableEq, Repr

/-- The schedule of R37 and R327, in CT. -/
structure Sched where
  tOpen : Nat := 0
  tLaunch : Nat := 0
  w : Nat := 0
  cMax : Nat := 0
  tCut : Nat := 0
  xlat : Nat := 0
  deriving DecidableEq, Repr

/-- The strings of a GOOSE control block and its confRev, from the NET section (R386). -/
structure PubId where
  gocbRef : List Byte := []
  datSet : List Byte := []
  goID : List Byte := []
  confRev : Nat := 0
  deriving DecidableEq, Repr

/-- What the applied image fixes and no register shows. `netKeys` are the network keys that its NET section carries, by slot
(R101), `mcast` the multicast addresses that it lists (R357) and
`pubs` what it says of the publications (R386). -/
structure Img where
  plant : Plant := {}
  per : PeriodCfg := {}
  strings : Strings := {}
  sched : Sched := {}
  budget : Nat := 24
  pumpCost : Nat := 4
  safety : Bool := false
  netKeys : Sparse (List Byte) := []
  mcast : List Nat := []
  pubs : List PubId := []
  applied : Bool := false
  deriving DecidableEq, Repr

/-! ### Lanes, strings and cells (R136 to R189) -/

/-- Engine state of one lane; what software sees of it is in the DML registers. `dsum` holds, per position, the sum of
twice the measured d_i (1/16 CT) and the count, key 16 + i for the far end's measurement. `rtts` are the round trips of the
last 16 frames in CT, newest first, `missed` the periods without a frame, `passed` the ALIGN frames that passed, `codes` the
code errors of the last second with their control ticks, newest first. `idleOk`: R152 is met; `lenOk`: the first frame of this ALIGN had
the declared number of records (R153); `xlGot`: a crosslink lane has brought its ALIGN frame of this period (R163). -/
structure Lane where
  rx : Option GatherRx := none
  launched : Bool := false
  missed : Nat := 0
  idleOk : Bool := false
  passed : Nat := 0
  rtts : List Nat := []
  dsum : Sparse (Nat × Nat) := []
  codes : List (Nat × Nat) := []
  haloWait : Bool := false
  haloDwell : Nat := 24
  lenOk : Bool := false
  xlGot : Bool := false
  deriving DecidableEq, Repr

/-- Kinds of staging set: the parameter set of R183, an offset set of R150 (of the A or B end), a transaction set. -/
inductive SetKind where
  | params | offsA | offsB | txn
  deriving DecidableEq, Repr

/-- A staging set on its way to a cell (R180 to R183): its HDR and DATA words and CHECK, the next index to send, how
often it was resent. -/
structure StageSet where
  kind : SetKind
  tag : Nat
  words : List Word
  next : Nat
  resends : Nat
  deriving DecidableEq, Repr

/-- A measured quantity under R42: the last valid value, the periods since it, whether there ever was one, and the value
and qualifier that readers see in this period. -/
structure Quant where
  last : Int := 0
  age : Nat := 0
  seen : Bool := false
  val : Int := 0
  ok : Bool := false
  deriving DecidableEq, Repr

/-- What the control engine keeps for one cell (R220, R222, R225, R244, R245, R247, R248). `vf` and `ff` are Q2.62; `vhat`,
`e`, `dPrev` (the duty applied at k−1), `dNow` (at k), `dNext` (at k+1), `duty` (HSHARE), `pNow` and `pNext` are PU32; `cm` is
c in LSB of 180°/32,768, `dcm` the step of this period. `ins`, `offA`, `cmpA`, `offB`, `cmpB` and `centre` are the last
allocation's; `php`, `phs`, `din1` and `din2` the DAB fields. `zvs` counts periods failing R248, `noBus` that EV_ISO_NOBUS was
raised in this precharge, `zvsUp` that the run of failures has raised EV_ISO_ZVS, `comp` that the cell is compensated, `cen` that its carrier
centre is of the last allocation, `cenR` and `cenN` the rank and the number of cells that centre was formed with, `fluxHi` that its flux
exceeds ISO_MON.FMAX. -/
structure CellEng where
  vf : Int := 0
  vhat : Int := 0
  e : Int := 0
  dPrev : Int := 0
  dNow : Int := 0
  dNext : Int := 0
  duty : Int := 0
  pNow : Int := 0
  pNext : Int := 0
  ff : Int := 0
  nStep : Nat := 0
  cm : Rat := 0
  dcm : Rat := 0
  zvs : Nat := 0
  zvsUp : Bool := false
  noBus : Bool := false
  prev : Bool := false
  ins : Nat := 0
  offA : Nat := 0
  cmpA : Nat := 0
  offB : Nat := 0
  cmpB : Nat := 0
  centre : Nat := 0
  php : Nat := 0
  phs : Nat := 0
  din1 : Nat := 0
  din2 : Nat := 0
  comp : Bool := false
  cen : Bool := false
  cenR : Nat := 0
  cenN : Nat := 1
  fluxHi : Bool := false
  deriving DecidableEq, Repr

/-- Engine state of one cell; what software sees of it is in the CELL registers. Measured values are the codes of R170.
`okRun` counts valid records since LOST, `prech` periods at the precharge threshold, `unit` that it holds a budget unit,
`unitBack` that the unit returns at the next boundary, `release` that RELEASE clears it, `bypassDue` that a host BYPASS
removes it at T_OPEN, `lostDue` that it is LOST at the next boundary, `leaving` that it left service and becomes BYPASSED at
the next boundary (R232), `wasRun` that it was in RUN when a boundary marked it LOST, `insAt` the first period in which it is insertable,
`fresh` that a REFUSED cell may still be accepted (R19), `loSeen` and `hiSeen` that the half of IDHASH was presented rightly since the
lane's ALIGN, `gotLo` and `gotHi` that it was received at all (R189), `status` the last valid STATUS word, `heard` the last record received, valid or not (R393), `sets` the staging sets with the one being sent first, `discard` how many DISCARD words
of `discTag` remain. -/
structure Cell where
  okRun : Nat := 0
  prech : Nat := 0
  release : Bool := false
  unit : Bool := false
  unitBack : Bool := false
  bypassDue : Bool := false
  lostDue : Bool := false
  leaving : Bool := false
  wasRun : Bool := false
  insAt : Nat := 0
  fresh : Bool := true
  loSeen : Bool := false
  hiSeen : Bool := false
  gotLo : Bool := false
  gotHi : Bool := false
  recOk : Bool := false
  status : Nat := 0
  heard : List Word := []
  vcap : Quant := {}
  iarm : Quant := {}
  idabp : Quant := {}
  idabs : Quant := {}
  flux : Quant := {}
  ths : Quant := {}
  tj : Quant := {}
  sets : List StageSet := []
  lastTag : Nat := 0
  discard : Nat := 0
  discTag : Nat := 0
  eng : CellEng := {}
  deriving DecidableEq, Repr

/-- What the allocator and CAPOBS keep for one group: the target and whether it has been evaluated (R221), the charging
direction and last polarity (R225), the group reference and its overmodulated form, whether R21 is armed, and whether the group stands below N. `vsub` is the
mean VCAP last known (R176), `xref` the ALLOCIF working input, `lastScheme` the scheme of the last allocation (4: none), `xeff` the reference after R224 and R231,
`bus` the LV bus voltage that DABOPT read, PU32, and its validity. -/
structure Group where
  tgt : Int := 0
  tgtSet : Bool := false
  dir : Int := 1
  lastPol : Int := 1
  xref : Int := 0
  xeff : Int := 0
  armed : Bool := false
  under : Bool := false
  vsub : Int := 0
  lastScheme : Nat := 4
  bus : Int × Bool := (0, false)
  deriving DecidableEq, Repr

/-- The start budget (R114, R115): units in use, and the queue of requests in grant order: the pump or a cell, each with
the period of its request. -/
structure StartReq where
  pump : Bool
  cell : Nat
  period : Nat
  deriving DecidableEq, Repr

structure Budget where
  used : Nat := 0
  queue : List StartReq := []
  deriving DecidableEq, Repr

/-! ### Network time (R368) -/

/-- Network time: the value `fix` in units of 2⁻³² ns at the control tick `at_`, advancing since then at 5/3 ns a tick with the
frequency correction of NET_FREQ. -/
structure NetTime where
  fix : Nat := 0
  at_ : Nat := 0
  deriving DecidableEq, Repr


/-! ### The control engine (R190 to R216) -/

/-- The inputs of one compute window, each a PU32 with its validity (R38, R197): fast channels, housekeeping channels, network
dataset values, the thermal derating level (0x920) and the safety limiter level (0x921), the group aggregates
(8 × group + q) and the host set-points. -/
structure Snap where
  fast : List (Int × Bool) := []
  hk : List (Int × Bool) := []
  net : List (Int × Bool) := []
  therm : Int := 0
  safe : Int := 0
  agg : List (Int × Bool) := []
  sp : List Int := []
  deriving DecidableEq, Repr

/-- One trace channel's memory (R213, R214): its samples by index, each with its period, how many were taken since ARM, the
periods since ARM, the samples still to take after the trigger, the period of the trigger, and the halves handed over. -/
structure Trace where
  data : Sparse (Nat × Word) := []
  taken : Nat := 0
  age : Nat := 0
  left : Nat := 0
  trigAt : Nat := 0
  halves : Nat := 0
  deriving DecidableEq, Repr

/-- The engine behind the CE registers: the placement of the S graph (R202), the states of each block instance (R194), the
instances whose output is INVALID, whether an arbitration has happened (R208), the run of slow periods (R211), the inputs of
this window and of the last, those cut at T_CUT (R327), the trace channels, a trigger to be taken at the end of the window, whether the allocator has
packed this period's records, whether command frames are withheld in this period (R41, R341), whether the controlled stop blocks the RUN cells in this
period's frame (R234), and whether STOPN has run out while a called spare was still on its way into RUN (R237). `satFlags` lists the
instances whose saturation flag is set (R193), `dirWas` is ISO_STAT.DIR and ISO_REVCNT before the last arbitration (R212),
`loopWas` is CE_LOOPEN at the last commit (R259). -/
structure Ce where
  order : List Nat := []
  blk : Sparse (List Int) := []
  bad : List Nat := []
  winKnown : Bool := false
  dirWas : Nat × Nat := (0, 0)
  loopWas : Word := 0
  slackRun : Nat := 0
  snap : Snap := {}
  prev : Snap := {}
  xlIn : Option Snap := none
  cut : Option Snap := none
  trc : Sparse Trace := []
  trigDue : Bool := false
  packed : Bool := false
  withheld : Bool := false
  stopBlk : Bool := false
  stopDue : Bool := false
  satFlags : List Nat := []
  deriving DecidableEq, Repr


/-! ### The LV stage, the gate drive interface and the pump (R253 to R294) -/

/-- Engine state of one LV channel; its settings in force are in the LVS registers. `shCmp` is the shadow compare (R66).
`raw` is the raw drive, `dH` and `dL` the outputs of the delay stage, `outH` and `outL` the pins (a chopper uses `outH`
alone). `running`: the use has started (R259). `restart`: held low until the next reload (R278). `rejNow`: the interlock
rejects at present; `rejecting` marks the PWM period in progress; `clean` counts periods without a rejection; `shoot` is
the SHOOTN trip (R264). `blank`: FAULTn blanking runs (R274). The 20-bit counter stood at `cntAt` at control tick `cntCt`, its last
load (R254, R256), and `rawCt` is the tick of the last raw edge (R260). `onSince` and `onCt` measure how long the output has been high
in this period, `onLast` is that of the last period (R268). `ovr`: a window's upper assertion overrides a chopper; `chopWin` is the level the window asks for,
`chopHold` that TONMIN still runs (R267). `energy` is E of R268 in joules. -/
structure Chan where
  shCmp : Nat := 0
  raw : Bool := false
  dH : Bool := false
  dL : Bool := false
  outH : Bool := false
  outL : Bool := false
  running : Bool := false
  restart : Bool := false
  rejNow : Bool := false
  rejecting : Bool := false
  clean : Nat := 0
  shoot : Bool := false
  blank : Bool := false
  cntAt : Nat := 0
  cntCt : Nat := 0
  rawCt : Nat := 0
  onSince : Nat := 0
  onCt : Nat := 0
  onLast : Nat := 0
  ovr : Bool := false
  chopWin : Bool := false
  chopHold : Bool := false
  energy : Rat := 0
  deriving DecidableEq, Repr

/-- The gate drive interface: filtered FAULTn states that are active, the scope of the hold that runs, and the control tick at which
GDI_FIRST took its cause (R282). Of the present control tick alone (R281): the latches set, `nowAct`, and those cleared, `nowClr`, with
the try count before the clear. A latch is its kind, 0 FAULTn, 1 trip line, 2 SHOOTN, 3 retry channel, and its number. -/
structure Gdi where
  fltAct : Nat := 0
  holdScope : Nat := 0
  firstAt : Nat := 0
  nowAct : List (Nat × Nat) := []
  nowClr : List ((Nat × Nat) × Nat) := []
  deriving DecidableEq, Repr

/-- The coolant pump (R284 to R292). `sector` is the last valid sector, `hallKnown` that there was one, `rev` the sectors
moved in the current electrical revolution. `duty` is the duty in force and `dutyNext` the committed one, PU32. `limited`
counts consecutive limited cycles and `cut` says the high side is off for this cycle, since control tick `cutAt`. `wrapAt` is the tick
of the last wrap of its PWM counter, `commAt` that of the last change of the phases it drives, which were `wasPwm` and `wasLow` before.
`edgeAt` is the CT of the last valid Hall edge. `step` is the diagnostic step. `overV`: VM stands above OVLIM. `ovBrake`: the low-side
brake of an OV fault holds. `brkOff`: BRK stays low until the pump leaves WAIT or LATCHED. `unitBack`: the budget units return at the
next boundary. `bootLow`: the bootstrap of the PWM phase is below 7.0 V. `endAt` is the tick at which a retry wait ended, with COUNT
before (R293). -/
structure Pump where
  sector : Nat := 0
  hallKnown : Bool := false
  rev : Int := 0
  duty : Int := 0
  dutyNext : Int := 0
  limited : Nat := 0
  cut : Bool := false
  cutAt : Nat := 0
  wrapAt : Nat := 0
  commAt : Nat := 0
  wasPwm : Nat := 0
  wasLow : Nat := 0
  edgeAt : Option Nat := none
  step : Nat := 0
  overV : Bool := false
  ovBrake : Bool := false
  endAt : Option (Nat × Nat) := none
  brkOff : Bool := false
  unitBack : Bool := false
  holdsUnits : Bool := false
  bootLow : Bool := false
  resume1 : Bool := false
  resume2 : Bool := false
  deriving DecidableEq, Repr

/-! ### Redundancy and safety (R318 to R365) -/

/-- One CE slice under voting (R340, R342): the control ticks at which it was a minority, newest first, and the period that last masked
it. -/
structure Slice where
  recent : List Nat := []
  since : Nat := 0
  deriving DecidableEq, Repr

/-- Engine state of the redundancy logic (R321 to R338). `pad`: RESIGN_O is pulled low. `takeDue`: a takeover is due at the
next boundary, for a RESIGN that came at control tick `arrival`; `bSeen`: that boundary has come. `swapAt`: period h of a planned swap. `alignOk`, `alignBad`
and `agree` count consecutive periods of R324 and R328, `copyN` the entries of the state copy and `copied` that its pass is
complete. `ownM` and `peerM` are the arrival times of the ALIGN frames in 1/16 CT. `regOut` holds the writes that wait for a
REG segment, `sentReady` what the last STATE segment showed of the peer, `lastCmd` the period of the last command frame
terminated, `safe0` that source 0x921 was 0 in the last INPUT segment, `drivenAt` the control tick at which this head last drove, `peerGone` that the
crosslink last showed the peer in RESIGNED. Of the present period alone: the types of crosslink frames taken, `got` (6: CTRL SWAP), whether e
was measured, `regSent` that the REG segment has left, and `winEnd` that the window has ended. `stepped`: the boundary step of this ALIGN is
done, and `phase` is the sum of such steps in 1/16 CT (R324). `inHad`: the last period brought an INPUT segment (R44). `copyDue` are the
COPY entries for the end of the window, and `copyLast` that they end the pass (R328). -/
structure Red where
  pad : Bool := false
  takeDue : Bool := false
  bSeen : Bool := false
  arrival : Nat := 0
  swapAt : Option Nat := none
  alignOk : Nat := 0
  alignBad : Nat := 0
  agree : Nat := 0
  copied : Bool := false
  copyN : Nat := 0
  ownM : Option Int := none
  peerM : Option Int := none
  regOut : List RegEntry := []
  sentReady : Bool := false
  lastCmd : Nat := 0
  safe0 : Bool := false
  drivenAt : Nat := 0
  slices : Sparse Slice := []
  peerGone : Bool := false
  got : List Nat := []
  measured : Bool := false
  regSent : Bool := false
  winEnd : Bool := false
  stepped : Bool := false
  phase : Int := 0
  inHad : Bool := false
  copyDue : List (Nat × Int) := []
  copyLast : Bool := false
  deriving DecidableEq, Repr

/-- Engine state of one telegram connection: the copy that awaits its partner and its port (R358), and the control tick of the last
acceptance. -/
structure TgConn where
  pend : Option (Telegram × Nat) := none
  accAt : Option Nat := none
  deriving DecidableEq, Repr

/-- Engine state of one safe input: raw levels, consecutive failed and passed checks per channel, both-in-demand and
released progress of a discrepancy (R353 to R355). -/
structure SafeIn where
  failA : Nat := 0
  failB : Nat := 0
  passA : Nat := 0
  passB : Nat := 0
  bothDown : Bool := false
  discEnded : Bool := false
  deriving DecidableEq, Repr

/-- Engine state of the safety logic. `resetAt`: an accepted reset, of control tick `resetCt`, clears the latch at the next boundary; with `resetHold` at the one after it,
since the REG segment of its period had left (R350).
`demandAt`: the tick of the last demand. `blkSent`: a
block-all frame has been launched since the latch was set. `tp` are the levels of TP0 to TP3 (1 = high). -/
structure Saf where
  resetAt : Bool := false
  resetHold : Bool := false
  resetCt : Nat := 0
  demandAt : Option Nat := none
  blkSent : Bool := false
  tp : Nat := 15
  inputs : Sparse SafeIn := []
  conns : Sparse TgConn := []
  deriving DecidableEq, Repr


/-! ### Analogue measurement (R295 to R317) -/

/-- Engine state of the converters. `delivered` marks the fast channels whose boundary result came in this period, `acc` the
instants sampled since the boundary sample, oldest first, `codes` the codes of the last instant. `fast` and `hk` are the
quantities under R42. Of the scan in progress: its start period, its count, the next entry, whether an address was wrong,
whether it was given up, and its results so far (channel, code, in range). `fring` and `hring` are the two rings in SRAM, by
word. `testRun`: the automatic check runs, since control tick `testAt` and with the
codes `testGot` so far; the other test fields say what the DAC drives. `hkWait`: the last word of a scan was discarded, so its last
result is still to come (R302). `dacSeen` marks the fast channels that the DAC drove in an instant since the boundary sample. `winReady`
marks the windows whose settling has ended (R309), at control tick `winAt`; `rawHist` holds the raw outputs of comparator 2w (lower) or
2w + 1 (upper) with the control tick each began at, newest first (R308). -/
structure Adc where
  delivered : Nat := 0
  acc : List (List Int) := []
  codes : List Int := []
  fast : Sparse Quant := []
  hk : Sparse Quant := []
  hkStart : Nat := 0
  hkScan : Nat := 0
  hkNext : Nat := 0
  hkBad : Bool := false
  hkLost : Bool := false
  hkGot : List (Nat × Nat × Bool) := []
  hkWait : Bool := false
  fring : Sparse Word := []
  hring : Sparse Word := []
  testRun : Bool := false
  testHk : Bool := false
  testChan : Nat := 0
  testCode : Nat := 0
  testAt : Nat := 0
  testGot : List Int := []
  dacSeen : Nat := 0
  winReady : Nat := 0
  winAt : Sparse Nat := []
  rawHist : Sparse (List (Nat × Bool)) := []
  deriving DecidableEq, Repr

/-! ### Network and time (R366 to R391) -/

/-- One PTP domain (R371 to R376): the estimate of[d] in ns, its sample count, the candidate count, samples filtered in since
its last jump, the last sample, the other domain's last sample before the first candidate, consecutive samples back within STEP_LIMIT of
`pre`, the estimate from before the jump, the last eight samples with their control ticks, newest first, `restart` that a new grandmaster
restarts the count at the next sample, whether an Announce stands, its receipt timed out or a grandmaster was ever known, the Announce of
each master heard, the mean peer delay per port, and currentUtcOffset and the alternate time offset last announced. -/
structure PtpDomain where
  ofs : Rat := 0
  n : Nat := 0
  jc : Nat := 0
  since : Nat := 0
  last : Rat := 0
  other : Rat := 0
  back : Nat := 0
  pre : Rat := 0
  hist : List (Rat × Nat) := []
  restart : Bool := false
  announced : Bool := false
  timedOut : Bool := false
  gmSeen : Bool := false
  ann : List PtpAnnounce := []
  pd : Sparse Rat := []
  utc : Option Nat := none
  altTime : Option (List Byte) := none
  deriving DecidableEq, Repr

/-- A GOOSE subscription: sequence numbers, time allowed to live in ms, the values last taken, and the control tick of the last accepted
message (R383, R390). -/
structure GooseSub where
  seen : Bool := false
  st : Nat := 0
  sq : Nat := 0
  tal : Nat := 0
  vals : List GElem := []
  at_ : Nat := 0
  deriving DecidableEq, Repr

/-- A Sampled Values subscription: last smpCnt, its instant in ns, validity of the sample, and its values (R384). `old` says
that the newest sample was too old at the last snapshot. -/
structure SvSub where
  seen : Bool := false
  cnt : Nat := 0
  inst : Nat := 0
  bad : Bool := false
  old : Bool := false
  vals : List GElem := []
  used : List (Nat × List Nat) := []
  deriving DecidableEq, Repr

/-- A published GOOSE control block: last values (BOOLEAN as 0 and 1, FLOAT32 exact), the interval to the next frame in ms and
the network time of its last state change (R386). -/
structure GoosePub where
  started : Bool := false
  vals : List Rat := []
  interval : Nat := 0
  t : Nat := 0
  deriving DecidableEq, Repr

/-- What the head answered to a register-access message: status codes and, for a read, the words (R389). -/
structure RapResp where
  seq : Nat := 0
  codes : List Nat := []
  words : List Word := []
  deriving DecidableEq, Repr

/-- A register-access session: its key slot and session key, the last executed SEQ and the response to it (R388, R389). -/
structure RapSession where
  open_ : Bool := false
  port : Nat := 2
  kslot : Nat := 0
  ks : List Byte := []
  lastSeq : Option Nat := none
  resp : RapResp := {}
  deriving DecidableEq, Repr

/-- The two-step answer to a Pdelay_Req (R369, R371): its minorVersionPTP, domain and sequence, and in 1/16 ns the request's ingress and the
answer's egress wire time. -/
structure PdelayResp where
  minor : Nat
  domain : Nat
  seq : Nat
  ingress : Int
  egress : Int
  deriving DecidableEq, Repr

/-- A published GOOSE frame (R386): `tal` is timeAllowedtoLive in ms, `notSync` clockNotSynchronized. -/
structure GooseFrame where
  id : PubId
  appid : Nat
  st : Nat
  sq : Nat
  t : Nat
  tal : Nat
  notSync : Bool
  vals : List Rat
  deriving DecidableEq, Repr

/-- A register-access message of the head (R387 to R389): OPENED with the head's nonce or, for session 0, the status BUSY; RESPONSE with codes
and words; NOTIFY with the source, its count and the log SEQ. -/
structure RapOut where
  op : Nat
  sess : Nat
  kslot : Nat
  seq : Nat := 0
  addr : Nat := 0
  count : Nat := 0
  nonce : List Byte := []
  resp : RapResp := {}
  notify : Option (Nat × Nat × Nat) := none
  mac : List Byte := []
  deriving DecidableEq, Repr

/-- A frame that the head sends (R367). -/
inductive Egress where
  | pdelay (port : Nat) (resp : PdelayResp)
  | goose (port : Nat) (frame : GooseFrame)
  | rap (port : Nat) (msg : RapOut)
  | arp (port : Nat)
  deriving DecidableEq, Repr

/-- A timed output (R380, R381): whether its pulse is active, whether a STOP waits for its end, whether network time has stepped forward
past it, and what ARM latched, in ns. -/
structure Tout where
  high : Bool := false
  stop : Bool := false
  stepped : Bool := false
  pol : Nat := 0
  mode : Nat := 0
  tgt : Nat := 0
  per : Nat := 0
  width : Nat := 0
  deriving DecidableEq, Repr

/-- Engine state of the network island. `inLock` counts consecutive samples inside LOCKTHR, `sumX` is the sum of x since LOCKING,
`lastAt` the control tick of the last servo update, `armStep` the samples an armed step has gathered. `buckets` holds, per port
and class, the tokens used and the control tick of the last refill. `rx` is, per port, the class of the last accepted frame while its
message is still to come (R367), `egress` the frames that leave in the present control tick, in order of priority. `switchedAt` is the
period of the last change of steering domain (R390). `quiet` says that the period lock may still take its quiet step, and `stretch` is the
CT by which the present period is longer for it (R378). `rapHeld` are the requests that wait for a REG segment (R325), `notifySeq` is the
SEQ of the last NOTIFY (R389). -/
structure Net where
  doms : Sparse PtpDomain := []
  inLock : Nat := 0
  sumX : Rat := 0
  lastAt : Nat := 0
  armStep : List Rat := []
  buckets : Sparse (Nat × Nat) := []
  goose : Sparse GooseSub := []
  sv : Sparse SvSub := []
  pubs : Sparse GoosePub := []
  map : Sparse Quant := []
  sess : Sparse RapSession := []
  touts : Sparse Tout := []
  rx : Sparse (Option Nat) := []
  egress : List Egress := []
  switchedAt : Option Nat := none
  quiet : Bool := false
  stretch : Nat := 0
  rapHeld : List (RapOp × RapMsg) := []
  notifySeq : Nat := 0
  deriving DecidableEq, Repr

/-! ### Acquisition (R392 to R413) -/

/-- A page of the capture memory (R403). `owner` is the directory index of its record; `kind` is its STREAM code and `seq` its number
within the stream; `map`: 1 live, 2 snapshot; `ring` that it was taken before the trigger. -/
structure Page where
  owner : Option Nat := none
  kind : Nat := 0
  seq : Nat := 0
  bytes : Nat := 0
  row0 : Nat := 0
  ring : Bool := false
  host : Bool := false
  retired : Bool := false
  mapKind : Nat := 0
  deriving DecidableEq, Repr

/-- One stream of a record (R398, R404): its pages in order, the ring pages taken before the trigger and not yet written, rows
written, bytes a row, rows in the last page, and pages evicted. -/
structure Stream where
  pages : List Nat := []
  spare : List Nat := []
  rows : Nat := 0
  rowBytes : Nat := 0
  inPage : Nat := 0
  evicted : Nat := 0
  deriving DecidableEq, Repr

/-- A record (R404). `listed`: it has its RECID and shows in the directory. -/
structure Record where
  recid : Nat := 0
  src : Nat := 0
  page : Nat := 0
  listed : Bool := false
  opened : Bool := true
  complete : Bool := false
  tcause : Nat := 0
  prot : Bool := false
  protClose : Bool := false
  calChg : Option Nat := none
  inCal : Bool := false
  shortPre : Bool := false
  period : Nat := 0
  pos : Word := 0
  cond : Word := 0
  time : Nat := 0
  preRows : Nat := 0
  postRows : Nat := 0
  tRow : Nat := 0
  vRow : Nat := 0
  chMask : Nat := 0
  vch : Word := 0
  red : Word := 0
  chan : List (Word × Nat × Word) := []
  skew : List Word := []
  masks : Sparse (Nat × Nat) := []
  streams : Sparse Stream := []
  deriving DecidableEq, Repr

/-- A cycle detector (R398): whether the level is past the hysteresis, the row at which the present cycle began, its rows so
far, and per channel the sum of squares of code − OFFS. -/
structure CycDet where
  high : Bool := true
  start : Option Nat := none
  n : Nat := 0
  sums : List Nat := []
  deriving DecidableEq, Repr

/-- A detector of level crossings (R399): the last value, and whether a crossing upwards or downwards is armed. -/
structure LevelDet where
  prev : Option Int := none
  up : Bool := false
  down : Bool := false
  deriving DecidableEq, Repr

/-- Where a trigger lies (R397): the completing condition, the period, the sample index J, TOFS in 50 ps and QUAL. -/
structure Trig where
  cond : Nat
  period : Nat
  j : Nat
  tofs : Nat
  qual : Nat
  deriving DecidableEq, Repr

/-- A recorder's engine (R399, R400): its directory index, rows since ARM, whether HOLDOFF has passed, the row at which each condition last
occurred, the level detectors, the TIME conditions whose target has been reached, the completed function whose instant is being placed, the
filtered rows and the virtual rows (period, values with validity) held before the trigger, rows still to take after it, how many of those
come before the record's first row, the row since ARM that is the record's first, the rows of the record so far, the raw rows in the current
buckets, the cycle detectors of the live rows and of the record, the rows of the live cycle while a mask tests it and the violations met
before the trigger as mask and row (R402), whether a mask asked it to stop, the records made since ARM, and the rows since ARM from which on
new FD values held (R396). -/
structure Recorder where
  entry : Option Nat := none
  samples : Nat := 0
  holdDone : Bool := false
  occ : Sparse (Option Nat) := []
  lvl : Sparse LevelDet := []
  timesHit : Nat := 0
  due : Option Trig := none
  pre : List (List Int) := []
  vpre : List (Nat × List (Int × Bool)) := []
  left : Nat := 0
  vleft : Nat := 0
  skip : Nat := 0
  first : Nat := 0
  rows : Nat := 0
  bucket : List (List Int) := []
  vbucket : List (List Int) := []
  live : CycDet := {}
  cyc : CycDet := {}
  cycRows : List (List Int) := []
  viols : List (Nat × Nat) := []
  maskStop : Bool := false
  made : Nat := 0
  fdAt : List Nat := []
  deriving DecidableEq, Repr

/-- The acquisition engine. `last` is the last sample instant, counted as period × NS + J. `hist` holds the last sixteen instants for the
fractional-delay filters, oldest first. `winU` and `winL` are the window outputs of the last frame. `mapOfs` is the sample offset of the
next row from the frame start of the maps, if a frame runs; it is negative while the frame's first row is still in the filters. `viol` are
the violations found and not yet taken up, as mask and row since ARM of its recorder. `spill` is the open record of each trace channel in
spill mode. -/
structure Acq where
  pages : Sparse Page := []
  recs : Sparse (Option Record) := []
  rcs : Sparse Recorder := []
  last : Nat := 0
  hist : List (List Int) := []
  viol : List (Nat × Nat) := []
  winU : Nat := 0
  winL : Nat := 0
  mapOfs : Option Int := none
  mapFirst : Option Nat := none
  mapLast : Nat := 0
  mapFrames : Nat := 0
  snapFrames : Nat := 0
  spill : Sparse (Option Nat) := []
  deriving DecidableEq, Repr

/-! ### Clocks and temperature (R414 to R435) -/

/-- Clock engine (R417 to R420): the CT of the last alarm of each recovered PLL by its bit of CLK_ALARM, the PLLs in recovery,
and the source and divider in force of each clock output. -/
structure Clk where
  lastAlarm : Sparse (Option Nat) := []
  recovering : Nat := 0
  outNow : Sparse Word := []
  deriving DecidableEq, Repr

/-- Thermal engine (R422 to R429): the sources that have had their first reading since apply, the invalid ones, the diodes as
quantities under R42, and the next quad whose equalisation changes (R159). -/
structure Thm where
  seen : List Nat := []
  bad : List Nat := []
  ext : Sparse Quant := []
  eqNext : Option Nat := none
  deriving DecidableEq, Repr


/-! ### The machine -/

/-- The part stops with no fault of its own: every command the spec lists has an effect, and an error is reported in
status registers and events. No constructor, so no step ends in a fault. -/
inductive Fault
  deriving DecidableEq, Repr

/-- Why a command has no meaning. -/
inductive Refusal where
  /-- Raised by `exec` for a command whose meaning the model lacks. Safe: nothing is claimed of that command. -/
  | notModelled (mnemonic : String)
  deriving DecidableEq, Repr

/-- The state of the part. `regs` holds every register but those of the EVT block, which stand in `evt`; `ct` counts
control ticks since reset and `bnd` is its value at the last period boundary; `period` is SYS_PERIOD; `free` numbers the
free values taken so far (the model's own). `ctRegs` and `ctEvt` are the register files as the present control tick began (R90). -/
structure State where
  regs : Sparse Word := []
  evt : Evt := {}
  bus : Bus := {}
  otp : Otp := {}
  nv : NvRecord := {}
  aon : Aon := {}
  pins : Pins := {}
  boot : Boot := {}
  sec : Sec := {}
  img : Img := {}
  lanes : Sparse Lane := []
  cells : Sparse Cell := []
  groups : Sparse Group := []
  budget : Budget := {}
  ce : Ce := {}
  chans : Sparse Chan := []
  gdi : Gdi := {}
  pump : Pump := {}
  red : Red := {}
  saf : Saf := {}
  time : NetTime := {}
  adc : Adc := {}
  net : Net := {}
  acq : Acq := {}
  clk : Clk := {}
  thm : Thm := {}
  mram : List Host.Cell := []
  flash : List Host.Cell := []
  dram : List Host.Cell := []
  ct : Nat := 0
  bnd : Nat := 0
  period : Nat := 0
  free : Nat := 0
  pending : List Instr := []
  ctRegs : Sparse Word := []
  ctEvt : Sparse Word := []
  deriving DecidableEq, Repr

/-- The machine right after power is applied to a blank part (R93, R116): the register tables' reset values (R454), RSTCAUSE 0x01,
the boot counted once, the boot's marker entry queued (R55). Log entries 3 and 4 name the values that the spec leaves open. -/
def State.reset : State := {
  regs := [(F.SEC_RSTCAUSE_CAUSE.base, 1)]
  evt := { regs := [(F.EVT_LOGSEQ_SEQ.base, 1)], queue := [⟨0, 0, 0x3FF, 0, 2, false, 0, 0, 1, 1⟩] }
  nv := { bootCnt := 1 } }

end Sys2Proof.Machine
end

