-- ==== Sys2Proof/Machine/Ops.lean ====
section
/-! DEFINITION. The named operations every chapter shares: reading and writing registers and fields, the block records,
the memories, saturating counters, raising events, and the event fabric's own work (R45 to R56). -/

namespace Sys2Proof.Machine

/-! ### Registers and fields -/

/-- The word at an address, all blocks but EVT. -/
def State.rd (s : State) (a : Nat) : Word := Sparse.get resetWord s.regs a

/-- Write the word at an address, all blocks but EVT. -/
def State.wr (s : State) (a : Nat) (v : Word) : State := { s with regs := Sparse.set resetWord s.regs a v }

/-- A field's value. -/
def State.get (s : State) (f : Fld) (i : Nat := 0) (j : Nat := 0) : Nat := fieldGet (s.rd (f.addr i j)) f.hi f.lo

/-- A field's value as two's complement of the field's width. -/
def State.getS (s : State) (f : Fld) (i : Nat := 0) (j : Nat := 0) : Int := toSigned (f.hi - f.lo + 1) (s.get f i j)

/-- Whether a field is not zero. -/
def State.flag (s : State) (f : Fld) (i : Nat := 0) (j : Nat := 0) : Bool := s.get f i j != 0

/-- Write a field and leave the register's other bits. -/
def State.put (s : State) (f : Fld) (v : Nat) (i : Nat := 0) (j : Nat := 0) : State :=
  s.wr (f.addr i j) (fieldSet (s.rd (f.addr i j)) f.hi f.lo v)

/-- Write a field as two's complement of its width, saturated to that width. -/
def State.putS (s : State) (f : Fld) (v : Int) (i : Nat := 0) (j : Nat := 0) : State :=
  s.put f (ofSigned (f.hi - f.lo + 1) (satSigned (f.hi - f.lo + 1) v)) i j

/-- Write a one-bit field. -/
def State.putB (s : State) (f : Fld) (b : Bool) (i : Nat := 0) (j : Nat := 0) : State := s.put f b.toNat i j

/-- Set or clear bit `b` of a field that holds one bit per thing. -/
def State.putBit (s : State) (f : Fld) (b : Nat) (v : Bool) (i : Nat := 0) (j : Nat := 0) : State :=
  s.put f (setBit (s.get f i j) b v) i j

/-- The word at an address of the EVT block. -/
def Evt.rd (e : Evt) (a : Nat) : Word := Sparse.get resetWord e.regs a

/-- Write the word at an address of the EVT block. -/
def Evt.wr (e : Evt) (a : Nat) (v : Word) : Evt := { e with regs := Sparse.set resetWord e.regs a v }

/-- A field of the EVT block. -/
def Evt.get (e : Evt) (f : Fld) (i : Nat := 0) : Nat := fieldGet (e.rd (f.addr i)) f.hi f.lo

/-- Write a field of the EVT block. -/
def Evt.put (e : Evt) (f : Fld) (v : Nat) (i : Nat := 0) : Evt :=
  e.wr (f.addr i) (fieldSet (e.rd (f.addr i)) f.hi f.lo v)

/-! ### Indexed records -/

def State.lane (s : State) (l : Nat) : Lane := Sparse.get (fun _ => {}) s.lanes l
def State.setLane (s : State) (l : Nat) (x : Lane) : State := { s with lanes := Sparse.set (fun _ => {}) s.lanes l x }
def State.cell (s : State) (c : Nat) : Cell := Sparse.get (fun _ => {}) s.cells c
def State.setCell (s : State) (c : Nat) (x : Cell) : State := { s with cells := Sparse.set (fun _ => {}) s.cells c x }
def State.chan (s : State) (n : Nat) : Chan := Sparse.get (fun _ => {}) s.chans n
def State.setChan (s : State) (n : Nat) (x : Chan) : State := { s with chans := Sparse.set (fun _ => {}) s.chans n x }

/-! ### Memories: MRAM and DRAM read 0 and flash reads 0xFF where nothing is listed -/

def State.mramGet (s : State) (a n : Nat) : List Byte := Sparse.getRun (fun _ => 0) s.mram a n
def State.mramPut (s : State) (a : Nat) (bs : List Byte) : State :=
  { s with mram := Sparse.setRun (fun _ => 0) 1 s.mram a bs }
def State.flashGet (s : State) (a n : Nat) : List Byte := Sparse.getRun (fun _ => 0xFF) s.flash a n
def State.flashPut (s : State) (a : Nat) (bs : List Byte) : State :=
  { s with flash := Sparse.setRun (fun _ => 0xFF) 1 s.flash a bs }
def State.dramGet (s : State) (a n : Nat) : List Byte := Sparse.getRun (fun _ => 0) s.dram a n
def State.dramPut (s : State) (a : Nat) (bs : List Byte) : State :=
  { s with dram := Sparse.setRun (fun _ => 0) 1 s.dram a bs }

/-! ### Time -/

/-- CT since the last period boundary. -/
def State.ctInPeriod (s : State) : Nat := s.ct - s.bnd

/-- ns since reset: a control tick is 5/3 ns. -/
def State.nsSinceReset (s : State) : Nat := s.ct * 5 / 3

/-- Network time at control tick `c`, in units of 2⁻³² ns (R368). -/
def State.netFixAt (s : State) (c : Nat) : Int :=
  (s.time.fix : Int) +
    (mkRat (((c : Int) - s.time.at_) * 5 * 2 ^ 32) 3 * (1 + mkRat (s.getS F.NET_FREQ_FREQ) (10 ^ 12))).floor

/-- Network time at control tick `c`, in ns. -/
def State.netAt (s : State) (c : Nat) : Nat := ((s.netFixAt c / 2 ^ 32) % 2 ^ 64).toNat

/-- Network time now, in ns. -/
def State.netNow (s : State) : Nat := s.netAt s.ct

/-- Network time is on: the PTP servo is LOCKED (R391). -/
def State.servoLocked (s : State) : Bool := s.get F.NET_PTPSTAT_STATE == 3

/-- TIME and TVALID of a log entry made now (R54). -/
def State.logStamp (s : State) : Nat × Bool :=
  if s.servoLocked then (s.netNow, true) else (s.nsSinceReset % 2 ^ 64, false)

/-! ### Raising events -/

/-- Note an occurrence of source `ev` with its context; the end of the command counts it and performs its reaction. -/
def State.pulse (s : State) (ev : Nat) (c0 : Nat := 0) (c1 : Nat := 0) : State :=
  { s with evt := { s.evt with raised := s.evt.raised ++ [(ev, BitVec.ofNat 32 c0, BitVec.ofNat 32 c1)] } }

/-- A word fails the parity of its crossing: it is discarded (R35). -/
def State.xingBad (s : State) : State := s.pulse Ev.XING_PAR

/-- A monitored clock of the mask is in alarm (R418). -/
def State.clkBad (s : State) (mask : Nat) : Bool := s.get F.CLK_ALARM_ALARM &&& mask != 0

/-- System PLL `i` (CPLL, NPLL, APLL, DPLL) is past its 150 µs; until then its output is gated off (R417). -/
def State.pllOn (s : State) (i : Nat) : Bool := (s.get F.CLK_STAT_LOCKED).testBit i

/-- The crossings out of the network and analogue islands stand still: NPLL or the analogue sequencer is in alarm (R35, R418), or NPLL not
yet locked (R417). -/
def State.netStopped (s : State) : Bool := s.clkBad 0x48 || !s.pllOn 1

/-- The crossings out of the acquisition and management islands stand still: APLL or management is in alarm (R35, R418), or APLL not yet
locked (R417). -/
def State.acqStopped (s : State) : Bool := s.clkBad 0x90 || !s.pllOn 2

/-- The active bit of a source (R45). -/
def State.evActive (s : State) (ev : Nat) : Bool := (s.evt.rd (F.EVT_ACT_ACT.addr (ev / 32))).getLsbD (ev % 32)

/-- Set or clear the active bit of a source. -/
def Evt.setActive (e : Evt) (ev : Nat) (b : Bool) : Evt :=
  e.put F.EVT_ACT_ACT (setBit (e.get F.EVT_ACT_ACT (ev / 32)) (ev % 32) b) (ev / 32)

/-- The condition of a source becomes true: its active bit is set, and if it was clear that is one occurrence. -/
def State.raise (s : State) (ev : Nat) (c0 : Nat := 0) (c1 : Nat := 0) : State :=
  let t := s.pulse ev c0 c1
  { t with evt := t.evt.setActive ev true }

/-- The hold of a source that derates starts at control tick `ct` (R48); it replaces one that runs already. -/
def Evt.startHold (e : Evt) (ev ct : Nat) : Evt :=
  { e with derating := e.derating.filter (· != ev), derateHold := (e.derateHold.filter fun x => x.1 != ev) ++ [(ev, ct)] }

/-- The condition of a source becomes false; a source that derates starts its hold (R48). -/
def State.clearAct (s : State) (ev : Nat) : State :=
  let e := s.evt.setActive ev false
  { s with evt := if e.derating.contains ev then e.startHold ev s.ct else e }

/-- The active bit follows a condition; a rise is one occurrence. -/
def State.follow (s : State) (ev : Nat) (cond : Bool) (c0 : Nat := 0) (c1 : Nat := 0) : State :=
  if cond then (if s.evActive ev then s else s.raise ev c0 c1)
  else if s.evActive ev then s.clearAct ev else s

/-- One more in an error counter that saturates; the step that reaches the top raises EV_ERRCNT_OVF with the counter's
snapshot entry in CTX0 (R87). -/
def State.errInc (s : State) (f : Fld) (entry : Nat) (i : Nat := 0) (j : Nat := 0) : State :=
  let n := s.get f i j
  if n + 1 ≥ f.size then s
  else
    let t := s.put f (n + 1) i j
    if n + 2 = f.size then t.pulse Ev.ERRCNT_OVF entry else t

/-- `n` more in such a counter. -/
def State.errIncBy (s : State) (f : Fld) (entry n : Nat) (i : Nat := 0) (j : Nat := 0) : State :=
  (List.range n).foldl (fun t _ => t.errInc f entry i j) s

/-- One more in a counter that wraps. -/
def State.wrapInc (s : State) (f : Fld) (i : Nat := 0) (j : Nat := 0) : State := s.put f (s.get f i j + 1) i j

/-- One more in a counter that saturates and raises nothing. -/
def State.satIncF (s : State) (f : Fld) (i : Nat := 0) (j : Nat := 0) : State :=
  s.put f (satInc (f.size - 1) (s.get f i j)) i j

/-! ### The event fabric's work on one occurrence (R45 to R55) -/

/-- A source's enable (R45). -/
def Evt.enabled (e : Evt) (ev : Nat) : Bool := (e.rd (F.EVT_EN_EN.addr (ev / 32))).getLsbD (ev % 32)

/-- Time, period and validity as a log entry carries them. -/
structure Stamp where
  time : Nat
  period : Nat
  tvalid : Bool
  ct : Nat
  deriving DecidableEq, Repr

/-- Put an entry in its place among the entries of its control tick, in ascending EV order (R51); SEQ stays consecutive. -/
def insertLog (x : LogEntry) (tail : List LogEntry) : List LogEntry :=
  let es := (tail.takeWhile fun y => decide (y.ev ≤ x.ev)) ++ x :: tail.dropWhile fun y => decide (y.ev ≤ x.ev)
  List.zipWith (fun y n => { y with seq := n }) es (tail.map (·.seq) ++ [x.seq])

/-- Put an entry in the log queue (R51, R55), among the `nowLog` last ones, which are of the same control tick: SEQ is used up even
when a full queue discards it. The Bool says that it was discarded. -/
def Evt.pushLog (e : Evt) (st : Stamp) (ev react typ sup : Nat) (c0 c1 : Word) : Evt × Bool :=
  if e.get F.EVT_CTRL_LOGEN = 0 then (e, false) else
  let seq := e.get F.EVT_LOGSEQ_SEQ
  let e1 := e.put F.EVT_LOGSEQ_SEQ (seq + 1)
  if e.queue.length ≥ 64 then (e1, true)
  else
    let old := e1.queue.length - e1.nowLog
    ({ e1 with
        nowLog := e1.nowLog + 1
        queue := e1.queue.take old ++
          insertLog ⟨st.time, st.period % 2 ^ 32, ev, react, typ, st.tvalid, sup, seq, c0, c1⟩ (e1.queue.drop old) }, false)

/-- Interval of the squall guard's refill in CT: SQINT + 1 ms (R52). -/
def Evt.sqStep (e : Evt) (ev : Nat) : Nat := (e.get F.EVT_CFG_SQINT ev + 1) * 600000

/-- The bucket of a source after refill at time `t` (R52); an unlisted bucket is full since `filledAt`. -/
def Evt.refill (e : Evt) (ev t : Nat) : Bucket :=
  let burst := e.get F.EVT_CFG_SQBURST ev
  let b := (Sparse.get (fun _ => none) e.buckets ev).getD ⟨burst, e.filledAt, 0, 0, 0⟩
  let tok := min b.tokens burst
  if tok = burst then { b with tokens := tok, last := t }
  else
    let n := min (burst - tok) ((t - b.last) / e.sqStep ev)
    { b with tokens := tok + n, last := b.last + n * e.sqStep ev }

/-- Store a source's bucket. -/
def Evt.setBucket (e : Evt) (ev : Nat) (b : Bucket) : Evt :=
  { e with buckets := Sparse.set (fun _ => none) e.buckets ev (some b) }

/-- The squall guard on an occurrence (R52): log it, or hold it back for a summary. The Bool is a discarded entry. -/
def Evt.logOccurrence (e : Evt) (st : Stamp) (ev react : Nat) (c0 c1 : Word) : Evt × Bool :=
  let b := e.refill ev st.ct
  if e.get F.EVT_CFG_SQBURST ev = 0 then
    (e.setBucket ev { b with suppressed := 0 }).pushLog st ev react 0 b.suppressed c0 c1
  else if b.tokens > 0 then
    (e.setBucket ev { b with tokens := b.tokens - 1, suppressed := 0 }).pushLog st ev react 0 b.suppressed c0 c1
  else (e.setBucket ev { b with suppressed := satInc 0xFFFF b.suppressed, ctx0 := c0, ctx1 := c1 }, false)

/-- One more occurrence in a source's count (R46); the Bool says that this one saturated it. -/
def Evt.count (e : Evt) (ev : Nat) : Evt × Bool :=
  let n := e.get F.EVT_CNT_CNT ev
  if n = 0xFFFFFFFF then (e, false)
  else
    let e1 := e.put F.EVT_CNT_CNT (n + 1) ev
    ({ e1 with changed := if e.changed.contains ev then e.changed else e.changed ++ [ev] }, n = 0xFFFFFFFE)

/-- Note that an occurrence of a source is counted in this control tick (R51). -/
def Evt.noteOcc (e : Evt) (ev : Nat) : Evt := { e with nowOcc := e.nowOcc ++ [ev] }

/-- Resign cause (R128, R332) of a source whose reaction is resign. An alarm of the control clock or of a reference resigns by itself with
0x83 (R418); a latched alarm is of another clock, and so any other source, 0x87. -/
def resignCauseOf (ev : Nat) : Nat :=
  if ev = Ev.CFG_CRC then 0x81 else if ev = Ev.CE_ECC2 then 0x82
  else if ev = Ev.CE_DEADLINE then 0x84 else if ev = Ev.THM_DIE_SHUT then 0x85 else 0x87

/-- The reaction of a counted occurrence (R48). The Bool is a discarded log entry. -/
def Evt.react (e : Evt) (st : Stamp) (ev : Nat) (c0 c1 : Word) : Evt × Bool :=
  let r := e.get F.EVT_CFG_REACT ev
  let (e1, drop) := if r = 0 then (e, false) else e.logOccurrence st ev r c0 c1
  let e2 := if r < 2 then e1 else
    let p := e1.put F.EVT_PEND_PEND (setBit (e1.get F.EVT_PEND_PEND (ev / 32)) (ev % 32) true) (ev / 32)
    if e1.get F.EVT_CTRL_NETNOTIFY = 1 then
      { p with notifies := p.notifies ++ [(ev, p.get F.EVT_CNT_CNT ev, (p.get F.EVT_LOGSEQ_SEQ + 2 ^ 32 - 1) % 2 ^ 32)] }
    else p
  let e3 :=
    if r = 3 then
      if (e2.rd (F.EVT_ACT_ACT.addr (ev / 32))).getLsbD (ev % 32) then
        { e2 with
          derating := if e2.derating.contains ev then e2.derating else e2.derating ++ [ev]
          derateHold := e2.derateHold.filter fun x => x.1 != ev }
      else e2.startHold ev st.ct
    else if r = 4 then { e2 with blockReq := e2.blockReq ++ [evCell ev c0.toNat] }
    else if r = 5 then { e2 with woReq := some (e2.woReq.getD (8, ev)) }
    else if r = 6 then { e2 with resignReq := some (e2.resignReq.getD (resignCauseOf ev, ev)) }
    else e2
  (e3, drop)

/-- One occurrence of a source (R45, R46): the count, EV_EVT_CNT_OVF where it saturates, the reaction, and EV_LOG_DROP where the queue
discards its entry. An entry of EV_LOG_DROP itself that the queue discards is not counted again (log entry 63). `n` bounds the events
that one occurrence brings: at most six, since each count saturates once. -/
def Evt.occurAt (st : Stamp) : Nat → Evt → Nat → Word → Word → Evt
  | 0, e, _, _, _ => e
  | n + 1, e, ev, c0, c1 =>
    if e.enabled ev then
      let (e1, ovf) := (e.noteOcc ev).count ev
      let e2 := if ovf then Evt.occurAt st n e1 Ev.EVT_CNT_OVF (BitVec.ofNat 32 ev) 0 else e1
      let (e3, drop) := e2.react st ev c0 c1
      if drop && ev != Ev.LOG_DROP then Evt.occurAt st n e3 Ev.LOG_DROP 0 0 else e3
    else e

/-- One occurrence of a source with all that it brings. -/
def Evt.occur (e : Evt) (st : Stamp) (ev : Nat) (c0 c1 : Word) : Evt := Evt.occurAt st 8 e ev c0 c1

/-- EV_LOG_DROP: an entry was discarded (R51). -/
def Evt.logDrop (e : Evt) (st : Stamp) : Evt := e.occur st Ev.LOG_DROP 0 0

/-- Put an occurrence in its place by source number: sources that raise together log in ascending order (R51). -/
def insertRaised (x : Nat × Word × Word) : List (Nat × Word × Word) → List (Nat × Word × Word)
  | [] => [x]
  | y :: l => if x.1 < y.1 then x :: y :: l else y :: insertRaised x l

/-- The occurrences of a command in ascending order of source, each source's in the order they came. -/
def sortRaised (l : List (Nat × Word × Word)) : List (Nat × Word × Word) := l.foldl (fun acc x => insertRaised x acc) []

/-- The stamp of the present instant. -/
def State.stamp (s : State) : Stamp := ⟨s.logStamp.1, s.period, s.logStamp.2, s.ct⟩

/-- Count the occurrences noted since the last call and perform their reactions. -/
def State.countRaised (s : State) : State :=
  let clean : Evt := { s.evt with raised := [] }
  { s with evt := (sortRaised s.evt.raised).foldl (fun e x => e.occur s.stamp x.1 x.2.1 x.2.2) clean }

/-- The derate reaction holds the safety limiter candidate (R48). -/
def State.derateOn (s : State) : Bool := !s.evt.derating.isEmpty || !s.evt.derateHold.isEmpty

/-- IRQ0 to IRQ3 (R56): bit n is 1 while IRQn is asserted. They are inactive until RUN and in NOIMAGE (R94), and low while the core
supply is not good (R431). -/
def State.irqLines (s : State) : Nat :=
  if !s.pins.coreGood || (s.get F.SEC_STATE_HSTATE != 2 && s.get F.SEC_STATE_HSTATE != 3) then 0 else
  (List.range 4).foldl (fun w n =>
    if s.evt.get F.EVT_IRQMASK_MASK / 2 ^ n % 2 = 1 &&
        (List.range 1024).any (fun e =>
          (s.evt.rd (F.EVT_PEND_PEND.addr (e / 32))).getLsbD (e % 32) && s.evt.get F.EVT_CFG_IRQSEL e == n)
    then w + 2 ^ n else w) 0

/-- The number of a status code (R60). -/
def Code.num : Code → Nat
  | .ok => 0 | .nomap => 1 | .ro => 2 | .range => 3 | .guard => 4 | .txnReq => 5 | .busy => 6 | .full => 7 | .state => 8
  | .abortLate => 9

/-- Sample instants in a period: one every 120 CT (R296). -/
def State.ns (s : State) : Nat := s.img.per.p / 120

/-- The last `n` elements of a list. -/
def lastN {α : Type} (n : Nat) (l : List α) : List α := l.drop (l.length - n)

end Sys2Proof.Machine
end

