-- ==== Sys2Proof/Machine/LvsOps.lean ====
section
/-! DEFINITION. The LV stage's output logic and the gate drive protection that every path shares (R253 to R282): which
channels are held low, what the pins show, trips, holds, the shoot-through interlock, and the first cause. -/

namespace Sys2Proof.Machine

/-- Whether channel `n` is one of the 16 pairs. -/
def isPair (n : Nat) : Bool := n < 16

/-- GDI_CTCNT: the free-running CT counter (R282). -/
def State.ctcnt (s : State) : Nat := s.ct % 2 ^ 32

/-- The head drives its LV outputs: it is in RUN, its role is none or active, and its core supply is good (R253, R322, R431). -/
def State.driving (s : State) : Bool :=
  s.pins.coreGood && s.get F.SEC_STATE_HSTATE == 2 && (s.get F.RED_STAT_ROLE == 0 || s.get F.RED_STAT_ROLE == 2)

/-- A trip line that holds channel `n` low (R266). -/
def State.tripLow (s : State) (n : Nat) : Bool :=
  (List.range 8).any fun t => (s.get F.LVS_TRIPSTAT_LATCHED).testBit t && (s.get F.LVS_TRIPSCOPE_SCOPE t).testBit n

/-- Scope of FAULTn: its own pair always belongs to it (R276, R294). -/
def State.faultScope (s : State) (n : Nat) : Nat := setBit (s.get F.GDI_FSCOPE_SCOPE n) n true

/-- A FAULT latch whose scope includes channel `n` (R276). -/
def State.faultLow (s : State) (n : Nat) : Bool :=
  (List.range 16).any fun m => (s.get F.GDI_FLT_LATCHED).testBit m && (s.faultScope m).testBit n

/-- A hold runs over channel `n` (R276). -/
def State.frozen (s : State) (n : Nat) : Bool := s.flag F.GDI_HOLD_ACTIVE && s.gdi.holdScope.testBit n

/-- Whiteout is latched (R346). -/
def State.whiteout (s : State) : Bool := s.flag F.SAF_STAT_WO

/-- Retry channel of a chopper: 1 for CHOP0, 2 for CHOP1 (R292). -/
def retryOf (n : Nat) : Nat := n - 15

/-- What drives channel `n` low even during a hold: a trip, the SHOOTN trip, whiteout, a chopper fault, which holds it low like any
trip, or a head that does not drive (R262, R277, R292). -/
def State.hardLow (s : State) (n : Nat) : Bool :=
  s.tripLow n || (s.chan n).shoot || s.whiteout || !s.driving ||
  (!isPair n && (s.flag F.GDI_RETRYSTAT_WAITING (retryOf n) || s.flag F.GDI_RETRYSTAT_LATCHED (retryOf n)))

/-- What holds channel `n` low outside a hold alone: a use that has not started or is unused, a restart still to come, or a FAULT latch
(R259, R276, R278). -/
def State.softLow (s : State) (n : Nat) : Bool := !(s.chan n).running || (s.chan n).restart || s.faultLow n

/-- Channel `n` is held low. -/
def State.heldLow (s : State) (n : Nat) : Bool := s.hardLow n || (s.softLow n && !s.frozen n)

/-- Use of a pair (R25): 0 unused, 1 U, 2 V, 3 W, 4 N, 5 DC port. -/
def State.pairUse (s : State) (n : Nat) : Nat := s.img.plant.pairs.getD n 0

/-- Resistance of chopper `c` in mΩ; 0: absent (R26). -/
def State.chopRes (s : State) (c : Nat) : Nat := (s.img.plant.chops.getD c ⟨0, 0⟩).res

/-- A channel that the image uses (R253). -/
def State.chanUsed (s : State) (n : Nat) : Bool := if isPair n then s.pairUse n != 0 else s.chopRes (n - 16) != 0

/-- Loop enable bit of CE_LOOPEN (R209). -/
def State.loopOn (s : State) (j : Nat) : Bool := (s.rd F.CE_LOOPEN_EN.base).getLsbD j

/-- The loop bit that gates the use of a pair (R259). -/
def State.useLoop (s : State) (n : Nat) : Bool := s.loopOn (s.get F.LVS_USE_LOOP (s.pairUse n - 1))

/-- The loop of its use holds a pair low (R259): its bit is 0, or it has not started since. -/
def State.loopHold (s : State) (n : Nat) : Bool :=
  isPair n && s.chanUsed n && !(s.chan n).running && (s.driving || !s.useLoop n)

/-- LVS_STAT.LOW of a channel (R270): a trip, to which a chopper's fault is alike (R292), whiteout, a loop hold or an unused use. -/
def State.lowShown (s : State) (n : Nat) : Bool :=
  s.tripLow n || (s.chan n).shoot || s.whiteout || s.loopHold n || !s.chanUsed n ||
  (!isPair n && (s.flag F.GDI_RETRYSTAT_WAITING (retryOf n) || s.flag F.GDI_RETRYSTAT_LATCHED (retryOf n)))

/-- A latch holds channel `n` low (R280). -/
def State.latchLow (s : State) (n : Nat) : Bool := s.tripLow n || s.faultLow n || (s.chan n).shoot || s.whiteout

/-- A drive after its force: 1 forces off, 2 forces on (R263). -/
def forced (f : Nat) (x : Bool) : Bool := if f = 2 then true else if f = 1 then false else x

/-- H force in force of a channel. -/
def State.forceH (s : State) (n : Nat) : Nat := s.get F.LVS_PWM_STAT_FORCE n % 4

/-- L force in force of a channel. -/
def State.forceL (s : State) (n : Nat) : Nat := s.get F.LVS_PWM_STAT_FORCE n / 4

/-- The two drives of a channel after its delay stage and forces, before the interlock: a chopper has one (R262). -/
def State.drives (s : State) (n : Nat) : Bool × Bool :=
  let c := s.chan n
  if isPair n then (forced (s.forceH n) c.dH, forced (s.forceL n) c.dL)
  else (forced (s.forceH n) (c.raw || c.ovr), false)

/-- One CT with both outputs of a pair commanded high (R264): both are driven low, SHOOT_REJ is set, the CT is counted and
the PWM period marked. -/
def State.rejectCt (s : State) (n : Nat) : State :=
  let t := (s.put F.LVS_PWM_STAT_SHOOT_REJ 1 n).errInc F.LVS_REJCNT_COUNT (1397 + n) n
  let t := t.setChan n { t.chan n with rejecting := true, rejNow := true }
  t.pulse Ev.LV_SHOOT_REJ n

/-- Put levels on the pins of a channel: an edge starts blanking and the measured on-time follows (R268, R274). -/
def State.setPins (s : State) (n : Nat) (h l : Bool) : State :=
  let c := s.chan n
  let rise := isPair n && ((h && !c.outH) || (l && !c.outL)) && s.get F.GDI_PCFG_BLANK n != 0
  let c1 := { c with
    outH := h, outL := l, blank := c.blank || rise
    onSince := if h && !c.outH then s.ct else c.onSince
    onCt := if c.outH && !h then c.onCt + (s.ct - c.onSince) else c.onCt }
  (s.setChan n c1).putB F.LVS_PWM_STAT_HIGHNOW h n

/-- Form the outputs of a channel afresh (R262): forces, interlock, trips and whiteout, then the hold. -/
def State.refresh (s : State) (n : Nat) : State :=
  let (h, l) := s.drives n
  let clash := isPair n && h && l
  let t := if clash then (if (s.chan n).rejNow then s else s.rejectCt n)
    else s.setChan n { s.chan n with rejNow := false }
  let low := t.heldLow n || clash
  let c := t.chan n
  let h1 := !low && (if t.frozen n then c.outH else h)
  let l1 := !low && (if t.frozen n then c.outL else l)
  let t := t.setPins n h1 l1
  let t := t.putB F.LVS_PWM_STAT_TRIPPED (t.tripLow n || (t.chan n).shoot) n
  t.putBit F.LVS_STAT_LOW n (t.lowShown n)

/-- Form the outputs of every channel afresh. -/
def State.refreshAll (s : State) : State := (List.range 18).foldl State.refresh s

/-- A channel that is driven low restarts at its next reload with its delay stage cleared (R278). -/
def State.dropChan (s : State) (n : Nat) : State :=
  s.setChan n { s.chan n with restart := true, dH := false, dL := false }

/-- Drive every channel of a scope low. -/
def State.dropScope (s : State) (scope : Nat) : State :=
  ((List.range 18).filter (scope.testBit ·)).foldl State.dropChan s

/-- The channels that a latch held low in `s` and none holds in `t` restart at their next reload (R278, R280); then every output of `t`
is formed. -/
def State.released (s t : State) : State :=
  (((List.range 18).filter fun n => s.latchLow n && !t.latchLow n).foldl State.dropChan t).refreshAll

/-- GDI_FIRST takes a cause if it holds none, or if the one it holds was set in this control tick and stands lower in the table of
R282: a higher class, or a higher index in one class. Pump faults, whose INDEX is a code, stay in the order they came. -/
def State.firstCause (s : State) (cls idx : Nat) : State :=
  let c := s.get F.GDI_FIRST_CLASS
  let lower := s.gdi.firstAt == s.ct && (decide (cls < c) || (cls == c && c != 7 && decide (idx < s.get F.GDI_FIRST_INDEX)))
  if s.flag F.GDI_FIRST_VALID && !lower then s
  else
    let t := ((s.put F.GDI_FIRST_VALID 1).put F.GDI_FIRST_CLASS cls).put F.GDI_FIRST_INDEX idx
    { t with gdi := { t.gdi with firstAt := t.ct } }

/-- A refused clear of a FAULT, trip or SHOOTN latch (R280). -/
def State.clearRefused (s : State) (f : Fld) (b : Nat) : State := (s.putBit f b true).pulse Ev.GD_CLR_REJ b

/-- The refusal bit of a latch's clear: FAULTn, trip line and retry channel; SHOOTN has one bit in a field a pair. -/
def State.refuseClear (s : State) (x : Nat × Nat) : State :=
  if x.1 = 0 then s.clearRefused F.GDI_CLRSTAT_FAULT x.2
  else if x.1 = 1 then s.clearRefused F.LVS_TRIPSTAT_TRIP_CLR_REJ x.2
  else if x.1 = 2 then s.clearRefused F.GDI_CLRSTAT_SHOOT x.2
  else s.put F.GDI_RETRYSTAT_CLR_REJ 1 x.2

/-- A latch is set: a clear of it in the same control tick, before or after, is refused (R281, R293). -/
def State.noteSet (s : State) (x : Nat × Nat) : State :=
  let t : State := { s with gdi := { s.gdi with nowAct := s.gdi.nowAct ++ [x], nowClr := s.gdi.nowClr.filter fun y => y.1 != x } }
  if s.gdi.nowClr.any fun y => y.1 == x then t.refuseClear x else t

/-- A clear of a latch is accepted; `n` is the try count before it. -/
def State.noteClear (s : State) (x : Nat × Nat) (n : Nat := 0) : State :=
  { s with gdi := { s.gdi with nowClr := s.gdi.nowClr ++ [(x, n)] } }

/-- Cause class of a trip line (R282). -/
def State.tripClass (s : State) (t : Nat) : Nat :=
  let src := s.get F.LVS_TRIPCFG_SRC t
  if t = s.get F.GDI_CFG_IBUSLINE then 1 else if 1 ≤ src ∧ src ≤ 0x10 then 3 else 4

/-- An enabled trip line becomes active (R266): it latches, drives its scope low and raises EV_LV_TRIP. -/
def State.tripLine (s : State) (t : Nat) : State :=
  let s1 := s.putBit F.LVS_TRIPSTAT_ACTIVE t true
  if s1.flag F.LVS_TRIPCFG_EN t then
    let scope := s1.get F.LVS_TRIPSCOPE_SCOPE t
    let s2 := ((s1.putBit F.LVS_TRIPSTAT_LATCHED t true).noteSet (1, t)).dropScope scope
    ((s2.raise Ev.LV_TRIP t scope).firstCause (s1.tripClass t) t).refreshAll
  else s1

/-- The SHOOTN trip of a pair (R264). -/
def State.shootTrip (s : State) (n : Nat) : State :=
  let s1 := ((s.setChan n { s.chan n with shoot := true }).noteSet (2, n)).dropChan n
  ((s1.raise Ev.LV_SHOOT n s.ctcnt).firstCause 5 n).refresh n

/-- Whether a pair is in its dead time: both delay outputs low while the pair runs. -/
def State.inDeadTime (s : State) (n : Nat) : Bool :=
  isPair n && !(s.chan n).dH && !(s.chan n).dL

/-- The scope that a FAULT adds to the hold: a pair in its dead time aborts its rise (R276, R278). -/
def State.joinScope (s : State) (scope : Nat) : State :=
  ((List.range 18).filter (fun n => scope.testBit n && s.inDeadTime n)).foldl State.dropChan s

/-- FAULTn acts (R276): its latch is set, and a hold over its scope starts or is joined. -/
def State.faultAct (s : State) (n : Nat) : State :=
  let was := s.flag F.GDI_HOLD_ACTIVE
  let s1 := (s.putBit F.GDI_FLT_LATCHED n true).put F.GDI_TS_TS s.ctcnt n
  let s1 := ((s1.noteSet (0, n)).raise Ev.GD_FAULT n).firstCause 2 n
  let s2 := s1.joinScope (s1.faultScope n)
  let s3 := { s2 with gdi := { s2.gdi with
    holdScope := if was then s2.gdi.holdScope ||| s2.faultScope n else s2.faultScope n } }
  let s4 := s3.put F.GDI_HOLD_MEMBERS (setBit (if was then s3.get F.GDI_HOLD_MEMBERS else 0) n true)
  let s5 := (s4.put F.GDI_HOLD_ACTIVE 1).put F.GDI_HOLDREL_RELEASE (s4.ctcnt + s4.get F.GDI_CFG_SOFTHOLD)
  s5.refreshAll

/-- The hold ends (R276): every output of the combined scope goes low. -/
def State.holdEnd (s : State) : State :=
  if s.flag F.GDI_HOLD_ACTIVE then ((s.put F.GDI_HOLD_ACTIVE 0).dropScope s.gdi.holdScope).refreshAll else s

/-! ### Automatic retry (R292) and the pump -/

/-- Pump states of R288. -/
def pumpOff : Nat := 0
def pumpQueued : Nat := 1
def pumpDiag : Nat := 2
def pumpBoot : Nat := 3
def pumpStarting : Nat := 4
def pumpRunning : Nat := 5
def pumpWait : Nat := 6
def pumpLatched : Nat := 7

/-- The fault of a channel whose clear was accepted in this control tick: the fault wins, and the channel stays latched with its count
(R293). -/
def State.relatch (s : State) (c : Nat) : State :=
  match s.gdi.nowClr.find? fun y => y.1 == (3, c) with
  | some y => ((s.put F.GDI_RETRYSTAT_LATCHED 1 c).put F.GDI_RETRYSTAT_COUNT y.2 c).noteSet (3, c)
  | none => s.noteSet (3, c)

/-- A fault of retry channel `c` counts a try, and either latches or waits (R292). The Bool says it latched. -/
def State.retryFault (s : State) (c : Nat) : State × Bool :=
  let n := min (s.get F.GDI_RETRYSTAT_COUNT c + 1) 15
  let s1 := s.put F.GDI_RETRYSTAT_COUNT n c
  if n ≥ s.get F.GDI_RETRYCFG_TRIES c then
    ((s1.put F.GDI_RETRYSTAT_LATCHED 1 c).put F.GDI_RETRYSTAT_WAITING 0 c, true)
  else (s1.put F.GDI_RETRYSTAT_WAITING 1 c, false)

/-- Whether the pump's start is still under way: it holds budget units until then (R114, R288). -/
def pumpBusyState (st : Nat) : Bool := st == pumpDiag || st == pumpBoot || st == pumpStarting

/-- What every pump fault does at once (R288, R291): the code, EV_PU_FAULT with the code in CTX1 and `c0` in CTX0, and the end of a
start, whose budget units return at the next boundary. -/
def State.pumpFaultNote (s : State) (c0 code : Nat) : State :=
  let s1 := ((s.put F.GDI_PUSTAT_LASTFAULT code).pulse Ev.PU_FAULT c0 code).firstCause 7 code
  let s2 := { s1 with
    pump := { s1.pump with
      unitBack := s1.pump.unitBack || pumpBusyState (s.get F.GDI_PUSTAT_STATE), cut := false, limited := 0, step := 0 },
    budget := { s1.budget with queue := s1.budget.queue.filter (fun r => !r.pump) } }
  s2.relatch 0

/-- A pump that has been cleared in this control tick is LATCHED again by a fault (R293). -/
def State.pumpStays (s : State) : Bool :=
  s.get F.GDI_PUSTAT_STATE == pumpLatched || s.flag F.GDI_RETRYSTAT_LATCHED 0

/-- A pump fault (R291, R292). A latch has its time-stamp in CTX1 (R282). -/
def State.pumpFaultAt (s : State) (c0 code : Nat) : State :=
  let s2 := s.pumpFaultNote c0 code
  if s2.pumpStays then s2.put F.GDI_PUSTAT_STATE pumpLatched
  else
    let (s3, latched) := s2.retryFault 0
    if latched then (s3.put F.GDI_PUSTAT_STATE pumpLatched).pulse Ev.PU_LATCH 0 s3.ctcnt
    else s3.put F.GDI_PUSTAT_STATE pumpWait

def State.pumpFault (s : State) (code : Nat) : State := s.pumpFaultAt 0 code

/-- The OV fault (R290): the try counts, and a pump that is not LATCHED shows WAIT with its low sides on; the wait or the latch of R292
begins when the brake ends (log entry 66). A pump that another fault has latched in this control tick keeps its latch, and the low-side
brake holds (R293). -/
def State.pumpOv (s : State) : State :=
  let s2 := s.pumpFaultNote 0 8
  if s2.pumpStays then
    let s3 := s2.put F.GDI_PUSTAT_STATE pumpLatched
    { s3 with pump := { s3.pump with ovBrake := s.gdi.nowAct.contains (3, 0) } }
  else
    let n := min (s2.get F.GDI_RETRYSTAT_COUNT 0 + 1) 15
    let s3 := ((s2.put F.GDI_RETRYSTAT_COUNT n 0).put F.GDI_RETRYSTAT_WAITING 0 0).put F.GDI_PUSTAT_STATE pumpWait
    { s3 with pump := { s3.pump with ovBrake := true } }

/-- The low-side brake ends (R290): every gate is off, and the pump waits or latches by the tries counted. -/
def State.ovBrakeEnd (s : State) : State :=
  let t : State := { s with pump := { s.pump with ovBrake := false } }
  if t.get F.GDI_PUSTAT_STATE ≠ pumpWait ∨ t.flag F.GDI_RETRYSTAT_WAITING 0 then t
  else if t.get F.GDI_RETRYSTAT_COUNT 0 ≥ t.get F.GDI_RETRYCFG_TRIES 0 then
    ((t.put F.GDI_RETRYSTAT_LATCHED 1 0).put F.GDI_PUSTAT_STATE pumpLatched).pulse Ev.PU_LATCH 0 t.ctcnt
  else t.put F.GDI_RETRYSTAT_WAITING 1 0

/-- A chopper's energy fault (R268, R292). -/
def State.chopFault (s : State) (c : Nat) : State :=
  let s1 := ((s.raise Ev.LV_CHOP_E c s.ctcnt).firstCause 6 c).relatch (c + 1)
  let s3 := if s1.flag F.GDI_RETRYSTAT_LATCHED (c + 1) then s1
    else
      let (s2, latched) := s1.retryFault (c + 1)
      if latched then s2.pulse Ev.CHOP_LATCH c s.ctcnt else s2
  (s3.dropChan (16 + c)).refresh (16 + c)

/-- The chopper's energy cause has ended (R292). -/
def State.chopCool (s : State) (c : Nat) : Bool :=
  (s.chan (16 + c)).energy ≤ ((s.img.plant.chops.getD c ⟨0, 0⟩).ej : Rat) / 2

/-- The cause of a pump fault has ended (R291); that of a diagnostic fault, codes 1 to 3, ends with a new run that passes, and none runs
while the pump waits or is latched. -/
def State.pumpCauseEnded (s : State) (code : Nat) : Bool :=
  let vm := s.get F.GDI_PUVM_VM
  let hall := s.get F.GDI_PUSTAT_HALL
  if 1 ≤ code && code ≤ 3 then false
  else if code = 6 then hall != 0 && hall != 7
  else if code = 8 || code = 0xB then vm ≤ s.get F.GDI_PUVLIM1_BRKOFF
  else if code = 9 then vm ≥ s.get F.GDI_PUVLIM0_UVLIM + 20
  else true

/-- Sector of a valid Hall code (R284). -/
def hallSector (code : Nat) : Nat :=
  if code = 4 then 0 else if code = 6 then 1 else if code = 2 then 2 else if code = 3 then 3
  else if code = 1 then 4 else 5

/-- The sector the bridge uses: HALLOFS and DIR applied (R284). -/
def State.pumpSector (s : State) : Nat :=
  (s.pump.sector + s.get F.GDI_PUCFG_HALLOFS + 3 * s.get F.GDI_PUCFG_DIR) % 6

/-- The PWM phase and the low-side phase of a sector: 0 = U, 1 = V, 2 = W (R284). -/
def sectorPhases (k : Nat) : Nat × Nat :=
  if k = 0 then (0, 1) else if k = 1 then (0, 2) else if k = 2 then (1, 2) else if k = 3 then (1, 0)
  else if k = 4 then (2, 0) else (2, 1)

/-- The pump commutates: STARTING or RUNNING (R288). -/
def State.pumpDrives (s : State) : Bool :=
  s.get F.GDI_PUSTAT_STATE == pumpStarting || s.get F.GDI_PUSTAT_STATE == pumpRunning

/-- The phase that switches by PWM and the low-side phases, as sets, bit x for phase x = U, V, W: what each pump state drives (R284,
R288, R290). -/
def State.pumpRoles (s : State) : Nat × Nat :=
  let st := s.get F.GDI_PUSTAT_STATE
  if st = pumpBoot ∨ ((st = pumpWait ∨ st = pumpLatched) ∧ s.pump.ovBrake) then (0, 7)
  else if s.pumpDrives then (2 ^ (sectorPhases s.pumpSector).1, 2 ^ (sectorPhases s.pumpSector).2)
  else (0, 0)

/-- The pump's PWM counter (R285): CT since its last wrap, modulo GDI_PUPWM.PER. -/
def State.pumpCounter (s : State) : Nat := (s.ct - s.pump.wrapAt) % s.get F.GDI_PUPWM_PER

/-- Its compare: the duty of PER, rounded as R258 rounds a duty. -/
def State.pumpCmp (s : State) : Nat := (roundHalfAway (mkRat (s.pump.duty * (s.get F.GDI_PUPWM_PER : Nat)) (2 ^ 30))).toNat

/-- The high side of the PWM phase is commanded on: the counter is below the compare and the cycle is not cut (R285, R286). -/
def State.pumpHigh (s : State) : Bool := s.pumpDrives && decide (s.pumpCounter < s.pumpCmp) && !s.pump.cut

/-- Dead time PUDT has passed since a tick of the past. -/
def State.pudtSince (s : State) (c : Nat) : Bool := decide (c + s.get F.GDI_PUCFG_PUDT ≤ s.ct)

/-- The six gates as high-side and low-side sets (R284 to R286, R288, R290). A gate that turns off does so at once; one that turns on
waits PUDT after the edge of its phase, and after a change of the phases that gave it its part. -/
def State.pumpGates (s : State) : Nat × Nat :=
  let (p, l) := s.pumpRoles
  if !s.pumpDrives then (0, l)
  else
    let q := s.pump
    let moved := s.pudtSince (q.commAt + 1)
    let same := q.wasPwm == p || moved
    let hi := same && s.pumpHigh && decide (s.get F.GDI_PUCFG_PUDT ≤ s.pumpCounter)
    let lo := same && !s.pumpHigh && (s.pumpCmp == 0 || decide (s.pumpCmp + s.get F.GDI_PUCFG_PUDT ≤ s.pumpCounter) ||
      (q.cut && s.pudtSince q.cutAt))
    let low := if moved then l else l &&& q.wasLow
    (if hi then p else 0, low + if lo then p else 0)

/-- The phases of `t` take over from those of `s`. -/
def State.commutate (s t : State) : State :=
  if t.pumpRoles = s.pumpRoles then t
  else { t with pump := { t.pump with commAt := s.ct, wasPwm := s.pumpRoles.1, wasLow := s.pumpRoles.2 } }

/-- A high side is commanded on while its bootstrap is low (R285). -/
def State.checkBoot (s : State) : State :=
  if s.pump.bootLow && s.pumpHigh then s.pumpFault 4 else s

end Sys2Proof.Machine
end

