-- ==== Sys2Proof/Machine/SafeOps.lean ====
section
/-! DEFINITION. The whiteout latch and the states of the safe inputs and telegram connections that every demand shares
(R345 to R361). -/

namespace Sys2Proof.Machine

/-- Set the whiteout latch with a cause (R345, R346): the first cause is recorded, every class that demands is collected, and
the LV outputs go low. A reset that waits for its boundary loses to the demand, and one of the same control tick counts as refused
(R349). -/
def State.setWhiteout (s : State) (cls idx : Nat) : State :=
  let r := if s.saf.resetAt ∧ s.saf.resetCt = s.ct then (s.put F.SAF_STAT_RST_REJ 1).pulse Ev.SAF_RST_REJ else s
  let s0 := { r with saf := { r.saf with resetAt := false, resetHold := false, demandAt := some r.ct } }
  if s0.whiteout then s0.put F.SAF_STAT_CAUSES (setBit (s0.get F.SAF_STAT_CAUSES) (cls - 1) true)
  else
    let s1 := (s0.put F.SAF_STAT_CAUSES (2 ^ (cls - 1))).put F.SAF_STAT_WO 1
    let s2 := ((s1.put F.SAF_WOCAUSE_CLASS cls).put F.SAF_WOCAUSE_INDEX idx).put F.SAF_WOTIME_CT s1.ctcnt
    let s3 := { s2 with saf := { s2.saf with blkSent := false } }
    ((s3.raise Ev.SAF_WHITEOUT cls idx).dropScope (2 ^ 18 - 1)).refreshAll

/-- The safe inputs' engine record. -/
def State.safeIn (s : State) (n : Nat) : SafeIn := Sparse.get (fun _ => {}) s.saf.inputs n
def State.setSafeIn (s : State) (n : Nat) (x : SafeIn) : State :=
  { s with saf := { s.saf with inputs := Sparse.set (fun _ => {}) s.saf.inputs n x } }

/-- A telegram connection's engine record. -/
def State.tgConn (s : State) (t : Nat) : TgConn := Sparse.get (fun _ => {}) s.saf.conns t
def State.setTgConn (s : State) (t : Nat) (x : TgConn) : State :=
  { s with saf := { s.saf with conns := Sparse.set (fun _ => {}) s.saf.conns t x } }

/-- Whether input `n` is tested by the head's own pulses (R351). -/
def State.safeMode (s : State) (n : Nat) : Nat := s.get F.SAF_INCFG_MODE n

/-- A channel of input `n` is in demand: low, unless the input is unused (R351). Bit set means released (high). -/
def State.safeChanDemand (s : State) (n : Nat) (b : Bool) : Bool :=
  s.safeMode n != 0 && !(s.get (if b then F.SAF_CHAN_B else F.SAF_CHAN_A)).testBit n

/-- A latched test-pulse fault or discrepancy keeps the input in demand until reset (R353, R355). -/
def State.safeLatched (s : State) (n : Nat) : Bool :=
  (s.get F.SAF_INSTAT_AFLT).testBit n || (s.get F.SAF_INSTAT_BFLT).testBit n || (s.get F.SAF_INSTAT_DISC).testBit n

/-- Input `n` is in demand on its levels (R354). -/
def State.safeLevel (s : State) (n : Nat) : Bool := s.safeChanDemand n false || s.safeChanDemand n true

/-- Demand of input `n` follows its channels and latches; a demand that begins with ACT = 1 sets the whiteout latch with the
class given, and with ACT = 0 raises EV_SAF_DEMAND (R354). A test-pulse fault or a discrepancy (class 3 or 4), and a level that `rose` into
demand, demand even where the input is in demand already on a latch (R345). -/
def State.safeFollow (s : State) (n cls : Nat) (rose : Bool) : State :=
  let dem := s.safeMode n != 0 && (s.safeLevel n || s.safeLatched n)
  let was := (s.get F.SAF_INSTAT_DEMAND).testBit n
  let s1 := s.putBit F.SAF_INSTAT_DEMAND n dem
  if dem && (!was || cls != 2 || rose) then
    if s1.flag F.SAF_INCFG_ACT n then s1.setWhiteout cls n else if was then s1 else s1.raise Ev.SAF_DEMAND n
  else if !dem && s1.get F.SAF_INSTAT_DEMAND = 0 then s1.clearAct Ev.SAF_DEMAND else s1

end Sys2Proof.Machine
end

