-- ==== Sys2Proof/Machine/CellOps.lean ====
section
/-! DEFINITION. The cells as the head tracks them (R14 to R23, R165 to R189): the table entry's fields, the state moves that
several rules share, the start budget, records and their check, and staging sets. -/

namespace Sys2Proof.Machine

/-! ### The table entry (R14, R102) -/

def State.entry (s : State) (c w : Nat) : Nat := (s.rd (0xB0000 + 0x100 * c + 4 * w)).toNat

def State.cLane (s : State) (c : Nat) : Nat := bitsOf (s.entry c 0) 13 9
def State.cPos (s : State) (c : Nat) : Nat := bitsOf (s.entry c 0) 17 14
def State.cGroup (s : State) (c : Nat) : Nat := bitsOf (s.entry c 0) 20 18
def State.cSlot (s : State) (c : Nat) : Nat := bitsOf (s.entry c 0) 27 21
def State.cMain (s : State) (c : Nat) : Bool := !bitOf (s.entry c 0) 28
def State.cByp (s : State) (c : Nat) : Nat := bitsOf (s.entry c 0) 30 29
/-- IDHASH of the entry. -/
def State.cHash (s : State) (c : Nat) : Nat := s.entry c 1 + 2 ^ 32 * s.entry c 2
/-- VCAP_NOM and VCAP_MAX, 0.1 V. -/
def State.vnom (s : State) (c : Nat) : Nat := bitsOf (s.entry c 3) 15 0
def State.vmax (s : State) (c : Nat) : Nat := bitsOf (s.entry c 3) 31 16
/-- CCAP, µF; IARM_RAT and IARM_MAX, 0.1 A. -/
def State.ccap (s : State) (c : Nat) : Nat := bitsOf (s.entry c 4) 15 0
def State.iarmRat (s : State) (c : Nat) : Nat := bitsOf (s.entry c 4) 31 16
def State.iarmMax (s : State) (c : Nat) : Nat := bitsOf (s.entry c 5) 15 0
/-- PDAB_RAT, 0.1 kW; NDAB, 1/256; LDAB, 0.1 µH; THS_MAX, °C. -/
def State.pdab (s : State) (c : Nat) : Nat := bitsOf (s.entry c 5) 31 16
def State.ndab (s : State) (c : Nat) : Nat := bitsOf (s.entry c 6) 15 0
def State.ldab (s : State) (c : Nat) : Nat := bitsOf (s.entry c 6) 31 16
def State.thsMax (s : State) (c : Nat) : Nat := bitsOf (s.entry c 7) 7 0

/-! ### States (R185) -/

def csEmpty : Nat := 0
def csAbsent : Nat := 1
def csRefused : Nat := 2
def csBlocked : Nat := 3
def csQueued : Nat := 4
def csPrecharge : Nat := 5
def csReady : Nat := 6
def csRun : Nat := 7
def csSpare : Nat := 8
def csBypassed : Nat := 9
def csLost : Nat := 10
def csFailed : Nat := 11

def State.cState (s : State) (c : Nat) : Nat := s.get F.CELL_STAT_STATE c
def State.setCState (s : State) (c n : Nat) : State := s.put F.CELL_STAT_STATE n c

/-- The cell numbers that have a table entry. -/
def State.cellList (s : State) : List Nat := (List.range 288).filter fun c => s.cState c != csEmpty

/-- The cells of a group, ascending. -/
def State.groupCells (s : State) (g : Nat) : List Nat := s.cellList.filter fun c => s.cGroup c == g

/-- The cells of a lane, ascending by number. -/
def State.laneCells (s : State) (l : Nat) : List Nat := s.cellList.filter fun c => s.cLane c == l

/-- The cell at a position of a lane. -/
def State.cellAt (s : State) (l i : Nat) : Option Nat := (s.laneCells l).find? fun c => s.cPos c == i

/-- Groups in use. -/
def State.groupsUsed (s : State) : List Nat := (List.range 6).filter fun g => !(s.groupCells g).isEmpty

/-- In service: RUN, and not on its way out (R185). -/
def State.inService (s : State) (c : Nat) : Bool := s.cState c == csRun && !(s.cell c).leaving

/-- Cells in service of a group (R21). -/
def State.nSvc (s : State) (g : Nat) : Nat := ((s.groupCells g).filter s.inService).length

/-- N of a group: its main cells (R15). -/
def State.nMain (s : State) (g : Nat) : Nat := ((s.groupCells g).filter s.cMain).length

/-- Cells of a group that are neither REFUSED nor LOST (R22). -/
def State.nAvail (s : State) (g : Nat) : Nat :=
  ((s.groupCells g).filter fun c => s.cState c != csRefused && s.cState c != csLost).length

def State.group (s : State) (g : Nat) : Group := Sparse.get (fun _ => {}) s.groups g
def State.setGroup (s : State) (g : Nat) (x : Group) : State := { s with groups := Sparse.set (fun _ => {}) s.groups g x }

/-! ### The start budget (R114, R115) -/

/-- Free budget units. -/
def State.freeUnits (s : State) : Nat := s.img.budget - s.budget.used

/-- A request's place in the queue: by period, then the pump, then ascending cell number (R115). -/
def startBefore (a b : StartReq) : Bool :=
  if a.period != b.period then a.period < b.period
  else if a.pump != b.pump then a.pump
  else a.cell < b.cell

/-- Insert a request in its place. -/
def insertReq (r : StartReq) : List StartReq → List StartReq
  | [] => [r]
  | q :: l => if startBefore r q then r :: q :: l else q :: insertReq r l

/-- Queue a cell's start. -/
def State.queueCell (s : State) (c : Nat) : State :=
  { s.setCState c csQueued with budget := { s.budget with queue := insertReq ⟨false, c, s.period⟩ s.budget.queue } }

/-- Take a cell out of the queue. -/
def State.unqueueCell (s : State) (c : Nat) : State :=
  { s with budget := { s.budget with queue := s.budget.queue.filter fun r => r.pump || r.cell != c } }

/-- A cell's unit, if it holds one, returns at the next boundary (R114, R186). -/
def State.giveUnitBack (s : State) (c : Nat) : State :=
  if (s.cell c).unit then s.setCell c { s.cell c with unitBack := true } else s

/-! ### Staging sets (R180 to R183) -/

/-- HDR, DATA and CHECK words of a set (R180). -/
def stageWords (tag : Nat) (imm : Bool) (pairs : List (Nat × Word)) : List Word :=
  let data := pairs.flatMap fun p => [BitVec.ofNat 32 p.1, p.2]
  let hdr : Word := BitVec.ofNat 32 (tag + 256 * data.length + (if imm then 2 ^ 31 else 0))
  hdr :: data ++ [BitVec.ofNat 32 (crc32c (bytesOf (hdr :: data)))]

/-- Put a set behind those a cell has waiting; tags count up modulo 256. -/
def State.stage (s : State) (c : Nat) (kind : SetKind) (pairs : List (Nat × Word)) : State :=
  let x := s.cell c
  let tag := (x.lastTag + 1) % 256
  s.setCell c { x with lastTag := tag, sets := x.sets ++ [⟨kind, tag, stageWords tag (kind != .txn) pairs, 0, 0⟩] }

/-- The words of a set under another tag. -/
def retag (tag : Nat) (ws : List Word) : List Word :=
  let data := (ws.drop 1).dropLast
  let hdr : Word := (ws.headD 0 &&& ~~~ 0xFF) ||| BitVec.ofNat 32 tag
  hdr :: data ++ [BitVec.ofNat 32 (crc32c (bytesOf (hdr :: data)))]

/-- The parameter set of R183: all ten parameters. -/
def State.paramPairs (s : State) (c : Nat) : List (Nat × Word) :=
  (List.range 10).map fun n => (n, s.rd (F.CELL_PRM_VALUE.addr c n))

/-! ### Moves between states -/

/-- An affected cell of a transaction that is committing is to be staged its set again at k_act (R80). -/
def State.noteRestage (s : State) (c : Nat) : State :=
  let x := s.bus.txn
  if (s.get F.SYS_TXNSTAT_STATE = 2 ∨ s.get F.SYS_TXNSTAT_STATE = 3) ∧ x.affected.contains c ∧ ¬x.restage.contains c then
    { s with bus := { s.bus with txn := { x with restage := x.restage ++ [c] } } }
  else s

/-- Enter BLOCKED: the parameter set is delivered afresh (R183). A host BYPASS in effect still removes the cell at T_OPEN (R187). -/
def State.enterBlocked (s : State) (c : Nat) : State :=
  let t := ((s.noteRestage c).setCState c csBlocked).put F.CELL_STAT_PRMOK 0 c
  let t := t.setCell c { t.cell c with
    release := false, prech := 0, leaving := false, okRun := 0, lostDue := false
    sets := (t.cell c).sets.filter fun x => x.kind != .params }
  t.stage c .params (t.paramPairs c)

/-- The state a removed cell goes to: BYPASSED if it has a bypass, FAILED otherwise (R185). -/
def State.removedState (s : State) (c : Nat) : Nat := if s.cByp c = 0 then csFailed else csBypassed

/-- A state from which a cell can be removed (R48, R185). -/
def removable (st : Nat) : Bool := st == csQueued || st == csPrecharge || st == csReady || st == csRun || st == csSpare

/-- Leave service and the queue, keeping the new state. -/
def State.leaveTo (s : State) (c st : Nat) : State :=
  let t := ((s.giveUnitBack c).unqueueCell c).setCState c st
  t.setCell c { t.cell c with prech := 0, leaving := false, bypassDue := false, release := false }

/-- Remove a cell (R185). -/
def State.removeCell (s : State) (c : Nat) : State := s.leaveTo c (s.removedState c)

/-- A cell is REFUSED from any state (R178); one that leaves service so is compensated (R231). -/
def State.refuseCell (s : State) (c : Nat) : State :=
  let run := s.inService c
  let t := (s.leaveTo c csRefused).pulse Ev.CELL_IDENT c
  let x := t.cell c
  t.setCell c { x with
    fresh := false, loSeen := false, hiSeen := false, lostDue := false, eng := { x.eng with comp := x.eng.comp || run } }

/-- The condition of R19 under which IDHASH may be changed. -/
def hashWritable (st : Nat) : Bool := st == csBypassed || st == csBlocked || st == csRefused || st == csFailed

/-- MODE.CMD of a state (R185): PRECHARGE 1, RUN 2, SPARE 3, BYPASS 4, else BLOCK. -/
def modeOf (st : Nat) : Nat :=
  if st = csPrecharge ∨ st = csReady then 1 else if st = csRun then 2 else if st = csSpare then 3
  else if st = csBypassed then 4 else 0

/-! ### Records (R169) -/

/-- The CRC of a record with its lane and position. -/
def recordCrc (ws : List Word) (lane pos : Nat) : Nat :=
  let w7 := (ws.getD 7 0).toNat
  ((bytesOf (ws.take 7)) ++ [BitVec.ofNat 8 w7, BitVec.ofNat 8 (w7 / 256), BitVec.ofNat 8 lane, BitVec.ofNat 8 pos]).foldl
    crc16Byte 0xFFFF

/-- A record's CRC is right. -/
def recordOk (ws : List Word) (lane pos : Nat) : Bool :=
  bitsOf (ws.getD 7 0).toNat 31 16 == recordCrc ws lane pos

/-- A record of eight words with its CRC filled in. -/
def sealRecord (ws : List Word) (lane pos : Nat) : List Word :=
  let w7 := bitsOf (ws.getD 7 0).toNat 15 0
  let base := ws.take 7 ++ [BitVec.ofNat 32 w7]
  ws.take 7 ++ [BitVec.ofNat 32 (w7 + 65536 * recordCrc base lane pos)]

/-! ### Measured values under R42 -/

/-- Feed a quantity with this period's valid value or with none: the last valid value until the timeout in periods passes,
then the substitute (R42, R176). -/
def Quant.feed (q : Quant) (m : Option Int) (sub : Int) (timeout : Nat) : Quant :=
  match m with
  | some v => { last := v, age := 0, seen := true, val := v, ok := true }
  | none =>
    let age := q.age + 1
    { q with age := age, ok := false, val := if q.seen && age ≤ timeout then q.last else sub }

/-- What a block reads of a quantity: one that never had a valid value gives its substitute, INVALID (R42). -/
def Quant.seenOr (q : Quant) (sub : Int) : Int × Bool := if q.seen then (q.val, q.ok) else (sub, false)

/-- PU16 as PU32. -/
def pu32of16 (z : Int) : Int := z * 65536

/-- A THS or TJ code as PU32 on 100 °C: 0.1 °C a step, offset −50 °C. -/
def pu32ofTemp (code : Int) : Int := roundHalfAway (mkRat ((code - 500) * 2 ^ 30) 1000)

end Sys2Proof.Machine
end

