-- ==== Sys2Proof/Machine/CeOps.lean ====
section
/-! DEFINITION. The control engine (R190 to R216): formats and saturation, the block library, sources, the placement of the
graph, and the power arbiter. Every value is a rational between blocks and is rounded once, to its format (R193). -/

namespace Sys2Proof.Machine

/-! ### Formats (R192, R193) -/

/-- A code with `f` fraction bits as a rational. -/
def ofCode (f : Nat) (z : Int) : Rat := mkRat z (2 ^ f)

/-- PU32 and Q2.30, Q8.24, Q2.62 codes as rationals. -/
def q30 (z : Int) : Rat := ofCode 30 z
def q24 (z : Int) : Rat := ofCode 24 z
def q62 (z : Int) : Rat := ofCode 62 z

/-- Round a rational to a signed code of `n` bits with `f` fraction bits; the Bool says it saturated. -/
def toCode (n f : Nat) (q : Rat) : Int × Bool :=
  let z := roundHalfAway (q * 2 ^ f)
  let c := satSigned n z
  (c, c != z)

/-- To PU32 and to Q2.62. -/
def pu32 (q : Rat) : Int × Bool := toCode 32 30 q
def st62 (q : Rat) : Int × Bool := toCode 64 62 q

/-- A quotient; division by zero has a value the spec does not state. -/
def qdiv (a b : Rat) : Rat := if b = 0 then Config.divByZero a else a / b

/-- Clamp a rational. -/
def clampQ (lo hi q : Rat) : Rat := max lo (min hi q)

/-- Sign with sign(0) = +1 (R245). -/
def signQ (q : Rat) : Rat := if q < 0 then -1 else 1

/-! ### Instances (R198) -/

def State.ninst (s : State) : Nat := s.get F.CE_CFG_NINST

/-- Word `w` of instance `n`. -/
def State.instW (s : State) (n w : Nat) : Word := s.rd (0x48000 + 0x30 * n + 4 * w)

def State.instType (s : State) (n : Nat) : Nat := fieldGet (s.instW n 0) 7 0
def State.instGroup (s : State) (n : Nat) : Nat := fieldGet (s.instW n 0) 10 8
def State.instArb (s : State) (n : Nat) : Bool := fieldGet (s.instW n 0) 11 11 = 1
def State.instIns (s : State) (n : Nat) : Nat := fieldGet (s.instW n 0) 14 12 + 1
def State.instDly (s : State) (n j : Nat) : Bool := (s.instW n 0).getLsbD (16 + j)

/-- Source code of input `j`: inputs 4 to 7 of a MINSEL stand in words 3 and 4. -/
def State.instSrc (s : State) (n j : Nat) : Nat :=
  let w := s.instW n (1 + j / 2)
  if j % 2 = 0 then fieldGet w 11 0 else fieldGet w 27 16

/-- Weight of input `j`, Q8.24. -/
def State.instGain (s : State) (n j : Nat) : Int := (s.instW n (3 + j)).toInt

/-- Parameter `j` as a word and as a signed code. -/
def State.instP (s : State) (n j : Nat) : Word := s.instW n (7 + j)
def State.instPS (s : State) (n j : Nat) : Int := (s.instP n j).toInt

/-- Block types (R194). -/
def tPI : Nat := 1
def tPR : Nat := 2
def tNOTCH : Nat := 3
def tLIMIT : Nat := 4
def tRAMP : Nat := 5
def tMINSEL : Nat := 6
def tOBS : Nat := 7
def tALLOCIF : Nat := 8
def tTRACE : Nat := 9
def tCAPOBS : Nat := 0x10
def tFLUXOBS : Nat := 0x11
def tHSHARE : Nat := 0x12
def tDABOPT : Nat := 0x13

/-- A V block runs per cell. -/
def isV (t : Nat) : Bool := t ≥ 0x10

/-- The instance of a type for a group. -/
def State.vInst (s : State) (t g : Nat) : Option Nat :=
  (List.range s.ninst).find? fun n => s.instType n == t && s.instGroup n == g

/-! ### Placement (R202) -/

/-- Cost in CT of an S instance (R194). -/
def State.instCost (s : State) (n : Nat) : Nat :=
  let t := s.instType n
  let m := s.instIns n
  let extra := m - 1
  if t = tPI then 8 + extra else if t = tPR then 14 + extra else if t = tNOTCH then 10 + extra
  else if t = tLIMIT then 4 + extra else if t = tRAMP then 5 + extra else if t = tMINSEL then 4 + m
  else if t = tOBS then
    let k := fieldGet (s.instP n 0) 1 0 + 1
    6 + 2 * k * k + extra
  else if t = tALLOCIF then 6 + extra else 1 + extra

/-- S instances that instance `n` reads through inputs without DLY. -/
def State.directDeps (s : State) (n : Nat) : List Nat :=
  (List.range (s.instIns n)).filterMap fun j =>
    let c := s.instSrc n j
    if s.instDly n j || c ≥ 0x800 then none else if isV (s.instType c) then none else some c

/-- Further sources an instance reads: FSRC and MODSRC of PR, MEAS of RAMP (R194). They are read as this period's outputs where
the instance has already run, and as the last period's otherwise. -/
def State.extraDeps (s : State) (n : Nat) : List Nat :=
  let t := s.instType n
  let l := if t = tPR then
      [fieldGet (s.instP n 1) 27 16] ++ (if (s.instP n 4).getLsbD 16 then [fieldGet (s.instP n 4) 11 0] else [])
    else if t = tRAMP then [fieldGet (s.instP n 1) 11 0] else []
  l.filter fun c => c < 0x800 && !isV (s.instType c)

def State.deps (s : State) (n : Nat) : List Nat := s.directDeps n ++ s.extraDeps n

/-- Close a set of instances under direct dependence; `fuel` bounds the rounds. -/
def State.closeDeps (s : State) : Nat → List Nat → List Nat
  | 0, l => l
  | k + 1, l =>
    let more := (l.flatMap s.directDeps).eraseDups.filter fun d => !l.contains d
    if more.isEmpty then l else s.closeDeps k (l ++ more)

/-- Topological order with ties by ascending number: repeatedly take the least instance all of whose dependences within the
set are placed. The Bool says that all were placed (the graph is acyclic). -/
def State.topo (s : State) : Nat → List Nat → List Nat → List Nat × Bool
  | 0, todo, done => (done, todo.isEmpty)
  | k + 1, todo, done =>
    if todo.isEmpty then (done, true) else
    match todo.find? fun n => (s.directDeps n).all fun d => done.contains d || !todo.contains d with
    | none => (done, false)
    | some n => s.topo k (todo.filter (· != n)) (done ++ [n])

/-- S_B, S_TOT, W_need, the order, and whether the S graph is acyclic. -/
structure Placement where
  order : List Nat
  acyclic : Bool
  sB : Nat
  sTot : Nat
  wNeed : Nat
  deriving DecidableEq, Repr

/-- B_set of R202: the S instances that a V input without DLY reads, with all they read without DLY. -/
def State.bset (s : State) : List Nat :=
  s.closeDeps s.ninst ((((List.range s.ninst).filter fun n => isV (s.instType n)).flatMap s.directDeps).eraseDups)

/-- The placement of R202. -/
def State.place (s : State) : Placement :=
  let all := List.range s.ninst
  let ss := all.filter fun n => !isV (s.instType n)
  let bset := s.bset
  let (o1, a1) := s.topo ss.length (ss.filter fun n => bset.contains n) []
  let (o2, a2) := s.topo ss.length (ss.filter fun n => !bset.contains n) o1
  let cost := fun l => (l.map s.instCost).foldl (· + ·) 0
  let sB := cost o1
  let sTot := cost o2
  let cs := if s.flag F.CE_CFG_SMODE then s.cellList.length / 3 else s.cellList.length
  ⟨o2, a1 && a2, sB, sTot, max (max (4 * cs) sB + 8 * cs) sTot⟩

/-! ### Sources (R197) -/

/-- What a window has computed so far: outputs and invalid instances of this period. -/
structure Env where
  outs : Sparse Int
  bad : List Nat
  ran : List Nat
  deriving DecidableEq, Repr

/-- A value of a list of inputs, 0 and INVALID where there is none. -/
def listVal (l : List (Int × Bool)) (i : Nat) : Int × Bool := l.getD i (0, false)

/-- A source outside the instances. -/
def Snap.src (x : Snap) (code : Nat) : Int × Bool :=
  if 0x800 ≤ code ∧ code ≤ 0x817 then listVal x.fast (code - 0x800)
  else if 0x820 ≤ code ∧ code ≤ 0x84F then listVal x.agg (code - 0x820)
  else if 0x880 ≤ code ∧ code ≤ 0x8FF then listVal x.net (code - 0x880)
  else if 0x900 ≤ code ∧ code ≤ 0x91F then listVal x.hk (code - 0x900)
  else if code = 0x920 then (x.therm, true)
  else if code = 0x921 then (x.safe, true)
  else if 0x930 ≤ code ∧ code ≤ 0x93F then (x.sp.getD (code - 0x930) 0, true)
  else (0, false)

/-- Whether a source code is defined (R197). -/
def srcDefined (ninst code : Nat) : Bool :=
  (code < 0x800 && code < ninst) || (0x800 ≤ code && code ≤ 0x817) || (0x820 ≤ code && code ≤ 0x84F) ||
  (0x880 ≤ code && code ≤ 0x91F) || code == 0x920 || code == 0x921 || (0x930 ≤ code && code ≤ 0x93F)

/-- An instance's output of the last period. -/
def State.prevOut (s : State) (n : Nat) : Int × Bool := ((s.rd (F.CE_OUT_WORD.addr n)).toInt, !s.ce.bad.contains n)

/-- The value of a source in this window, or the last period's with DLY; a V instance's mean is always the last period's. -/
def State.srcVal (s : State) (e : Env) (code : Nat) (dly : Bool) : Int × Bool :=
  if code < 0x800 then
    if dly || isV (s.instType code) || !e.ran.contains code then s.prevOut code
    else (Sparse.get (fun _ => 0) e.outs code, !e.bad.contains code)
  else if dly then s.ce.prev.src code else s.ce.snap.src code

/-- The value of a source outside a window: after it, for the LV commit, the pump and traces. -/
def State.srcNow (s : State) (code : Nat) : Int × Bool := if code < 0x800 then s.prevOut code else s.ce.snap.src code

/-! ### Blocks (R194, R195) -/

/-- What a block yields: its output, its states, how many of its results saturated, and a PI's proportional term. -/
structure BlkRes where
  out : Int
  st : List Int
  sat : Nat
  p : Rat := 0
  deriving DecidableEq, Repr

/-- How many of some results saturated. -/
def satCount (l : List Bool) : Nat := l.count true

/-- The weighted sum of an instance's inputs, with input 0 multiplied by `m` (R194), and its validity. -/
def State.workIn (s : State) (e : Env) (n : Nat) (m : Rat) : (Int × Bool) × Bool :=
  let js := List.range (s.instIns n)
  let vs := js.map fun j => (s.srcVal e (s.instSrc n j) (s.instDly n j), j)
  let sum := vs.foldl (fun (a : Rat) v =>
    a + q24 (s.instGain n v.2) * q30 v.1.1 * (if v.2 = 0 then m else 1)) 0
  (pu32 sum, vs.all fun v => v.1.2)

/-- The states of a block. -/
def State.blkSt (s : State) (n : Nat) : List Int := Sparse.get (fun _ => []) s.ce.blk n

/-- PI (R195). -/
def blkPI (x kp ki omax omin : Int) (st : List Int) : BlkRes :=
  let p := q24 kp * q30 x
  let (i1, sat1) := st62 (q62 (st.getD 0 0) + q24 ki * q30 x)
  let (i2, sat2) := st62 (clampQ (q30 omin - p) (q30 omax - p) (q62 i1))
  let (u, _) := pu32 (clampQ (q30 omin) (q30 omax) (p + q62 i2))
  ⟨u, [i2], satCount [sat1, sat2], p⟩

/-- The cosine of an angle within a quarter turn, by its series; the rest is below 2⁻⁷⁰. -/
def cosSeries (x : Rat) : Rat :=
  (List.range 14).foldr (fun k a => 1 - a * (x * x) / ((2 * k + 1) * (2 * k + 2) : Nat)) 1

/-- The cosine of `k` 256ths of a turn in units of 2⁻³⁰: exact at the quarter turns, elsewhere the integer below, or with `up` the one
above (R192, R194). -/
def cosEntry (up : Bool) (k : Nat) : Int :=
  let j := k % 256
  if j = 0 then 2 ^ 30 else if j = 64 ∨ j = 192 then 0 else if j = 128 then -(2 ^ 30)
  else
    let h := if j ≤ 128 then j else 256 - j
    let c := if h ≤ 64 then cosSeries (2 * piQ * mkRat h 256) else -(cosSeries (2 * piQ * mkRat (128 - h) 256))
    (c * 2 ^ 30).floor + if up then 1 else 0

/-- The tables that PR reads; how an entry is rounded is free. -/
def cosTable (k : Nat) : Int := cosEntry (Config.cosUp (k % 256)) k
def sinTable (k : Nat) : Int := cosEntry (Config.sinUp (k % 256)) (k + 192)

/-- The linear interpolation of a 256-entry table over one turn; `turn` is the angle as a fraction of a turn. -/
def tableAt (tab : Nat → Int) (turn : Rat) : Rat :=
  let k := (turn * 256).floor.toNat
  let f := turn * 256 - (k : Rat)
  let a := q30 (tab (k % 256))
  let b := q30 (tab ((k + 1) % 256))
  a + f * (b - a)

/-- PR (R194): `theta` in turns is clamped to half a turn; c, s and r are Q2.30 coefficients. -/
def blkPR (x kr zeta omax : Int) (turn : Rat) (st : List Int) : BlkRes :=
  let t := clampQ 0 (1 / 2) turn
  let c := q30 (toCode 32 30 (tableAt cosTable t)).1
  let sn := q30 (toCode 32 30 (tableAt sinTable t)).1
  let r := q30 (toCode 32 30 (clampQ 0 1 (1 - q30 zeta * (2 * piQ * t)))).1
  let z1 := q62 (st.getD 0 0)
  let z2 := q62 (st.getD 1 0)
  let (n1, s1) := st62 (r * (c * z1 - sn * z2) + q30 x)
  let (n2, s2) := st62 (r * (sn * z1 + c * z2))
  let (u, _) := pu32 (clampQ (-(q30 omax)) (q30 omax) (q24 kr * q62 n1))
  ⟨u, [n1, n2], satCount [s1, s2], 0⟩

/-- NOTCH (R194): states x1, x2, y1, y2. -/
def blkNotch (x b0 b1 a1 a2 : Int) (st : List Int) : BlkRes :=
  let g := fun k => q62 (st.getD k 0)
  let y := q30 b0 * q30 x + q30 b1 * g 0 + q30 b0 * g 1 - q30 a1 * g 2 - q30 a2 * g 3
  let (ys, s1) := st62 y
  let (u, s2) := pu32 (q62 ys)
  ⟨u, [x * 2 ^ 32, st.getD 0 0, ys, st.getD 2 0], satCount [s1, s2], 0⟩

/-- LIMIT (R194): state last output. -/
def blkLimit (x mx mn rate : Int) (st : List Int) : BlkRes :=
  let c := clampI mn mx x
  let y := if rate = 0 then c else clampI (st.getD 0 0 - rate) (st.getD 0 0 + rate) c
  let (u, sat) := pu32 (q30 y)
  ⟨u, [u], satCount [sat], 0⟩

/-- RAMP (R209): state output. -/
def blkRamp (x step meas : Int) (enabled : Bool) (st : List Int) : BlkRes :=
  let y0 := st.getD 0 0
  let y := if enabled then y0 + clampI (-step) step (x - y0) else meas
  let (u, sat) := pu32 (q30 y)
  ⟨u, [u], satCount [sat], 0⟩

/-- OBS (R194): `coef i` is coefficient i, in the order A, B, L, C. -/
def blkObs (x : Int) (k : Nat) (coef : Nat → Int) (stateOut : Nat) (st : List Int) : BlkRes :=
  let q := fun i => q30 (coef i)
  let xs := fun i => q62 (st.getD i 0)
  let u := q30 x
  let cx := (List.range k).foldl (fun (a : Rat) i => a + q (k * k + 2 * k + i) * xs i) 0
  let nx := (List.range k).map fun i =>
    st62 ((List.range k).foldl (fun (a : Rat) j => a + q (k * i + j) * xs j) 0 + q (k * k + i) * u
      + q (k * k + k + i) * (u - cx))
  let (y, sat) := pu32 (q62 ((nx.map Prod.fst).getD stateOut 0))
  ⟨y, nx.map Prod.fst, satCount (sat :: nx.map Prod.snd), 0⟩

/-- The integrator of a PI set so that its output would be `target`, and whether it saturated (R207). -/
def trackPI (target p : Rat) (omax omin : Int) : Int × Bool :=
  st62 (clampQ (q30 omin) (q30 omax) target - p)

/-! ### The arbiter (R205 to R208) -/

/-- What a MINSEL decides: the winner, its magnitude, the direction, and the output. -/
structure ArbRes where
  win : Nat
  m : Rat
  d : Rat
  out : Int
  sat : Bool
  deriving DecidableEq, Repr

/-- The enabled role with the smallest magnitude; ties go to the lowest (R206). -/
def minRole (en : Nat → Bool) (vals : List Int) : Nat :=
  ((List.range vals.length).filter en).foldl (fun w r =>
    if (vals.getD r 0).natAbs < (vals.getD w 0).natAbs then r else w) 0

/-- The arbiter: candidates by role, enables and the lead (R206). -/
def arbitrate (vals : List Int) (en : Nat → Bool) (leadDispatch : Bool) : ArbRes :=
  let lead := vals.getD (if leadDispatch then 5 else 4) 0
  let d : Rat := if lead ≥ 0 then 1 else -1
  let w := minRole en vals
  let m := q30 (vals.getD w 0).natAbs
  let (u, sat) := pu32 (d * m)
  ⟨w, m, d, u, sat⟩

/-- The target of a losing role's PI (R207): `own` is its own output. -/
def trackTarget (role : Nat) (leadDispatch : Bool) (m margin d : Rat) (own : Int) : Rat :=
  if role < 4 then m + margin
  else if (role = 5) = leadDispatch then d * (m + margin)
  else (m + margin) * (if own < 0 then -1 else if own = 0 then d else 1)

end Sys2Proof.Machine
end

