-- ==== Sys2Proof/Machine/CeWindow.lean ====
section
/-! DEFINITION. One compute window (R202): the S graph in its placed order with the arbiter, and the V blocks CAPOBS, FLUXOBS,
HSHARE and DABOPT of each group (R219 to R224, R231, R242 to R250). -/

namespace Sys2Proof.Machine

/-- A saturated result of an instance (R193). -/
def State.satNote (s : State) (n : Nat) : State :=
  let t := { s with ce := { s.ce with satFlags := if s.ce.satFlags.contains n then s.ce.satFlags else n :: s.ce.satFlags } }
  ((((t.errInc F.CE_SATCNT_COUNT 1388).put F.CE_SATLAST_VALID 1).put F.CE_SATLAST_INST n)).pulse Ev.CE_SAT n

/-- `k` saturated results of an instance. -/
def State.satNotes (s : State) (n k : Nat) : State := (List.range k).foldl (fun t _ => t.satNote n) s

/-- Set an instance's states. -/
def State.setBlk (s : State) (n : Nat) (st : List Int) : State :=
  { s with ce := { s.ce with blk := Sparse.set (fun _ => []) s.ce.blk n st } }

/-- A window under way: the state, its outputs, and each PI's proportional term. -/
structure Win where
  s : State
  e : Env
  pt : List (Nat × Rat)

/-- Put an instance's result into the window. -/
def Win.put (w : Win) (n : Nat) (r : BlkRes) (ok : Bool) : Win :=
  let s1 := w.s.setBlk n r.st
  let s2 := s1.satNotes n r.sat
  { s := s2
    e := { outs := Sparse.set (fun _ => 0) w.e.outs n r.out
           bad := if ok then w.e.bad else n :: w.e.bad
           ran := n :: w.e.ran }
    pt := (n, r.p) :: w.pt }

/-! ### Groups -/

/-- Volts of a cell's PU32 capacitor voltage. -/
def State.cellVolt (s : State) (c : Nat) (v : Int) : Rat := q30 v * mkRat (s.vnom c) 10

/-- V_GB of a group (R217). -/
def State.vgb (s : State) (g : Nat) : Rat :=
  match s.groupCells g with
  | [] => 0
  | c :: _ => (s.nMain g : Rat) * mkRat (s.vnom c) 10

/-- A cell is insertable (R223, R232), once its group is armed or has N cells in RUN (R21). -/
def State.insertable (s : State) (c : Nat) : Bool :=
  s.inService c && (s.cell c).insAt ≤ s.period &&
    ((s.group (s.cGroup c)).armed || s.nSvc (s.cGroup c) ≥ s.nMain (s.cGroup c))

/-- Insertable cells of a group. -/
def State.insCells (s : State) (g : Nat) : List Nat := (s.groupCells g).filter s.insertable

/-- Sum of vhat × VCAP_NOM over the insertable cells, in volts. -/
def State.sumVhat (s : State) (g : Nat) : Rat :=
  (s.insCells g).foldl (fun a c => a + s.cellVolt c (s.cell c).eng.vhat) 0

/-- A cell whose blocked bridge is compensated (R231, R232): removed with its bypass not yet reported closed, or a spare in the
period of its call. -/
def State.compensated (s : State) (c : Nat) : Bool :=
  s.flag F.MVS_CFG_BLKCOMP &&
    (((s.cell c).eng.comp && !(s.cell c).status.testBit 8) || (s.cell c).insAt == s.period + 1)

/-- What compensation takes from the group target, in volts (R231). -/
def State.compVolts (s : State) (g : Nat) : Rat :=
  ((s.groupCells g).filter s.compensated).foldl (fun a c =>
    let i := (s.cell c).iarm.val
    a + (if i > 0 then 1 else if i < 0 then -1 else 0) * q30 (pu32of16 (s.cell c).vcap.val) * mkRat (s.vnom c) 10) 0

/-- The ALLOCIF's parameters in use: SCHEME, STICK, PHOFS, MMAX, IDB (R219). -/
def State.scheme (s : State) (g : Nat) : Nat :=
  match s.vInst tALLOCIF g with | some n => fieldGet (s.instP n 0) 1 0 | none => 0

/-- ALLOCIF (R219, R223, R224, R231): the modulation m of the compensated reference, which becomes the group's reference after
overmodulation is taken off. Under nearest level it is the target that is held against MMAX × Σ vhat, with no division. -/
def Win.allocif (w : Win) (n : Nat) : Win :=
  let s := w.s
  let g := s.instGroup n
  let ((x, sat), ok) := s.workIn w.e n 1
  let xv := q30 x * s.vgb g - s.compVolts g
  let m := qdiv xv (s.sumVhat g)
  let mmax := q30 (s.instPS n 3)
  let ovm : Bool := if s.scheme g = 0 then (if m < 0 then -m else m) > mmax else (if xv < 0 then -xv else xv) > mmax * s.sumVhat g
  let xe := if ovm && s.scheme g = 0 then xv * (mmax / (if m < 0 then -m else m)) else xv
  let (mo, sat2) := pu32 m
  let (xc, sat3) := pu32 (qdiv xe (s.vgb g))
  let s1 := s.setGroup g { s.group g with xref := x, xeff := xc }
  let s2 := s1.putB F.MVS_GSTAT_OVM ovm g
  let s3 := if ovm then s2.pulse Ev.MV_OVM g else s2
  { w with s := s3 }.put n ⟨mo, [], satCount [sat, sat2, sat3], 0⟩ ok

/-! ### S blocks -/

/-- d of the arbiter as the registers show it; a change of direction counts (R250). -/
def State.dirReport (s : State) (dirBit : Nat) : State :=
  let t := s.put F.CE_ARBSTAT_DIR dirBit
  if t.get F.ISO_STAT_DIR != dirBit then (t.put F.ISO_STAT_DIR dirBit).errInc F.ISO_REVCNT_COUNT 1396 else t

/-- The arbiter's reports (R208, R212, R250). The direction that stood before is kept for R212. -/
def State.arbReport (s : State) (r : ArbRes) (ok : Bool) : State :=
  let s1 := if s.ce.winKnown && s.get F.CE_ARBSTAT_WIN != r.win
    then (s.errInc F.CE_ARBCHG_COUNT 1389).pulse Ev.ARB_WIN r.win (s.get F.CE_ARBSTAT_WIN) else s
  let s2 := (s1.put F.CE_ARBSTAT_WIN r.win).putB F.CE_ARBSTAT_INVALID (!ok)
  let s3 : State := { s2 with ce := { s2.ce with winKnown := true, dirWas := (s2.get F.ISO_STAT_DIR, s2.get F.ISO_REVCNT_COUNT) } }
  (s3.put F.CE_ARBOUT_PSTAR (ofSigned 32 r.out)).dirReport (if r.d < 0 then 1 else 0)

/-- MINSEL (R206): the arbiter, or a generic one whose inputs are all magnitudes. -/
def Win.minsel (w : Win) (n : Nat) : Win :=
  let s := w.s
  let vs := (List.range (s.instIns n)).map fun j => s.srcVal w.e (s.instSrc n j) (s.instDly n j)
  let arb := s.instArb n
  let en := fun r => !arb || r = 0 || (s.get F.CE_ARBCFG_CANDEN).testBit r
  let ld := s.flag F.CE_ARBCFG_LEAD
  let r0 := arbitrate (vs.map Prod.fst) en ld
  let r := if arb then r0 else { r0 with d := 1, out := (pu32 r0.m).1, sat := (pu32 r0.m).2 }
  let ok := if arb then (vs.getD r.win (0, false)).2 else vs.all Prod.snd
  let w1 := if arb then { w with s := s.arbReport r ok } else w
  w1.put n ⟨r.out, [r.win], satCount [r.sat], 0⟩ ok

/-- Track the losing PI integrators of a MINSEL (R207), after every PI of the window has run. -/
def Win.track (w : Win) (n : Nat) : Win :=
  let s := w.s
  let vs := (List.range (s.instIns n)).map fun j => (s.srcVal w.e (s.instSrc n j) (s.instDly n j)).1
  let arb := s.instArb n
  let en := fun r => !arb || r = 0 || (s.get F.CE_ARBCFG_CANDEN).testBit r
  let ld := s.flag F.CE_ARBCFG_LEAD
  let a := arbitrate vs en ld
  let margin := q30 (s.instPS n 0)
  (List.range (s.instIns n)).foldl (fun w r =>
    let k := w.s.instSrc n r
    if r ≠ a.win && en r && k < 0x800 && w.s.instType k == tPI then
      let p := (w.pt.find? fun x => x.1 == k).map Prod.snd |>.getD 0
      let tgt := if arb then trackTarget r ld a.m margin a.d (vs.getD r 0) else a.m + margin
      let i := trackPI tgt p (w.s.instPS k 2) (w.s.instPS k 3)
      { w with s := (w.s.setBlk k [i.1]).satNotes k (satCount [i.2]) }
    else w) w

/-- Run one S instance (R194). -/
def Win.run (w : Win) (n : Nat) : Win :=
  let s := w.s
  let t := s.instType n
  if t = tMINSEL then w.minsel n
  else if t = tALLOCIF then w.allocif n
  else
    let modn := t = tPR && (s.instP n 4).getLsbD 16
    let mv := s.srcVal w.e (fieldGet (s.instP n 4) 11 0) false
    let ((x, xs), okIn) := s.workIn w.e n (if modn then q30 mv.1 else 1)
    let st := s.blkSt n
    let p := s.instPS n
    if t = tPI then
      let r := blkPI x (p 0) (p 1) (p 2) (p 3) st
      w.put n { r with sat := r.sat + satCount [xs] } okIn
    else if t = tPR then
      let f := s.srcVal w.e (fieldGet (s.instP n 1) 27 16) false
      let harm := fieldGet (s.instP n 1) 7 0
      let turn := q30 f.1 * mkRat s.img.plant.fbase 1000 * (harm : Rat) * mkRat s.img.per.p 600000000
      let r := blkPR x (p 0) (p 2) (p 3) turn st
      w.put n { r with sat := r.sat + satCount [xs] } (okIn && f.2 && (!modn || mv.2))
    else if t = tNOTCH then
      let r := blkNotch x (p 0) (p 1) (p 2) (p 3) st
      w.put n { r with sat := r.sat + satCount [xs] } okIn
    else if t = tLIMIT then
      let r := blkLimit x (p 0) (p 1) (p 2) st
      w.put n { r with sat := r.sat + satCount [xs] } okIn
    else if t = tRAMP then
      let m := s.srcVal w.e (fieldGet (s.instP n 1) 11 0) false
      let r := blkRamp x ((s.instP n 0).toNat : Int) m.1 (s.loopOn (fieldGet (s.instP n 1) 20 16)) st
      w.put n { r with sat := r.sat + satCount [xs] } (okIn && m.2)
    else if t = tOBS then
      let k := fieldGet (s.instP n 0) 1 0 + 1
      let base := fieldGet (s.instP n 0) 27 16
      let r := blkObs x k (fun i => (s.rd (F.CE_COEF_WORD.addr (base + i))).toInt) (fieldGet (s.instP n 1) 1 0) st
      w.put n { r with sat := r.sat + satCount [xs] } okIn
    else w.put n ⟨x, [], satCount [xs], 0⟩ okIn

/-! ### V blocks -/

/-- The mean of a value over cells; 0 over none (R197). -/
def cellMean (cs : List Nat) (f : Nat → Int) : Int :=
  if cs.isEmpty then 0 else roundHalfAway (mkRat (cs.foldl (fun a c => a + f c) 0) cs.length)

/-- Put the mean of a V instance's per-cell outputs `f` into CE_OUT for the next period (R197). It is INVALID where an input that the
instance read was (`okIn`), where a value of one of the cells was (`okc`), and where there is no cell (R196). -/
def Win.putMean (w : Win) (n : Nat) (cs : List Nat) (f : Nat → Int) (okIn : Bool) (okc : Nat → Bool) : Win :=
  w.put n ⟨cellMean cs f, [], 0, 0⟩ (okIn && !cs.isEmpty && cs.all okc)

/-- The cells of a group in service. -/
def State.svcCells (s : State) (g : Nat) : List Nat := (s.groupCells g).filter s.inService

/-- What the target of a group would be without VTMAX (R221); `xc` is the weighted input of its CAPOBS. -/
def State.targetRise (s : State) (g : Nat) (xc : Int) : Rat :=
  let n := s.nSvc g
  q30 xc * if s.flag F.MVS_GCFG_VRISE g && 0 < n then max 1 (mkRat (s.get F.MVS_GCFG_NREF g) n) else 1

/-- The goal of a group's target, and whether it saturated (R193, R221). -/
def State.targetGoal (s : State) (g : Nat) (xc : Int) : Int × Bool :=
  pu32 (min (s.targetRise g xc) (q30 (pu32of16 (s.get F.MVS_GCFG_VTMAX g))))

/-- Capacitor target of a group (R221), once per period at T_OPEN. -/
def State.targetUpdate (s : State) (g : Nat) (xc : Int) : State :=
  let gr := s.group g
  let goal := (s.targetGoal g xc).1
  let ts := pu32of16 (s.get F.MVS_GCFG_TSTEP g)
  let tgt := if !gr.tgtSet || ts = 0 then goal else gr.tgt + clampI (-ts) ts (goal - gr.tgt)
  (s.setGroup g { gr with tgt := tgt, tgtSet := true }).put F.MVS_GTGT_TGT (ofSigned 16 (tgt / 65536)) g

/-- A group's target is limited by VTMAX (R221). -/
def State.targetLimited (s : State) (g : Nat) (xc : Int) : Bool :=
  s.targetRise g xc > q30 (pu32of16 (s.get F.MVS_GCFG_VTMAX g))

/-- CAPOBS of one cell (R220). -/
def State.capobsCell (s : State) (n c : Nat) : State :=
  let x := s.cell c
  let e := x.eng
  let vm := q30 (pu32of16 x.vcap.val)
  let (vf, sat1) := st62 (q62 e.vf + q30 (s.instPS n 0) * (vm - q62 e.vf))
  let vn := mkRat (s.vnom c) 10
  let ia := q30 (pu32of16 x.iarm.val) * 2 * mkRat (s.iarmRat c) 10
  let idab := qdiv (q30 e.pNow * (s.pdab c : Rat) * 100) (q62 vf * vn)
  let iOld := q30 e.dPrev * ia - idab
  let iCur := q30 e.dNow * ia - idab
  let t := fun ct : Nat => mkRat ct 600000000
  let dv := (t s.img.per.tadv * iOld + mkRat 3 2 * t s.img.per.p * iCur) / mkRat (s.ccap c) 1000000
  let vh := if (s.instP n 1).getLsbD 0 then q62 vf + qdiv dv vn else q62 vf
  if x.vcap.ok then
    let (v, sat2) := pu32 vh
    let (d, sat3) := pu32 (q30 v - q30 (s.group (s.cGroup c)).tgt)
    (s.setCell c { x with eng := { e with vf := vf, vhat := v, e := d } }).satNotes n (satCount [sat1, sat2, sat3])
  else (s.setCell c { x with eng := { e with vf := vf, e := 0 } }).satNotes n (satCount [sat1])

/-- A state in which the cell's DAB runs (R247). -/
def dabRuns (st : Nat) : Bool := st == csPrecharge || st == csReady || st == csRun || st == csSpare

/-- A cell whose DAB the head drives: in such a state, and not removed at this T_OPEN (R244, R251). -/
def State.dabOn (s : State) (c : Nat) : Bool := dabRuns (s.cState c) && !(s.cell c).leaving

/-- FLUXOBS of one cell (R247); `a` is the authority. Where VCAP is invalid FLUX counts as invalid too (R251). -/
def State.fluxobsCell (s : State) (n c : Nat) (a : Rat) : State :=
  let x := s.cell c
  let e := x.eng
  if !s.dabOn c || !x.flux.ok || !x.vcap.ok then s.setCell c { x with eng := { e with dcm := 0 } }
  else
    let (ff, sat) := st62 (q62 e.ff + q30 (s.instPS n 0) * (q30 (pu32of16 x.flux.val) - q62 e.ff))
    let k := e.nStep + 1
    let av := if q62 ff < 0 then -(q62 ff) else q62 ff
    let step := fieldGet (s.instP n 2) 15 0
    let go := k ≥ fieldGet (s.instP n 4) 7 0 && av > q30 (s.instPS n 3)
    let dc := if go then clampQ (-(step : Rat)) step (-(a * q24 (s.instPS n 1) * q62 ff * 32768)) else 0
    let hi := av > q30 (pu32of16 (s.getS F.ISO_MON_FMAX))
    let s1 := if hi && !e.fluxHi then s.pulse Ev.ISO_FLUX c else s
    (s1.satNotes n (satCount [sat])).setCell c { x with eng := { e with ff := ff, nStep := if go then 0 else k, dcm := dc, fluxHi := hi } }

/-- HSHARE of one insertable cell (R222). -/
def State.hshareCell (s : State) (n c : Nat) : State :=
  let g := s.cGroup c
  let x := s.cell c
  let tot := (s.insCells g).foldl (fun a j => a + s.pdab j) 0
  let u := mkRat (s.pdab c) tot * (q30 (s.group g).xeff * s.vgb g)
  let d := qdiv u (s.cellVolt c x.eng.vhat)
  let im := (listVal s.ce.snap.agg (8 * g + 3)).1
  let tm := q30 (s.instPS n 2)
  let trim := (s.instP n 3).getLsbD 0 && (im.natAbs : Int) ≥ s.instPS n 1 && x.vcap.ok
  let d1 := if trim then d - clampQ (-tm) tm (q24 (s.instPS n 0) * q30 x.eng.e * signQ (q30 im)) else d
  s.setCell c { x with eng := { x.eng with duty := (pu32 (clampQ (-1) 1 d1)).1 } }

/-- The power law (R242): normalised power at inner duty `D` and phase `delta`. -/
def pnLaw (d delta : Rat) : Rat :=
  if delta ≤ (1 - d) * piQ / 2 then d * delta
  else
    let a := piQ - delta - d * piQ / 2
    let b := delta - d * piQ / 2
    (piQ * piQ / 2 - a * a - b * b) / (2 * piQ)

/-- What DABOPT computes for one cell (R245). -/
structure DabOut where
  d : Rat
  delta : Rat
  short : Rat
  sat : Bool
  hiSec : Bool
  reg2 : Bool

/-- D and δ from a cell's power (R245): `v1`, `v2` in volts, `wl` = ωL, `rat` in watts. -/
def dabSolve (p v1 v2 wl rat : Rat) (eps : Bool) (pknee dlo phmax : Rat) : DabOut :=
  let ap := if p < 0 then -p else p
  let pn0 := qdiv (ap * rat * wl) (v1 * v2)
  let r := qdiv (min v1 v2) (max v1 v2)
  let d0 := if eps then clampQ dlo 1 (r + (1 - r) * qdiv ap pknee) else 1
  let d := if pn0 > pnLaw d0 phmax then 1 else d0
  let cap := pnLaw 1 phmax
  let pn := min pn0 cap
  let lin := pn ≤ d * (1 - d) * piQ / 2
  let del := if lin then qdiv pn d else (piQ - sqrtQ (piQ * piQ * d * (2 - d) - 4 * piQ * pn)) / 2
  ⟨d, (if p < 0 then -del else del), qdiv ((pn0 - pn) * v1 * v2) (wl * rat), pn0 > cap, v2 > v1, !lin⟩

/-- Inner duty encoding: 0x8000 = 1.0 (R172). -/
def dinCode (d : Rat) : Nat := (roundHalfAway (d * 32768)).toNat

/-- Parameter `n` of R183 of a cell. -/
def State.prm (s : State) (c n : Nat) : Nat := (s.rd (F.CELL_PRM_VALUE.addr c n)).toNat

/-- Parameter `n` as the records that apply at the next boundary have it: where that is k_act, the value staged
last (R251). -/
def State.prmNext (s : State) (c n : Nat) : Nat :=
  if s.bus.txn.kact = some (s.period + 1) then
    match (s.bus.txn.staged.filter fun x => x.1 == F.CELL_PRM_VALUE.addr c n).getLast? with
    | some x => x.2.toNat
    | none => s.prm c n
  else s.prm c n

/-- A cell under DABOPT's RUN rule: in service, and no called spare that is not yet insertable (R244, R251). -/
def State.dabRun (s : State) (c : Nat) : Bool := s.inService c && (s.cell c).insAt ≤ s.period

/-- Weighted mean over the RUN cells of a group (R244). -/
def State.runMean (s : State) (g : Nat) (f : Nat → Rat) : Rat :=
  let cs := (s.groupCells g).filter s.dabRun
  if cs.isEmpty then 0
  else mkRat 1 (cs.foldl (fun a c => a + s.pdab c) 0) * cs.foldl (fun a c => a + (s.pdab c : Rat) * f c) 0

/-- THS of a cell as PU on 100 °C. -/
def State.thsPu (s : State) (c : Nat) : Rat := q30 (pu32ofTemp (s.cell c).ths.val)

/-- The bus voltage a DABOPT works on: IN1, PU on VBUS_NOM, and whether it is valid and at or above VBUS_MIN (R249). -/
structure BusIn where
  v : Rat
  live : Bool

/-- The power of one cell before its clamp (R244, R249); none: the bridges idle. -/
def State.dabPower (s : State) (n c : Nat) (pstar : Rat) (bus : BusIn) (em thm : Rat) : Option Rat :=
  let kb := q24 (s.instPS n 0)
  let bal := if s.flag F.ISO_CFG_BALEN then 1 else (0 : Rat)
  let e := q30 (s.cell c).eng.e
  if s.cState c = csPrecharge then
    if s.flag F.ISO_CFG_PRESRC || !bus.live then none else some (-(q30 (pu32of16 (s.get F.ISO_PRE_PPRE))))
  else if s.dabRun c then
    let tm := q30 (pu32of16 (s.get F.ISO_THM_THMAX))
    let th := if s.flag F.ISO_CFG_THEN then clampQ (-tm) tm (q24 (s.instPS n 1) * (s.thsPu c - thm)) else 0
    some (pstar * (1 - th) + bal * (kb * (e - em)))
  else some (bal * (kb * e))

/-- The voltages that DABOPT works on for a cell, in volts: V1, and V2 at a bus of `v` (R242). -/
def State.dabV1 (s : State) (c : Nat) : Rat :=
  max (q30 (s.cell c).eng.vhat) (q30 (pu32of16 (s.getS F.ISO_PRE_VMIN))) * mkRat (s.vnom c) 10
def State.dabV2 (s : State) (c : Nat) (v : Rat) : Rat := mkRat (s.ndab c) 256 * v * mkRat s.img.plant.vbusNom 10

/-- c of a cell with the step of this period taken (R245, R247). -/
def State.takeStep (s : State) (c : Nat) : State :=
  s.setCell c { s.cell c with eng := { (s.cell c).eng with cm := (s.cell c).eng.cm + (s.cell c).eng.dcm, dcm := 0 } }

/-- A PRECHARGE cell whose bridges idle: no power, both phases at c, inner duties 0 (R245, R249). -/
def State.dabRest (s : State) (c : Nat) (v2 : Rat) : State :=
  let t := s.takeStep c
  let e := (t.cell c).eng
  let ph := ofSigned 16 (roundHalfAway e.cm)
  let t1 := t.setCell c { t.cell c with eng := { e with pNext := 0, php := ph, phs := ph, din1 := 0, din2 := 0 } }
  let t2 := ((t1.put F.ISO_CELL0_PCMD 0 c).put F.ISO_CELL0_DELTA 0 c).put F.ISO_CELL1_CM ph c
  ((t2.put F.ISO_CELL1_SAT 0 c).put F.ISO_CELL1_REG2 0 c).putB F.ISO_CELL1_HISEC (decide (v2 > s.dabV1 c)) c

/-- EV_ISO_NOBUS once per cell per precharge (R249). -/
def State.noBusNote (s : State) (c : Nat) : State :=
  if !s.flag F.ISO_CFG_PRESRC && !(s.cell c).eng.noBus then
    (s.setCell c { s.cell c with eng := { (s.cell c).eng with noBus := true } }).pulse Ev.ISO_NOBUS c
  else s

/-- DABOPT of one cell (R244 to R246, R249): its record fields and reports. -/
def State.daboptCell (s : State) (n c : Nat) (pstar : Rat) (bus : BusIn) (em thm : Rat) : State :=
  let g := s.cGroup c
  match s.dabPower n c pstar bus em thm with
  | none => (s.noBusNote c).dabRest c (s.dabV2 c bus.v)
  | some p0 =>
    let pm := q30 (pu32of16 (s.getS F.ISO_LIM_PMAX))
    let (p, psat) := pu32 (clampQ (-pm) pm p0)
    let rat := (s.pdab c : Rat) * 100
    let v1 := s.dabV1 c
    let v2 := s.dabV2 c bus.v
    let wl := 2 * piQ * (s.prmNext c 2 : Rat) * mkRat (s.ldab c) 10000000
    let dlo := max (mkRat (fieldGet (s.instP n 3) 15 0) 32768) (mkRat (s.prmNext c 5) 32768)
    let o := dabSolve (q30 p) v1 v2 wl rat ((s.instP n 4).getLsbD 0) (q30 (s.instPS n 2)) dlo
      (piQ * mkRat (s.get F.ISO_LIM_PHMAX) 32768)
    let a0 := if p0 < 0 then -p0 else p0
    let clampShort := if a0 > pm then a0 - pm else 0
    let sat := a0 > pm || o.sat
    let t := s.takeStep c
    let e := (t.cell c).eng
    let dl := roundHalfAway (o.delta * 32768 / piQ)
    let php := ofSigned 16 (roundHalfAway (e.cm + mkRat dl 2))
    let phs := ofSigned 16 (roundHalfAway (e.cm + mkRat dl 2) - dl)
    let fit := fun (d : Rat) => max (s.prmNext c 5) (min (s.prmNext c 6) (dinCode d))
    let (d1, d2) := if o.hiSec then ((1 : Rat), o.d) else (o.d, 1)
    let s1 := (t.setCell c { t.cell c with eng := { e with
      pNext := p, php := php, phs := phs, din1 := fit d1, din2 := fit d2 } }).satNotes n (satCount [psat])
    let s2 := (s1.putS F.ISO_CELL0_PCMD (roundHalfAway (mkRat p 65536)) c).put F.ISO_CELL0_DELTA (ofSigned 16 dl) c
    let s3 := (s2.put F.ISO_CELL1_CM (ofSigned 16 (roundHalfAway e.cm)) c).putB F.ISO_CELL1_SAT sat c
    let s4 := (s3.putB F.ISO_CELL1_REG2 o.reg2 c).putB F.ISO_CELL1_HISEC o.hiSec c
    if sat then
      let short := (o.short + clampShort) * (s.pdab c : Rat) / ((s.groupCells g).foldl (fun a j => a + s.pdab j) 0 : Nat)
      let s5 := s4.put F.ISO_GSTAT_NSAT (s4.get F.ISO_GSTAT_NSAT g + 1) g
      (s5.put F.ISO_GSTAT_SHORT (min 0x7FFF (s5.get F.ISO_GSTAT_SHORT g + (roundHalfAway (short * 16384)).toNat)) g).put
        F.ISO_STAT_SAT 1
    else s4

/-- Soft-switching check of one cell (R248). A period in which the cell is not checked, or passes, ends its run of failures. -/
def State.zvsCell (s : State) (c : Nat) : State :=
  let x := s.cell c
  if dabRuns (s.cState c) && x.recOk then
    let th : Int := s.get F.ISO_MON_IZVS * 16
    let bp := decide (x.idabp.val > -th)
    let bs := decide (x.idabs.val < th)
    let k := if bp || bs then x.eng.zvs + 1 else 0
    let s1 := (s.putB F.ISO_CELL1_ZVSP bp c).putB F.ISO_CELL1_ZVSS bs c
    let s2 := if bp || bs then s1.put F.ISO_GSTAT_NZVS (s1.get F.ISO_GSTAT_NZVS (s.cGroup c) + 1) (s.cGroup c) else s1
    let due := decide (s.get F.ISO_MON_ZVSN ≤ k)
    let s3 := if due && !x.eng.zvsUp then s2.pulse Ev.ISO_ZVS c else s2
    s3.setCell c { x with eng := { x.eng with zvs := k, zvsUp := due } }
  else
    ((s.setCell c { x with eng := { x.eng with zvs := 0, zvsUp := false } }).putB F.ISO_CELL1_ZVSP false c).putB F.ISO_CELL1_ZVSS false c

/-! ### The window -/

/-- Weighted value of input `j` of an instance. -/
def State.inVal (s : State) (e : Env) (n j : Nat) : Rat × Bool :=
  let v := s.srcVal e (s.instSrc n j) (s.instDly n j)
  (q24 (s.instGain n j) * q30 v.1, v.2)

/-- The weighted input of a group's CAPOBS, and whether it saturated (R193, R220). -/
def State.capTarget (s : State) (g : Nat) : Int × Bool :=
  match s.vInst tCAPOBS g with
  | some n => pu32 (s.inVal ⟨[], [], []⟩ n 0).1
  | none => (0, false)

/-- The saturations of a group's target, which are its CAPOBS's (R193). -/
def State.targetSats (s : State) (g : Nat) : State :=
  match s.vInst tCAPOBS g with
  | some n => s.satNotes n (satCount [(s.capTarget g).2, (s.targetGoal g (s.capTarget g).1).2])
  | none => s

/-- Targets of every group at T_OPEN, and EV_MV_TGTLIM (R221). -/
def State.targets (s : State) : State :=
  let gs := s.groupsUsed
  let s1 := gs.foldl (fun t g => (t.targetSats g).targetUpdate g (s.capTarget g).1) s
  s1.follow Ev.MV_TGTLIM (gs.any fun g => s.targetLimited g (s.capTarget g).1)

/-- Phase A of a group: CAPOBS. FLUXOBS reads S outputs, so its pass follows the S graph. -/
def Win.phaseA (w : Win) (g : Nat) : Win :=
  match w.s.vInst tCAPOBS g with
  | some n =>
    let w1 := { w with s := (w.s.groupCells g).foldl (fun t c => t.capobsCell n c) w.s }
    w1.putMean n (w1.s.svcCells g) (fun c => (w1.s.cell c).eng.vhat) (w.s.inVal w.e n 0).2
      fun c => (w1.s.cell c).vcap.ok && (!(w.s.instP n 1).getLsbD 0 || (w1.s.cell c).iarm.ok)
  | none => w

/-- FLUXOBS of a group. -/
def Win.fluxPass (w : Win) (g : Nat) : Win :=
  match w.s.vInst tFLUXOBS g with
  | some n =>
    let a := clampQ 0 1 (w.s.inVal w.e n 0).1
    let v := { w with s := (w.s.groupCells g).foldl (fun t c => t.fluxobsCell n c a) w.s }
    v.putMean n (v.s.svcCells g) (fun c => (pu32 (q62 (v.s.cell c).eng.ff)).1) (w.s.inVal w.e n 0).2
      fun c => (v.s.cell c).flux.ok && (v.s.cell c).vcap.ok
  | none => w

/-- HSHARE of a group. -/
def Win.sharePass (w : Win) (g : Nat) : Win :=
  match w.s.vInst tHSHARE g with
  | some n =>
    let v := { w with s := (w.s.insCells g).foldl (fun t c => t.hshareCell n c) w.s }
    let trim := (w.s.instP n 3).getLsbD 0
    v.putMean n (v.s.svcCells g) (fun c => (v.s.cell c).eng.duty)
      ((w.s.inVal w.e n 0).2 && (w.s.inVal w.e n 1).2 && (!trim || (listVal w.s.ce.snap.agg (8 * g + 3)).2)) fun c => (v.s.cell c).vcap.ok
  | none => w

/-- A cell whose DAB does not run transfers nothing. -/
def State.dabIdle (s : State) (c : Nat) : State :=
  s.setCell c { s.cell c with eng := { (s.cell c).eng with pNext := 0, php := 0, phs := 0, din1 := 0, din2 := 0 } }

/-- DABOPT instance `n` of a group at a power command and the bus voltage that the group's last window had, and EV_ISO_SAT where it has not
been raised in this period (R244 to R246). -/
def State.dabGroup (s : State) (n g : Nat) (pstar : Rat) (raised : Bool) : State :=
  let cells := s.groupCells g
  let v := (s.group g).bus.1
  let bus : BusIn := ⟨q30 v, (s.group g).bus.2 && q30 v * mkRat s.img.plant.vbusNom 10 ≥ mkRat s.img.plant.vbusMin 10⟩
  let em := s.runMean g fun c => q30 (s.cell c).eng.e
  let thm := s.runMean g s.thsPu
  let s0 := (s.put F.ISO_GSTAT_NSAT 0 g).put F.ISO_GSTAT_SHORT 0 g
  let s1 := (cells.filter s.dabOn).foldl (fun t c => t.daboptCell n c pstar bus em thm) s0
  let s2 := (cells.filter fun c => !s.dabOn c).foldl State.dabIdle s1
  if s2.get F.ISO_GSTAT_NSAT g > 0 && !raised then s2.pulse Ev.ISO_SAT g (s2.get F.ISO_GSTAT_NSAT g) else s2

/-- DABOPT of a group; its output is the mean over the cells for which it is computed (R243). -/
def Win.dabPass (w : Win) (g : Nat) : Win :=
  match w.s.vInst tDABOPT g with
  | some n =>
    let run := (w.s.groupCells g).filter w.s.dabOn
    let p := w.s.inVal w.e n 0
    let b := w.s.inVal w.e n 1
    let (bus, sat) := pu32 b.1
    let s1 := (w.s.setGroup g { w.s.group g with bus := (bus, b.2) }).satNotes n (satCount [sat])
    let v := { w with s := s1.dabGroup n g p.1 false }
    v.putMean n run (fun c => (v.s.cell c).eng.pNext) (p.2 && b.2)
      fun c => (v.s.cell c).vcap.ok && (!w.s.flag F.ISO_CFG_THEN || (v.s.cell c).ths.ok)
  | none => w

/-- The passes of a group that need the S graph: FLUXOBS, HSHARE, DABOPT. -/
def Win.phaseB (w : Win) (g : Nat) : Win := ((w.fluxPass g).sharePass g).dabPass g

/-- PSUM and PRECH of ISO_STAT (R252). -/
def State.isoSum (s : State) : State :=
  let cs := s.cellList
  let base := (cs.filter s.inService).foldl (fun a c => a + s.pdab c) 0
  let sum := cs.foldl (fun (a : Int) c => a + (s.cell c).eng.pNext * s.pdab c) 0
  let v : Int := if base = 0 then 0 else roundHalfAway (mkRat sum (base * 65536))
  (s.putS F.ISO_STAT_PSUM v).putB F.ISO_STAT_PRECH (cs.any fun c => s.cState c == csPrecharge && (s.cell c).eng.pNext != 0)

/-- The whole window (R202): the snapshot's inputs stand in `ce.snap`; outputs go to CE_OUT and records' fields to the cells. -/
def State.computeWindow (s : State) : State :=
  let gs := s.groupsUsed
  let s0 := (s.targets.put F.ISO_STAT_SAT 0)
  let s1 := gs.foldl (fun t g => t.put F.ISO_GSTAT_NZVS 0 g) s0
  let s2 := s1.cellList.foldl State.zvsCell s1
  let w0 : Win := ⟨s2, ⟨[], [], []⟩, []⟩
  let w1 := gs.foldl Win.phaseA w0
  let w2 := s.ce.order.foldl Win.run w1
  let w3 := (s.ce.order.filter fun n => s.instType n == tMINSEL).foldl Win.track w2
  let w4 := gs.foldl Win.phaseB w3
  let t := w4.s
  let t1 := w4.e.outs.foldl (fun (u : State) x => u.wr (F.CE_OUT_WORD.addr x.1) (BitVec.ofInt 32 x.2))
    (w4.e.ran.foldl (fun (u : State) n => u.wr (F.CE_OUT_WORD.addr n) 0) t)
  ({ t1 with ce := { t1.ce with bad := w4.e.bad } }).isoSum

end Sys2Proof.Machine
end

