-- ==== Sys2Proof/Machine/LaneOps.lean ====
section
/-! DEFINITION. The Damond lanes: states, losses, round trips and offsets, equalisation and the halo scan (R136 to R164). The
crosslink lanes X0 and X1 are lanes 24 and 25. -/

namespace Sys2Proof.Machine

/-! ### Lane states (R151) -/

def lnOff : Nat := 0
def lnWait : Nat := 1
def lnLink : Nat := 2
def lnAlign : Nat := 3
def lnService : Nat := 4
def lnLost : Nat := 5
def lnFault : Nat := 6

def State.lnState (s : State) (l : Nat) : Nat := s.get F.DML_STAT_STATE l
def State.setLn (s : State) (l st : Nat) : State := s.put F.DML_STAT_STATE st l

/-- Quad of a lane; the crosslink is number 6. -/
def quadOf (l : Nat) : Nat := if l < 24 then l / 4 else 6

/-- The lane is a string lane, not the crosslink. -/
def isString (l : Nat) : Bool := l < 24

/-- A lane that the image uses: a string, or the crosslink in duplex (R137, R163). -/
def State.laneUsed (s : State) (l : Nat) : Bool :=
  if isString l then (s.img.strings.lanes.getD l {}).used else s.get F.RED_MODE_MODE % 2 == 1

/-- A lane that the image uses, or that has been enabled beside those (R151). -/
def State.laneLive (s : State) (l : Nat) : Bool := s.laneUsed l || s.get F.DML_STAT_STATE l != 0

/-- The head originates frames on its strings: role NONE or ACTIVE (R322). -/
def State.drivesLanes (s : State) : Bool :=
  (s.get F.RED_STAT_ROLE == 0 || s.get F.RED_STAT_ROLE == 2) && s.get F.SEC_STATE_HSTATE != 3

/-- Redundancy modes with a second head: DUPLEX and DUPLEX+TRIPLEX (R318). -/
def State.duplex (s : State) : Bool := s.get F.RED_MODE_MODE % 2 == 1

/-- Declared number of cells of a lane. -/
def State.laneLen (s : State) (l : Nat) : Nat := (s.laneCells l).length

/-- Frames on the strings come from head B (R330). The image's mode tells how the strings are wired, also after the mode in force has
left DUPLEX (R319). -/
def State.fromB (s : State) : Bool :=
  s.img.per.mode % 2 == 1 && (if s.drivesLanes then s.flag F.RED_STAT_HEADID else !s.flag F.RED_STAT_HEADID)

/-- Position of a cell as frames count it: head B counts from the other end of the string (R330). -/
def State.wirePos (s : State) (c : Nat) : Nat :=
  if s.fromB then s.laneLen (s.cLane c) - 1 - s.cPos c else s.cPos c

/-! ### The halo (R160 to R162) -/

/-- A scan is in progress on the lane, not waiting for its quad. -/
def State.haloRuns (s : State) (l : Nat) : Bool := s.flag F.DML_HALOSTAT_BUSY l && !(s.lane l).haloWait

/-- The lane's quad has a scan in progress. -/
def State.quadScans (s : State) (q : Nat) : Bool := (List.range 26).any fun l => quadOf l == q && s.haloRuns l

/-- The first waiting scan of a quad begins. -/
def State.haloNext (s : State) (q : Nat) : State :=
  if s.quadScans q then s
  else match (List.range 26).find? (fun l => quadOf l == q && s.flag F.DML_HALOSTAT_BUSY l && (s.lane l).haloWait) with
    | some l => s.setLane l { s.lane l with haloWait := false }
    | none => s

/-- A scan, running or waiting, stops with a cause (R162). -/
def State.haloAbort (s : State) (l cause : Nat) : State :=
  if s.flag F.DML_HALOSTAT_BUSY l then
    let s1 := ((s.put F.DML_HALOSTAT_BUSY 0 l).put F.DML_HALOSTAT_ABORTED 1 l).put F.DML_HALOSTAT_ACAUSE cause l
    let s2 := s1.put F.DML_HALOTIME_PERIOD s1.period l
    (s2.setLane l { s2.lane l with haloWait := false }).haloNext (quadOf l)
  else s

/-- GO (R162): a lane that is not in SERVICE only reports ABORTED; a busy quad makes the scan wait. -/
def State.haloGo (s : State) (l : Nat) : State :=
  if s.lnState l ≠ lnService then
    ((s.put F.DML_HALOSTAT_ABORTED 1 l).put F.DML_HALOSTAT_ACAUSE 4 l)
  else if s.flag F.DML_HALOSTAT_BUSY l then s
  else
    let wait := s.quadScans (quadOf l)
    let s1 := ((s.put F.DML_HALOSTAT_BUSY 1 l).put F.DML_HALOSTAT_DONE 0 l).put F.DML_HALOSTAT_ABORTED 0 l
    let s2 := s1.put F.DML_HALOSTAT_ACAUSE 0 l
    s2.setLane l { s2.lane l with haloWait := wait, haloDwell := s2.get F.DML_HALOCTRL_DWELL l }

/-- The result byte of a point from its error count (R160): floor(8 log2(N / errors)) is the logarithm of the eighth powers. -/
def haloByte (dwell errors : Nat) : Nat :=
  if errors = 0 then 255 else min 254 (Nat.log2 ((2 ^ dwell) ^ 8 / errors ^ 8))

/-- A completed scan (R160, R161): 64 × 32 error counts, phase-major. DESIGN CHOICE (log entry 18): CTX1 of EV_HALO_MARGIN is
WIDTH + 65,536 × HEIGHT. -/
def State.haloDone (s : State) (l : Nat) (errors : List Nat) : State :=
  if s.haloRuns l then
    let pts := (List.range 2048).map fun i => haloByte (s.lane l).haloDwell (errors.getD i 0)
    let clean := fun i => pts.getD i 0 == 255
    let width := ((List.range 64).filter fun p => clean (32 * p + 16)).length
    let height := ((List.range 32).filter fun v => clean (32 * 32 + v)).length
    let area := ((List.range 2048).filter clean).length
    let bytes := pts.map (BitVec.ofNat 8)
    let s1 := (wordsOf bytes).zipIdx.foldl (fun t x => t.wr (F.DML_HALO_WORD.addr l x.2) x.1) s
    let s2 := ((s1.put F.DML_HALOSTAT_WIDTH width l).put F.DML_HALOSTAT_HEIGHT height l).put F.DML_HALOSTAT_AREA area l
    let s3 := ((s2.put F.DML_HALOSTAT_BUSY 0 l).put F.DML_HALOSTAT_DONE 1 l).put F.DML_HALOTIME_PERIOD s2.period l
    let s4 := if width < s3.get F.DML_HALOMASK_MINW l ∨ height < s3.get F.DML_HALOMASK_MINH l
      then s3.pulse Ev.HALO_MARGIN l (width + 65536 * height) else s3
    s4.haloNext (quadOf l)
  else s

/-! ### Losing a lane (R154, R155) -/

/-- The cells of a lane that leaves SERVICE are LOST at the next boundary, REFUSED ones apart (R154, R185). -/
def State.markLost (s : State) (l : Nat) : State :=
  (s.laneCells l).foldl (fun t c =>
    if t.cState c = csRefused then t else t.setCell c { t.cell c with lostDue := true }) s

/-- A lane in LINK, ALIGN or SERVICE enters LOST, or FAULT where its retries are used up (R154, R155). The cells of a lane that
was in SERVICE are marked lost at the next boundary, REFUSED ones apart. -/
def State.enterLost (s : State) (l cause : Nat) : State :=
  let st := s.lnState l
  if st = lnLink ∨ st = lnAlign ∨ st = lnService then
    let s1 := (s.put F.DML_STAT_LASTCAUSE cause l).pulse Ev.LANE_LOST l cause
    let s2 := if isString l then s1 else s1.pulse Ev.XL_LOST (l - 24) cause
    let s3 := if st = lnService then s2.markLost l else s2
    let s4 := s3.haloAbort l 4
    let r := s4.get F.DML_STAT_RETRIES l
    let s5 := s4.setLane l { s4.lane l with idleOk := false, passed := 0, missed := 0, dsum := [], rx := none }
    if r = s5.get F.DML_CFG_RETRYMAX l ∧ r ≠ 15 then (s5.setLn l lnFault).pulse Ev.LANE_FAULT l cause
    else s5.setLn l lnLost
  else s

/-- A lane enters LINK: what R152 asks for is awaited afresh. -/
def State.enterLink (s : State) (l : Nat) : State :=
  (s.setLn l lnLink).setLane l { s.lane l with idleOk := false }

/-- A lane in LOST goes back to LINK and counts a retry (R155). -/
def State.laneRetry (s : State) (l : Nat) : State :=
  if s.lnState l = lnLost then (s.enterLink l).satIncF F.DML_STAT_RETRIES l else s

/-- EN of a lane is 1 and its quad is powered: it leaves OFF (R151), the crosslink in duplex alone (R163). -/
def State.laneOn (s : State) (l : Nat) : State :=
  if s.lnState l = lnOff ∧ s.flag F.DML_CTRL_EN l ∧ s.flag F.DML_QSTAT_POWERED (quadOf l) ∧ (isString l ∨ s.duplex) then
    if s.flag F.DML_QSTAT_LOCKED (quadOf l) then s.enterLink l else s.setLn l lnWait
  else s

/-- A lane is powered down (R151, R163). -/
def State.laneOff (s : State) (l : Nat) : State :=
  let s1 := (if s.lnState l = lnService then s.markLost l else s).haloAbort l 4
  let s2 := s1.setLane l { s1.lane l with idleOk := false, passed := 0, missed := 0, dsum := [], rx := none }
  (s2.setLn l lnOff).putB F.DML_STAT_BLOCKLOCK false l

/-- An effect on DML_CTRL.EN (R151): a lane that leaves SERVICE so moves its cells to LOST (R185). -/
def State.laneEnable (s : State) (l : Nat) (en : Bool) : State :=
  let s1 := s.putB F.DML_CTRL_EN en l
  if en then s1.laneOn l else s1.laneOff l

/-- Clearing EN is refused while a cell of the lane is in service (R164). -/
def State.laneBusy (s : State) (l : Nat) : Bool := (s.laneCells l).any s.inService

/-- RESTART (R151, R155): from FAULT to LINK with the retries cleared. -/
def State.laneRestart (s : State) (l : Nat) : State :=
  if s.lnState l = lnFault then (s.enterLink l).put F.DML_STAT_RETRIES 0 l else s

/-- A quad is powered, where the image uses a lane of it (R112); every lane of it with EN = 1 leaves OFF (R151). -/
def State.quadUp (s : State) (q : Nat) : State :=
  let lanes := (List.range 26).filter fun l => quadOf l == q
  if lanes.any s.laneUsed = false ∨ s.get F.SEC_STATE_HSTATE ≠ 2 then s
  else
    lanes.foldl State.laneOn (s.put F.DML_QSTAT_POWERED 1 q)

/-- Code errors of a lane are counted; more than CODETHR within one second raise EV_LANE_CODE (R156). -/
def State.codeErrors (s : State) (l n : Nat) : State :=
  if n = 0 then s
  else
    let s1 := s.errIncBy F.DML_CODEERR_COUNT (1024 + l) n l
    let old := (s.lane l).codes.filter fun x => s.ct < x.1 + 600000000
    let before := old.foldl (fun k x => k + x.2) 0
    let thr := s.get F.DML_CFG_CODETHR l
    let s2 := s1.setLane l { s1.lane l with codes := (s.ct, n) :: old }
    if before ≤ thr ∧ thr < before + n then s2.pulse Ev.LANE_CODE l (before + n) else s2

/-- Block lock is acquired (R156). -/
def State.lockGot (s : State) (l : Nat) : State :=
  if s.lnState l = lnOff ∨ s.lnState l = lnWait then s else s.putB F.DML_STAT_BLOCKLOCK true l

/-- Block lock is lost (R154): a lane in ALIGN or SERVICE enters LOST; in LINK the wait for R152 starts afresh. -/
def State.lockGone (s : State) (l : Nat) : State :=
  let s1 := s.putB F.DML_STAT_BLOCKLOCK false l
  if s.lnState l = lnAlign ∨ s.lnState l = lnService then s1.enterLost l 1
  else s1.setLane l { s1.lane l with idleOk := false }

/-- An IDLE of a driving head returns (R152). DESIGN CHOICE (log entry 79): on the crosslink lanes X0 and X1 it carries ORIGIN 0 and LANE 24
or 25, for which the spec gives no numbers. -/
def State.idleBack (s : State) (l origin num : Nat) (gen : Bool) : State :=
  if s.lnState l = lnLink ∧ s.flag F.DML_STAT_BLOCKLOCK l ∧ origin = 0 then
    if num ≠ l then s.pulse Ev.LANE_CROSSED l num
    else if gen = s.flag F.DML_STAT_GEN l then s.setLane l { s.lane l with idleOk := true }
    else s
  else s

/-! ### Equalisation (R158, R159) -/

/-- The row of the band in force is applied to a lane; a change of band stops a scan and restarts an ALIGN count. -/
def State.eqLane (s : State) (l band : Nat) : State :=
  let was := s.get F.DML_EQ_BAND l
  let row := fieldGet (s.rd (F.DML_EQTB_SWING.addr l band)) 20 0
  let s1 := (s.put F.DML_EQ_BAND band l).put F.DML_EQ_ROW row l
  if was = band then s1
  else
    let s2 := s1.haloAbort l 2
    if s2.lnState l = lnAlign then s2.setLane l { s2.lane l with passed := 0, dsum := [] } else s2

/-- At T_OPEN a band change reaches one more quad, and every lane takes the row of its own band (R159). The tables in force are those
that the writes due by then have left. -/
def State.eqStep (s : State) : State :=
  let s1 := match s.thm.eqNext with
    | some q =>
      let t := ((List.range 26).filter fun l => quadOf l == q).foldl (fun t l => t.eqLane l (t.get F.THM_STAT_BAND)) s
      { t with thm := { t.thm with eqNext := if q < 6 then some (q + 1) else none } }
    | none => s
  ((List.range 26).filter s1.laneLive).foldl (fun t l => t.eqLane l (t.get F.DML_EQ_BAND l)) s1

/-! ### Offsets (R146 to R150) -/

/-- TTXF in 1/16 CT, in picoseconds-exact form: 28 ns at gen 2 and 60 ns at gen 1 (R146). -/
def ttxf16 (gen2 : Bool) : Rat := (if gen2 then 28 else 60) * mkRat 48 5

/-- Nanoseconds as 1/16 CT. -/
def nsTo16 (q : Rat) : Rat := q * mkRat 48 5

/-- One measurement of d_i in 1/16 CT, from the round trip and Dp_i (R147). -/
def dOf (r16 dp : Nat) : Int := (r16 : Int) - dp

/-- Add a measurement to the sums of a position: twice d_i. -/
def Lane.addD (x : Lane) (i r16 dp : Nat) : Lane :=
  let e := Sparse.get (fun _ => (0, 0)) x.dsum i
  { x with dsum := Sparse.set (fun _ => (0, 0)) x.dsum i (e.1 + (r16 - dp), e.2 + 1) }

/-- OFFSA_i or OFFSB_i from twice the sum of d_i over `n` measurements (R147). -/
def offsetOf (gen2 : Bool) (sum n : Nat) : Nat := (roundHalfAway (ttxf16 gen2 + mkRat sum (2 * n))).toNat

/-- 2 ns in 1/16 CT (R150). -/
def skewLimit : Rat := mkRat 96 5

end Sys2Proof.Machine
end

