-- ==== Sys2Proof/Machine/NetOps.lean ====
section
/-! DEFINITION. The network island: ports, network time and PTP, the period lock, timed outputs, GOOSE, Sampled Values and the
dataset map (R366 to R386). -/

namespace Sys2Proof.Machine

/-! ### Ports and frames (R366, R367) -/

/-- The ports have started: at the first boundary in RUN (R366), and they stay up after a resign. -/
def State.portsUp (s : State) : Bool := (s.get F.SEC_STATE_HSTATE == 2 || s.get F.SEC_STATE_HSTATE == 3) && !s.netStopped

/-- Port `p` is enabled. -/
def State.portOn (s : State) (p : Nat) : Bool := s.portsUp && (s.get F.NET_CTRL_EN).testBit p

/-- A port's link state becomes `up` (R366). -/
def State.setLink (s : State) (p : Nat) (up : Bool) : State :=
  if (s.get F.NET_STAT_LINK).testBit p ≠ up then (s.putBit F.NET_STAT_LINK p up).pulse Ev.NET_LINK p up.toNat else s

/-- A change of link state (R366): SGMII has link at 1000 Mb/s full duplex only. -/
def State.linkChange (s : State) (p : Nat) (x : LinkState) : State :=
  if s.portOn p then s.setLink p (x.up && (s.flag F.NET_PCFG_IFMODE p || x.gigFull)) else s

/-- A port that is disabled loses its link. -/
def State.linksDown (s : State) : State := (List.range 3).foldl (fun t p => if (t.get F.NET_CTRL_EN).testBit p then t else t.setLink p false) s

/-! ### Frames that leave (R367, R386) -/

/-- Egress priority: PTP, GOOSE, register access (R367). DESIGN CHOICE (log entry 80): an ARP reply comes last. -/
def Egress.prio : Egress → Nat
  | .pdelay _ _ => 0 | .goose _ _ => 1 | .rap _ _ => 2 | .arp _ => 3

/-- A frame takes its place among those that leave in this control tick. -/
def State.send (s : State) (x : Egress) : State :=
  let l := s.net.egress
  { s with net := { s.net with
    egress := (l.filter fun y => decide (y.prio ≤ x.prio)) ++ x :: l.filter fun y => decide (x.prio < y.prio) } }

/-- Frame classes of R367: 0 PTP, 1 GOOSE, 2 Sampled Values, 3 safety telegram, 4 ARP, 5 register access. -/
def State.frameClass (s : State) (p : Nat) (f : NetFrame) : Option Nat :=
  let station := p < 2
  let rap := p == 2 || (s.get F.NET_RAPCFG_PORTS).testBit p
  if f.etype = 0x88F7 ∧ station then some 0
  else if f.etype = 0x88B8 ∧ station then some 1
  else if f.etype = 0x88BA ∧ station then some 2
  else if f.etype = s.get F.SAF_TGGLOB_ETYPE ∧ station then some 3
  else if f.etype = 0x0806 ∧ f.forMe ∧ rap then some 4
  else if f.etype = 0x0800 ∧ f.forMe ∧ f.udp = s.get F.NET_RAPCFG_UDP ∧ rap then some 5
  else none

/-- The VID declared for a class on a port: telegrams carry that of SAF_TGGLOB, if they are tagged (R357, R367, R391). -/
def State.classVid (s : State) (p c : Nat) : Option Nat :=
  if c = 3 then (if s.flag F.SAF_TGGLOB_TAGGED then some (s.get F.SAF_TGGLOB_VID) else none) else some (s.get F.NET_PCFG_VID p)

/-- Policer rates in frames per second. -/
def policerRate (c : Nat) : Nat :=
  if c = 0 then 512 else if c = 1 then 4000 else if c = 2 then 120000 else if c = 3 then 2000 else if c = 4 then 100 else 2000

/-- One frame at the policer of a class on a port; the Bool says that it passes. -/
def State.police (s : State) (p c : Nat) : State × Bool :=
  let k := 8 * p + c
  let b := Sparse.get (fun _ => (0, 0)) s.net.buckets k
  let back := (s.ct - b.2) * policerRate c / 600000000
  let used := b.1 - back
  let at_ := if used = 0 then s.ct else b.2 + back * 600000000 / policerRate c
  let ok := decide (used ≤ Config.policerDepth c)
  ({ s with net := { s.net with
      buckets := Sparse.set (fun _ => (0, 0)) s.net.buckets k (if ok then used + 1 else used, at_) } }, ok)

/-- The class of the frame whose message port `p` hands on. -/
def State.setRx (s : State) (p : Nat) (c : Option Nat) : State :=
  { s with net := { s.net with rx := Sparse.set (fun _ => none) s.net.rx p c } }

/-- The port has accepted a frame of class `c`, and its message is still to come: a message acts only then (R367). -/
def State.inFrame (s : State) (p c : Nat) : Bool := s.portOn p && Sparse.get (fun _ => none) s.net.rx p == some c

/-- A frame at a port that is up: its class, VLAN and policer (R367). -/
def State.frameCheck (s : State) (p : Nat) (f : NetFrame) : State :=
  if !f.fcsOk || f.len > 1522 then s.errInc F.NET_PSTAT_FCS (1493 + p) p
  else
    match s.frameClass p f with
    | some c =>
      if f.tag = none ∨ f.tag = some 0 ∨ f.tag = s.classVid p c then
        let (s1, ok) := s.police p c
        if ok then
          let s2 := s1.wrapInc F.NET_RXCNT_COUNT p
          if c = 4 then s2.send (.arp p) else s2.setRx p (some c)
        else (s1.errInc F.NET_PSTAT_DROP (1490 + p) p).pulse Ev.NET_POLICE p c
      else s.errInc F.NET_PSTAT_DROP (1490 + p) p
    | none => s.errInc F.NET_PSTAT_DROP (1490 + p) p

/-- A received frame (R367). One that is not accepted leaves no message to act on. -/
def State.frameIn (s : State) (p : Nat) (f : NetFrame) : State := if s.portOn p then (s.setRx p none).frameCheck p f else s

/-! ### Network time (R368, R377) -/

/-- Make the present instant the base of network time. -/
def State.timeBase (s : State) : State := { s with time := ⟨(s.netFixAt s.ct).toNat, s.ct⟩ }

/-- Set the frequency correction, in parts per 10¹². -/
def State.setFreq (s : State) (f : Int) : State := s.timeBase.putS F.NET_FREQ_FREQ f

/-- A step of network time by `x` ns. -/
def State.stepTime (s : State) (x : Rat) : State :=
  let b := s.timeBase
  { b with time := { b.time with fix := (((b.time.fix : Int) + (x * 2 ^ 32).floor) % 2 ^ 96).toNat } }

/-! ### Timed outputs (R380, R381) -/

def State.tout (s : State) (n : Nat) : Tout := Sparse.get (fun _ => {}) s.net.touts n
def State.setTout (s : State) (n : Nat) (x : Tout) : State :=
  { s with net := { s.net with touts := Sparse.set (fun _ => {}) s.net.touts n x } }

/-- Signed 32-bit distance from now to a target. -/
def State.toutAhead (s : State) (tgt : Nat) : Int := toSigned 32 (tgt % 2 ^ 32 + 2 ^ 32 - s.netNow % 2 ^ 32)

/-- The first target TGT + k × PER, k ≥ 1, that lies ahead. -/
def State.nextTarget (s : State) (tgt per : Nat) : Nat :=
  let d := s.toutAhead (tgt + per)
  if d > 0 then (tgt + per) % 2 ^ 32
  else (tgt + per + ((-d).toNat / per + 1) * per) % 2 ^ 32

/-- A pulse starts (R380). The next target of a periodic output is TGT + PER; after a forward step of network time a late pulse passes
over the targets that lie behind. -/
def State.pulseStart (s : State) (n : Nat) (late : Bool) : State :=
  let x := s.tout n
  let tgt := if x.mode = 2 then (if late && x.stepped then s.nextTarget x.tgt x.per else (x.tgt + x.per) % 2 ^ 32) else x.tgt
  let s1 := s.setTout n { x with high := true, stepped := false, tgt := tgt }
  let s2 := ((s1.put F.NET_TOUTSTAT_STATE 2 n).wrapInc F.NET_TOUTSTAT_COUNT n).put F.NET_TOUTLAST_NS (s.netNow % 2 ^ 32) n
  if late then (s2.put F.NET_TOUTSTAT_LATE 1 n).pulse Ev.TOUT_LATE n else s2

/-- A target that is reached or past starts its pulse, late. -/
def State.toutTest (s : State) (n : Nat) : State :=
  if s.get F.NET_TOUTSTAT_STATE n = 1 ∧ s.toutAhead (s.tout n).tgt ≤ 0 then s.pulseStart n true else s

/-- ARM (R380, R381). It clears DONE and ABORTED, so that exactly one of the two is set for the pulse that it arms (DESIGN
CHOICE, log entry 76). -/
def State.toutArm (s : State) (n : Nat) : State :=
  let mode := s.get F.NET_TOUTCFG_MODE n
  let x : Tout := { s.tout n with
    stop := false, stepped := false, pol := s.get F.NET_TOUTCFG_POL n, mode := mode, tgt := s.get F.NET_TOUTTGT_TGT n
    per := s.get F.NET_TOUTPER_PER n, width := s.get F.NET_TOUTW_W n }
  let s1 := (((s.setTout n x).put F.NET_TOUTSTAT_COUNT 0 n).put F.NET_TOUTSTAT_DONE 0 n).put F.NET_TOUTSTAT_ABORTED 0 n
  if mode = 0 then s1.put F.NET_TOUTSTAT_STATE 0 n else (s1.put F.NET_TOUTSTAT_STATE 1 n).toutTest n

/-- STOP (R381). A target that network time has reached starts its pulse first: the pulse wins the tie. -/
def State.toutStop (s0 : State) (n : Nat) : State × Code :=
  let s := if s0.get F.NET_TOUTSTAT_STATE n = 1 ∧ s0.toutAhead (s0.tout n).tgt ≤ 0 then s0.pulseStart n false else s0
  let st := s.get F.NET_TOUTSTAT_STATE n
  let x := s.tout n
  if st = 1 then (((s.put F.NET_TOUTSTAT_STATE 0 n).put F.NET_TOUTSTAT_ABORTED 1 n), .ok)
  else if st = 2 ∧ x.mode = 2 then (s.setTout n { x with stop := true }, .ok)
  else if st = 2 ∨ s.flag F.NET_TOUTSTAT_DONE n then (s, .abortLate)
  else (s, .ok)

/-- The level of TOUTn: low before RUN (R94), else the pulse by its polarity (R380). -/
def State.toutPin (s : State) (n : Nat) : Bool :=
  s.pins.coreGood && (s.get F.SEC_STATE_HSTATE == 2 || s.get F.SEC_STATE_HSTATE == 3) && (s.tout n).high == ((s.tout n).pol == 0)

/-- Network time reaches a target (R380). -/
def State.toutReached (s : State) (n : Nat) : State :=
  if s.get F.NET_TOUTSTAT_STATE n = 1 then s.pulseStart n false else s

/-- A pulse ends after its width (R380, R381). -/
def State.pulseEnd (s : State) (n : Nat) : State :=
  let x := s.tout n
  let s1 := s.setTout n { x with high := false, stop := false }
  if s.get F.NET_TOUTSTAT_STATE n ≠ 2 then s1
  else if x.mode = 2 then
    if x.stop then (s1.put F.NET_TOUTSTAT_STATE 0 n).put F.NET_TOUTSTAT_ABORTED 1 n
    else (s1.put F.NET_TOUTSTAT_STATE 1 n).toutTest n
  else (s1.put F.NET_TOUTSTAT_STATE 0 n).put F.NET_TOUTSTAT_DONE 1 n

/-- Outputs meet a step of network time by `x` ns (R377, R380). -/
def State.toutStep (s : State) (x : Rat) : State :=
  (List.range 8).foldl (fun t n => (t.setTout n { t.tout n with stepped := decide (0 < x) && t.get F.NET_TOUTSTAT_STATE n != 0 }).toutTest n) s

/-! ### The period lock (R378) -/

/-- Period lock states. -/
def plFree : Nat := 0
def plPull : Nat := 1
def plLocked : Nat := 2
def plHold : Nat := 3

/-- The period lock leaves a state for HOLD; leaving LOCKED acts under R236. -/
def State.lockHold (s : State) : State :=
  let was := s.get F.NET_PLSTAT_STATE
  let s1 := s.put F.NET_PLSTAT_STATE plHold
  if was = plLocked then (s1.put F.MVS_STAT_NETLOCK 0).pulse Ev.MV_NETPH else s1

/-- The servo enters LOCKED: a period lock that waits begins to pull, and with QSTEP may step the phase once. -/
def State.lockPull (s : State) : State :=
  let st := s.get F.NET_PLSTAT_STATE
  if s.flag F.NET_PLCFG_LOCKEN ∧ (st = plFree ∨ st = plHold) ∧ s.drivesLanes then
    let t := s.put F.NET_PLSTAT_STATE plPull
    { t with net := { t.net with quiet := t.flag F.NET_PLCFG_QSTEP } }
  else s

/-- The quiet step may be taken (R378): no cell is beyond BLOCKED, every LV use is held, and the pump is OFF. -/
def State.quietNow (s : State) : Bool :=
  s.cellList.all (fun c => !([csQueued, csPrecharge, csReady, csRun, csSpare].contains (s.cState c))) &&
    (List.range 16).all (fun n => s.pairUse n == 0 || !s.useLoop n) &&
    s.get F.GDI_PUSTAT_STATE == 0

/-- The CT by which one period must be longer for its end to meet the grid, at most P − 1 (R378). -/
def stretchOf (e : Int) (p : Nat) : Nat := ((roundHalfAway (mkRat (-e * 3) 5)) % (p : Int)).toNat

/-- The servo leaves LOCKED. -/
def State.lockDrop (s : State) : State :=
  let st := s.get F.NET_PLSTAT_STATE
  if st = plPull ∨ st = plLocked then s.lockHold else s

/-- The phase error of a boundary stamp in ns: the stamp less the nearest target, in (−P/2, +P/2]. -/
def phaseError (stamp p : Nat) : Rat :=
  let pn := mkRat (p * 5) 3
  let t : Rat := ((stamp % 10 ^ 9 : Nat) : Rat)
  let r := t - pn * (t / pn).floor
  if r > pn / 2 then r - pn else r

/-- A boundary is stamped (R378). At the first one in PULL the quiet step is taken or given up; the rate follows network time, within
PLRATE of it and within the reach of the PLL (R415). -/
def State.lockStamp (s : State) : State :=
  if s.flag F.NET_PLCFG_LOCKEN ∧ s.drivesLanes then
    let e := roundHalfAway (phaseError (s.netAt s.bnd) s.img.per.p)
    let st := s.get F.NET_PLSTAT_STATE
    let s1 := s.putS F.NET_PLSTAT_E e
    if st = plLocked ∧ 200 < e.natAbs then s1.lockHold
    else if st = plPull ∧ s.net.quiet ∧ s.quietNow then
      { s1 with net := { s1.net with quiet := false, stretch := stretchOf e s.img.per.p } }
    else if st = plPull ∨ st = plLocked then
      let lim : Int := s.get F.NET_PLCFG_PLRATE * 1000
      let rate := roundHalfAway (mkRat (s.getS F.NET_FREQ_FREQ) 1000) + clampI (-lim) lim (Config.pullSteer e)
      let s2 : State := { s1 with net := { s1.net with quiet := false } }
      s2.putS F.CLK_CSTEER_STEER (clampI (-50000) 50000 rate)
    else s1
  else s

/-- |e| has stayed within 10 ns for 1 s (R378). -/
def State.lockSettled (s : State) : State :=
  if s.get F.NET_PLSTAT_STATE = plPull ∧ (s.getS F.NET_PLSTAT_E).natAbs ≤ 10 then
    ((s.put F.NET_PLSTAT_STATE plLocked).put F.MVS_STAT_NETLOCK 1).pulse Ev.PL_LOCK
  else s

/-! ### PTP (R371 to R376) -/

def ptpAcquire : Nat := 1
def ptpLocking : Nat := 2
def ptpLocked : Nat := 3
def ptpHoldover : Nat := 4

def State.dom (s : State) (d : Nat) : PtpDomain := Sparse.get (fun _ => {}) s.net.doms d
def State.setDom (s : State) (d : Nat) (x : PtpDomain) : State :=
  { s with net := { s.net with doms := Sparse.set (fun _ => {}) s.net.doms d x } }

/-- The steering domain. -/
def State.steering (s : State) : Nat := s.get F.NET_PTPSTAT_STEERING

/-- STEP_LIMIT and LOCKTHR in ns. -/
def State.stepLimit (s : State) : Rat := (10 * s.get F.NET_PTPCFG_STEPLIM : Nat)
def State.lockThr (s : State) : Rat := (10 * s.get F.NET_PTPCFG_LOCKTHR : Nat)

def absQ (q : Rat) : Rat := if q < 0 then -q else q

/-- The servo's state, with the period lock that follows it. -/
def State.setServo (s : State) (st : Nat) : State :=
  let was := s.get F.NET_PTPSTAT_STATE
  let s1 := s.put F.NET_PTPSTAT_STATE st
  let s2 := if st = ptpLocking then
      let t : State := { s1 with net := { s1.net with inLock := 0, sumX := 0, lastAt := s1.ct } }
      [0, 1].foldl (fun (u : State) d => u.setDom d { u.dom d with back := 0 }) t
    else s1
  if was = st then s2
  else if st = ptpLocked then (s2.pulse Ev.PTP_LOCK s2.steering).lockPull
  else if was = ptpLocked then s2.lockDrop
  else s2

/-- ROLE, SAMPLES, OF and the peer delay on the selected port of a domain in its registers. -/
def State.showDom (s : State) (d : Nat) : State :=
  let x := s.dom d
  let role := if !s.flag F.NET_DCFG_EN d then 0 else if !x.announced && x.n == 0 then 1 else if s.steering = d then 3 else 2
  let t := ((s.put F.NET_DSTAT_ROLE role d).put F.NET_DSTAT_SAMPLES (min x.n 0xFFFF) d).putS F.NET_DOFS_OF (roundHalfAway x.ofs) d
  t.put F.NET_DPDLY_PDLY (ofSigned 32 (roundHalfAway (Sparse.get (fun _ => 0) x.pd (t.get F.NET_DSTAT_PORT d)))) d

/-- The domain listens on a port. -/
def State.listens (s : State) (d p : Nat) : Bool :=
  s.portOn p && s.flag F.NET_DCFG_EN d && (s.get F.NET_DCFG_PORTS d).testBit p

/-- A message passes the checks of a domain's profile (R371): length, version, domain, transportSpecific or majorSdoId, and a correctionField
below 1 ms. -/
def State.ptpOk (s : State) (d : Nat) (h : PtpHead) : Bool :=
  h.version == 2 && decide (h.minor ≤ 1) && h.lenOk && h.domain == s.get F.NET_DCFG_DOMAIN d &&
    h.sdo == Config.ptpSdo (s.get F.NET_DCFG_PROFILE d) && decide (h.corr.natAbs < 10 ^ 6 * 2 ^ 16)

/-- A failed message check (R371). -/
def State.ptpBad (s : State) (d : Nat) : State := (s.errInc F.NET_DERR_COUNT (1501 + d) d).pulse Ev.PTP_MSG d

/-- Every estimate falls by a step of network time. -/
def State.shiftDoms (s : State) (x : Rat) : State :=
  [0, 1].foldl (fun t d =>
    let y := t.dom d
    (t.setDom d { y with
      ofs := y.ofs - x, last := y.last - x, other := y.other - x, pre := y.pre - x, hist := y.hist.map fun e => (e.1 - x, e.2) }).showDom d) s

/-- A step of network time by the servo (R373, R376, R377). -/
def State.servoStep (s : State) (x : Rat) : State :=
  let s1 := (s.stepTime x).shiftDoms x
  ((s1.setServo ptpLocking).satIncF F.NET_PTPSTAT_STEPS).pulse Ev.PTP_STEP s1.steering

/-- The rate of the last 8 samples in parts per 10¹²: the change of the offset from the first of them to the last over the time between
(R373; DEDUCED, log entry 81). Samples are listed newest first, with their control ticks. -/
def sampleRate (l : List (Rat × Nat)) : Int :=
  match l.head?, l.getLast? with
  | some (o1, c1), some (o0, c0) => roundHalfAway (qdiv ((o1 - o0) * 10 ^ 12) (mkRat (((c1 : Int) - c0) * 5) 3))
  | _, _ => 0

/-- `steer` of R373 on of[s]. -/
def State.steer (s : State) : State :=
  let d := s.steering
  let x := (s.dom d).ofs
  let rate := sampleRate (s.dom d).hist
  if s.get F.NET_PTPSTAT_STATE = ptpAcquire then
    if (s.dom d).n < 8 then s
    else if rate.natAbs > 500000000 then s.pulse Ev.PTP_FREQLIM d (ofSigned 32 (rate / 1000))
    else ((s.servoStep x).setFreq rate).toutStep x
  else
    let sum := s.net.sumX + x
    let target := Config.ptpKp * x + Config.ptpKi * sum
    let f : Rat := (s.getS F.NET_FREQ_FREQ : Int)
    let lim := 200000 * mkRat ((s.ct : Int) - s.net.lastAt) 600000000
    let g := clampQ (-500000000) 500000000 (f + clampQ (-lim) lim (target - f))
    let s1 := s.setFreq (roundHalfAway g)
    let k := if absQ x ≤ s.lockThr then s.net.inLock + 1 else 0
    let s2 := { s1 with net := { s1.net with sumX := sum, lastAt := s.ct, inLock := k } }
    if s.get F.NET_PTPSTAT_STATE = ptpLocking ∧ 16 ≤ k then s2.setServo ptpLocked else s2

/-- A jump is declared on domain `d` by sample `o` (R375). -/
def State.ptpJump (s : State) (d : Nat) (o : Rat) : State :=
  let x := s.dom d
  let y := s.dom (1 - d)
  let ds := o - x.ofs
  let s1 := (s.setDom d { x with since := 0, back := 0, pre := x.ofs }).putS F.NET_DJUMP_JUMP (roundHalfAway ds) d
  if d = s.steering then
    let asym := 16 ≤ y.n && decide (absQ (ds - (y.last - x.other)) > s.stepLimit / 2)
    (s1.setServo ptpHoldover).pulse (if asym then Ev.PTP_ASYM else Ev.PTP_JUMP) d (ofSigned 32 (roundHalfAway ds))
  else s1.pulse Ev.PTP_ASYM d (ofSigned 32 (roundHalfAway ds))

/-- An armed step gathers a sample; the fourth takes the step (R376). The Bool says that the step was taken. -/
def State.armGather (s : State) (d : Nat) (o : Rat) : State × Bool :=
  if s.flag F.NET_PTPSTAT_ARMED ∧ d = s.steering then
    let l := s.net.armStep ++ [o]
    if l.length < 4 then ({ s with net := { s.net with armStep := l } }, false)
    else
      let m := l.foldl (· + ·) 0 / 4
      let s1 := { s with net := { s.net with armStep := [] } }
      (((s1.put F.NET_PTPSTAT_ARMED 0).servoStep m).toutStep m, true)
  else (s, false)

/-- A sample of the steering domain in HOLDOVER: JUMPN of them in a row within STEP_LIMIT of the estimate from before the jump end it
(R375). -/
def State.holdSample (s : State) (d : Nat) (o : Rat) : State :=
  let x := s.dom d
  let k := if absQ (o - x.pre) ≤ s.stepLimit then x.back + 1 else 0
  let s1 := s.setDom d { x with back := k }
  if k ≥ s.get F.NET_PTPCFG_JUMPN then s1.setServo ptpLocking else s1

/-- The mean peer delay on port `p` from the delay that the MAC stamps give, in ns: each of the two ways has an egress and an ingress on
this port, referred to the wire (R369). -/
def State.peerDelay (s : State) (p raw : Nat) : Rat :=
  mkRat raw 65536 - mkRat (s.getS F.NET_TXCOR_COR p + s.getS F.NET_RXCOR_COR p) 32

/-- The offset sample o of grandmaster time against network time, in ns (R369, R370): origin time less the ingress wire time, plus the path
delay with the link's asymmetry. -/
def State.syncOffset (s : State) (m : PtpSample) : Rat :=
  let p := m.port.val
  mkRat m.ofs 65536 + mkRat (s.getS F.NET_RXCOR_COR p) 16 + s.peerDelay p m.pdelay + mkRat (s.getS F.NET_ASYM_ASYM p) 16

/-- Sample `o` of domain `d` at the estimate (R373). -/
def State.filterSample (s : State) (d : Nat) (o : Rat) : State :=
  let y := s.dom d
  let holds := d = s.steering ∧ s.get F.NET_PTPSTAT_STATE = ptpHoldover
  let checks := s.get F.NET_PTPSTAT_STATE != ptpAcquire && 4 ≤ y.n
  let t :=
    if y.n ≠ 0 ∧ checks ∧ absQ (o - y.ofs) > s.stepLimit then
      let other := if y.jc = 0 then (s.dom (1 - d)).last else y.other
      let s2 := s.setDom d { y with jc := y.jc + 1, other := other }
      if y.jc + 1 = s.get F.NET_PTPCFG_JUMPN then s2.ptpJump d o else s2
    else
      let ofs := if y.n = 0 then o else y.ofs + (o - y.ofs) / 4
      let s2 := s.setDom d { y with
        ofs := ofs, jc := 0, n := y.n + 1, since := y.since + 1, hist := ((o, s.ct) :: y.hist).take 8 }
      if d = s.steering ∧ ¬holds then s2.steer else s2
  (if holds then t.holdSample d o else t).showDom d

/-- A Sync offset sample (R369 to R373). A new grandmaster's first sample begins the count again (R374). -/
def State.ptpSample (s : State) (d : Nat) (m : PtpSample) : State :=
  let x0 := s.dom d
  let p := m.port.val
  if !s.listens d p then s
  else if !s.ptpOk d m.head then s.ptpBad d
  else
    let x1 := { x0 with pd := Sparse.set (fun _ => 0) x0.pd p (s.peerDelay p m.pdelay) }
    if x0.announced && s.get F.NET_DSTAT_PORT d != p then s.setDom d x1
    else
      let o := s.syncOffset m
      let x := if x0.restart then { x1 with n := 0, jc := 0, since := 0, back := 0, hist := [], restart := false } else x1
      let (s1, stepped) := (s.setDom d { x with last := o }).armGather d o
      if stepped then s1 else s1.filterSample d o

/-- The other domain may take over steering (R374). -/
def State.otherGood (s : State) : Bool :=
  let o := 1 - s.steering
  s.flag F.NET_DCFG_EN o && 16 ≤ (s.dom o).since && decide (absQ (s.dom o).ofs ≤ s.stepLimit)

/-- NET_UTCOFS shows the currentUtcOffset of the steering domain's last Announce, once that domain has given one (R368). -/
def State.showUtc (s : State) : State :=
  match (s.dom s.steering).utc with
  | some u => (s.put F.NET_UTCOFS_VALID 1).put F.NET_UTCOFS_OFS u
  | none => s.put F.NET_UTCOFS_VALID 0

/-- Steering switches to the other domain without a step (R374); a pending arm is cancelled (R376). -/
def State.switchSteer (s : State) : State :=
  let o := 1 - s.steering
  let stay := s.servoLocked && decide (absQ (s.dom o).ofs ≤ s.lockThr)
  let s1 := (s.put F.NET_PTPSTAT_STEERING o).put F.NET_PTPSTAT_ARMED 0
  let s2 := { s1 with net := { s1.net with armStep := [], switchedAt := some s1.period } }
  let s3 := (if stay then s2 else s2.setServo ptpLocking).showUtc
  ((s3.pulse Ev.PTP_SWITCH o).showDom 0).showDom 1

/-- The steering domain lost its Announce or its grandmaster (R374). A domain whose own Announce timed out cannot take over (R390). -/
def State.steerLost (s : State) : State :=
  if s.otherGood && !(s.dom (1 - s.steering)).timedOut then s.switchSteer
  else
    let d := s.steering
    let x := s.dom d
    let s1 := if s.get F.NET_PTPSTAT_STATE = ptpHoldover then s else s.setDom d { x with pre := x.ofs, back := 0 }
    (s1.setServo ptpHoldover).pulse Ev.PTP_HOLD d

/-- SELECT (R374): a domain that may not take over returns STATE. -/
def State.ptpSelect (s : State) (sel : Nat) : State × Code :=
  if sel = 0 then (s, .ok)
  else if sel = 3 then (s, .range)
  else if sel - 1 = s.steering then (s, .ok)
  else if s.otherGood then (s.switchSteer, .ok)
  else (s, .state)

/-- ARMSTEP (R376). A change of steering domain in the same period cancels it (R390). -/
def State.armStepGo (s : State) : State :=
  if s.net.switchedAt = some s.period then s
  else
    let t := s.put F.NET_PTPSTAT_ARMED 1
    { t with net := { t.net with armStep := [] } }

/-- The bytes of a clock identity, first byte first. -/
def idBytes (x : BitVec 64) : List Nat := (List.range 8).map fun i => x.toNat / 2 ^ (8 * i) % 256

/-- Whether Announce `a` describes a better grandmaster than `b` (R371: the comparison of IEEE 1588). -/
def betterAnn (a b : PtpAnnounce) : Bool :=
  let key := fun (x : PtpAnnounce) => if a.gm = b.gm then [x.steps, x.sender, x.port.val]
    else [x.prio1, x.gmClass, x.accuracy, x.variance, x.prio2] ++ idBytes x.gm
  lexLt (key a) (key b)
where
  lexLt : List Nat → List Nat → Bool
    | x :: xs, y :: ys => if x < y then true else if y < x then false else lexLt xs ys
    | _, _ => false

/-- The best of the masters that a domain hears. -/
def PtpDomain.best (x : PtpDomain) : Option PtpAnnounce :=
  x.ann.foldl (fun b a => match b with
    | none => some a
    | some y => if betterAnn a y then some a else some y) none

/-- A master's Announce replaces the one before it from the same port and sender. -/
def PtpDomain.hear (x : PtpDomain) (a : PtpAnnounce) : PtpDomain :=
  { x with ann := (x.ann.filter fun y => !(y.port == a.port && y.sender == a.sender)) ++ [a] }

/-- An Announce (R368, R371, R374). -/
def State.ptpAnnounce (s : State) (d : Nat) (a : PtpAnnounce) : State :=
  if !s.listens d a.port.val then s
  else if !s.ptpOk d a.head then s.ptpBad d
  else
    let x := s.dom d
    let x1 := x.hear a
    match x1.best with
    | none => s
    | some b =>
      let gm := s.get F.NET_DGMLO_ID d + 2 ^ 32 * s.get F.NET_DGMHI_ID d
      let changed := x.gmSeen && gm != b.gm.toNat
      let s1 := s.setDom d { x1 with
        announced := true, timedOut := false, gmSeen := true, restart := x1.restart || changed, utc := a.utc.or x.utc
        altTime := a.altTime.or x.altTime }
      let s2 := (s1.put F.NET_DGMLO_ID (b.gm.toNat % 2 ^ 32) d).put F.NET_DGMHI_ID (b.gm.toNat / 2 ^ 32) d
      let s3 := ((s2.put F.NET_DSTAT_GMCLASS b.gmClass d).put F.NET_DSTAT_PORT b.port.val d).showDom d
      let s4 := if d = s.steering then s3.showUtc else s3
      if changed ∧ d = s.steering then s4.steerLost else s4

/-- The Announce receipt timeout of a domain (R374). -/
def State.annTimeout (s : State) (d : Nat) : State :=
  if s.flag F.NET_DCFG_EN d then
    let s1 := (s.setDom d { s.dom d with announced := false, timedOut := true, ann := [] }).showDom d
    if d = s.steering then s1.steerLost else s1
  else s

/-- A Pdelay_Req is answered in two steps on a port on which a domain listens (R369, R371). -/
def State.pdelayReq (s : State) (p : Nat) (r : PdelayReq) : State :=
  let ds := [0, 1].filter fun d => s.listens d p
  match ds.find? (fun d => s.ptpOk d r.head), ds.head? with
  | some d, _ =>
    s.send (.pdelay p ⟨s.get F.NET_DCFG_MINOR d, s.get F.NET_DCFG_DOMAIN d, r.seq, (r.stamp16 : Int) - s.getS F.NET_RXCOR_COR p,
      (r.txStamp16 : Int) + s.getS F.NET_TXCOR_COR p⟩)
  | none, some d => s.ptpBad d
  | none, none => s

/-- What a message does once its frame has been accepted on port `p` as class `c` (R367). -/
def State.withFrame (s : State) (p c : Nat) (f : State → State) : State := if s.inFrame p c then f (s.setRx p none) else s

/-! ### GOOSE and Sampled Values (R382 to R384) -/

/-- An IEEE 754 single; none for an infinity or a NaN. -/
def f32 (w : Word) : Option Rat :=
  let e := fieldGet w 30 23
  let m := fieldGet w 22 0
  let v : Rat := if e = 0 then mkRat m (2 ^ 149)
    else if e ≥ 150 then ((2 ^ 23 + m) * 2 ^ (e - 150) : Nat) else mkRat (2 ^ 23 + m : Nat) (2 ^ (150 - e))
  if e = 255 then none else some (if w.getLsbD 31 then -v else v)

def State.gsubW (s : State) (i w : Nat) : Word := s.rd (0xE1000 + 0x20 * i + 4 * w)
def State.svsubW (s : State) (i w : Nat) : Word := s.rd (0xE1800 + 0x20 * i + 4 * w)
def State.gsub (s : State) (i : Nat) : GooseSub := Sparse.get (fun _ => {}) s.net.goose i
def State.setGsub (s : State) (i : Nat) (x : GooseSub) : State :=
  { s with net := { s.net with goose := Sparse.set (fun _ => {}) s.net.goose i x } }
def State.svsub (s : State) (i : Nat) : SvSub := Sparse.get (fun _ => {}) s.net.sv i
def State.setSvsub (s : State) (i : Nat) (x : SvSub) : State :=
  { s with net := { s.net with sv := Sparse.set (fun _ => {}) s.net.sv i x } }

/-- The MAC address of a port (R391). -/
def State.portMac (s : State) (p : Nat) : Nat := s.get F.NET_MACLO_MAC p + 2 ^ 32 * s.get F.NET_MACHI_MAC p

/-- Subscription words match a frame in address and APPID (R382). -/
def addrMatch (w0 w1 w2 : Word) (dst appid : Nat) : Bool :=
  w0.getLsbD 31 && dst == w1.toNat + 2 ^ 32 * fieldGet w2 15 0 &&
  appid == fieldGet w0 23 8

/-- VALID of a GOOSE subscription. -/
def State.gooseValid (s : State) (i : Nat) : Bool := (s.gsubW i 7).getLsbD 31

/-- Set VALID of a GOOSE subscription. -/
def State.setGooseValid (s : State) (i : Nat) (b : Bool) : State :=
  s.wr (0xE101C + 0x20 * i) (fieldSet (s.gsubW i 7) 31 31 b.toNat)

/-- One more accepted message. -/
def State.gooseCount (s : State) (i : Nat) : State :=
  s.wr (0xE101C + 0x20 * i) (fieldSet (s.gsubW i 7) 15 0 (fieldGet (s.gsubW i 7) 15 0 + 1))

/-- A GOOSE message at subscription `i` (R382, R383). -/
def State.gooseOne (s : State) (m : GooseMsg) (i : Nat) : State :=
  let w0 := s.gsubW i 0
  if !addrMatch w0 (s.gsubW i 1) (s.gsubW i 2) m.dst m.appid then s
  else if m.sim && !w0.getLsbD 28 then s
  else if ¬(fieldGet w0 30 29).testBit m.port.val ∨ m.cbCrc ≠ s.gsubW i 3 ∨ m.confRev ≠ s.gsubW i 4 ∨ m.nds ∨ m.entries ≠ fieldGet w0 7 0 then
    (s.setGooseValid i false).pulse Ev.GOOSE_CFG i
  else
    let x := s.gsub i
    let dst := toSigned 32 (m.st.toNat + 2 ^ 32 - x.st)
    let dsq := toSigned 32 (m.sq.toNat + 2 ^ 32 - x.sq)
    if !x.seen || 0 < dst || (dst < 0 && !s.gooseValid i) then
      let s1 := s.setGsub i ⟨true, m.st.toNat, m.sq.toNat, m.tal, m.vals, s.ct⟩
      ((s1.wr (0xE1018 + 0x20 * i) m.st).setGooseValid i true).gooseCount i
    else if dst = 0 ∧ 0 < dsq then
      ((s.setGsub i { x with sq := m.sq.toNat, tal := m.tal, at_ := s.ct }).setGooseValid i true).gooseCount i
    else s

/-- A GOOSE message (R382, R383). -/
def State.gooseIn (s : State) (m : GooseMsg) : State :=
  (List.range 64).foldl (fun t i => t.gooseOne m i) s

/-- The timeout of a GOOSE subscription (R383); a message of the same CT wins (R390). -/
def State.gooseTimeout (s : State) (i : Nat) : State :=
  if s.gooseValid i ∧ (s.gsub i).at_ ≠ s.ct then (s.setGooseValid i false).pulse Ev.GOOSE_TO i else s

/-- Samples per second of a stream (R384). -/
def svRate (w0 : Word) : Nat :=
  let r := fieldGet w0 26 24
  if r = 0 then 4000 else if r = 1 then 4800 else if r = 2 then 12800 else if r = 3 then 14400 else 15360

/-- VALID of a Sampled Values subscription. -/
def State.svValid (s : State) (i : Nat) : Bool := (s.svsubW i 7).getLsbD 31
def State.setSvValid (s : State) (i : Nat) (b : Bool) : State :=
  s.wr (0xE181C + 0x20 * i) (fieldSet (s.svsubW i 7) 31 31 b.toNat)

/-- One ASDU at subscription `i` (R384): a gap beyond SVGAP makes the stream invalid until the next sample. -/
def State.svAsdu (s : State) (i : Nat) (a : SvAsdu) : State :=
  let w0 := s.svsubW i 0
  let rate := svRate w0
  let x := s.svsub i
  if x.seen ∧ a.cnt = x.cnt then s
  else
    let skip := (a.cnt + 2 * rate - x.cnt % rate - 1) % rate
    let gap := x.seen && fieldGet (s.svsubW i 5) 7 0 < skip
    let now := s.netNow
    let sec := now - now % 10 ^ 9
    let t0 := sec + a.cnt * 10 ^ 9 / rate
    let inst := if t0 > now + 5 * 10 ^ 8 then t0 - 10 ^ 9 else t0
    let bad := w0.getLsbD 27 && a.synch == 0
    let s1 := s.setSvsub i { x with seen := true, cnt := a.cnt, inst := inst, bad := bad, vals := a.vals }
    let s2 := s1.wr (0xE1818 + 0x20 * i) (BitVec.ofNat 32 a.cnt)
    if gap then
      let s3 := s2.wr (0xE181C + 0x20 * i) (fieldSet (s2.svsubW i 7) 15 0 (satInc 0xFFFF (fieldGet (s2.svsubW i 7) 15 0)))
      (s3.setSvValid i false).pulse Ev.SV_GAP i skip
    else s2.setSvValid i true

/-- A Sampled Values frame at subscription `i` (R382, R384). The second copy of a frame, on the other port, is not used: it has the sample
counts of one of the last 16 frames used (log entry 82). -/
def State.svOne (s : State) (m : SvMsg) (i : Nat) : State :=
  let w0 := s.svsubW i 0
  if !addrMatch w0 (s.svsubW i 1) (s.svsubW i 2) m.dst m.appid then s
  else if m.sim && !w0.getLsbD 28 then s
  else if ¬(fieldGet w0 30 29).testBit m.port.val ∨ m.svCrc ≠ s.svsubW i 3 ∨ m.confRev ≠ s.svsubW i 4 ∨ m.asdus.isEmpty ∨
      m.asdus.length > 8 ∨ m.asdus.any (fun a => a.vals.length != fieldGet w0 7 0) then
    (s.setSvValid i false).pulse Ev.SV_CFG i
  else
    let x := s.svsub i
    let cnts := m.asdus.map (·.cnt)
    if x.used.contains (1 - m.port.val, cnts) then s.setSvsub i { x with used := x.used.erase (1 - m.port.val, cnts) }
    else m.asdus.foldl (fun t a => t.svAsdu i a) (s.setSvsub i { x with used := lastN 16 (x.used ++ [(m.port.val, cnts)]) })

/-- A Sampled Values frame. -/
def State.svIn (s : State) (m : SvMsg) : State :=
  (List.range 8).foldl (fun t i => t.svOne m i) s

/-- At the snapshot a stream whose newest sample is older than SVAGE is invalid (R384). -/
def State.svAge (s : State) (i : Nat) : State :=
  let x := s.svsub i
  let old := x.seen && (s.svsubW i 0).getLsbD 31 && decide (x.inst + 10000 * fieldGet (s.svsubW i 2) 31 16 < s.netNow)
  let s1 := if x.old = old then s else s.setSvsub i { x with old := old }
  let s2 := if old then s1.setSvValid i false else s1
  if old && !x.old then s2.pulse Ev.SV_AGE i else s2

/-! ### The dataset map (R385) -/

def State.mapW (s : State) (i w : Nat) : Word := s.rd (0xE2000 + 0x10 * i + 4 * w)

/-- An element under a TYPE, times SCALE where the type has one; none where a single that it needs is an infinity or a NaN. -/
def gooseConvert (typ bit : Nat) (scale : Option Rat) (v : GVal) : Option Rat :=
  match typ, v with
  | 0, .bool b => some (if b then 1 else 0)
  | 1, .int z => scale.map (z * ·)
  | 2, .uint n => scale.map (n * ·)
  | 3, .float w => (f32 w).bind fun x => scale.map (x * ·)
  | 4, .dbpos p => if p = 2 then some 1 else if p = 1 then some 0 else none
  | 5, .bits l => (l[bit]?).map fun b => if b then 1 else 0
  | _, _ => none

/-- The value that entry `i` finds in its subscription, if it is valid there. -/
def State.mapRaw (s : State) (i : Nat) : Option Rat :=
  let w := s.mapW i 0
  let sub := fieldGet w 29 24
  let el := fieldGet w 23 16
  let e := if w.getLsbD 30 then
      let x := s.svsub sub
      if s.svValid sub && !x.bad && !x.old then x.vals[el]? else none
    else if s.gooseValid sub then (s.gsub sub).vals[el]? else none
  match e with
  | some v => if v.good then gooseConvert (fieldGet w 15 12) (fieldGet w 11 7) (f32 (s.mapW i 1)) v.val else none
  | none => none

/-- Entry `i` at the snapshot: its range check, and SUB after TO invalid periods (R42, R385). -/
def State.mapEntry (s : State) (i : Nat) : State :=
  let w := s.mapW i 0
  if !w.getLsbD 31 then s
  else
    let lim := s.mapW i 2
    let w3 := s.mapW i 3
    let v := (s.mapRaw i).map fun q => (pu32 q).1
    let inR := fun (z : Int) => decide (pu32of16 (toSigned 16 (fieldGet lim 15 0)) ≤ z) &&
      decide (z ≤ pu32of16 (toSigned 16 (fieldGet lim 31 16)))
    let good := v.filter inR
    let s1 := if v.isSome && good.isNone then s.pulse Ev.NET_RANGE i else s
    let q := (Sparse.get (fun _ => {}) s.net.map i).feed good (pu32of16 (toSigned 16 (fieldGet w3 15 0))) (fieldGet w 3 0)
    let s2 := { s1 with net := { s1.net with map := Sparse.set (fun _ => {}) s1.net.map i q } }
    s2.wr (0xE200C + 0x10 * i) (fieldSet w3 31 31 (!q.ok).toNat)

/-- Streams and map at the snapshot. -/
def State.mapSnapshot (s : State) : State :=
  (List.range 128).foldl State.mapEntry ((List.range 8).foldl State.svAge s)

/-- Value of dataset source 0x880 + i. -/
def State.mapValue (s : State) (i : Nat) : Int × Bool :=
  let q : Quant := Sparse.get (fun _ => {}) s.net.map i
  (q.val, q.ok)

/-! ### GOOSE publication (R386) -/

def State.pub (s : State) (j : Nat) : GoosePub := Sparse.get (fun _ => {}) s.net.pubs j
def State.setPub (s : State) (j : Nat) (x : GoosePub) : State :=
  { s with net := { s.net with pubs := Sparse.set (fun _ => {}) s.net.pubs j x } }

/-- Element `e` of publication `j`: its value, a BOOLEAN as 0 or 1, and how far it may move without a new state. -/
def State.pubElem (s : State) (j e : Nat) : Rat × Rat :=
  let a := 0xE3000 + 0x100 * j + 8 * e
  let w := s.rd a
  let n := fieldGet w 11 0
  let b := fun (x : Bool) => ((if x then 1 else 0 : Rat), (0 : Rat))
  if fieldGet w 31 30 = 0 then (q30 (s.srcNow n).1 * (f32 (s.rd (a + 4))).getD 0, Config.gooseDeadband j e)
  else if fieldGet w 31 30 = 1 then b (s.evActive n)
  else if n = 0 then b (s.flag F.SAF_STAT_WO)
  else if n = 1 then b s.drivesLanes
  else if n = 2 then b s.servoLocked
  else b (s.get F.NET_PLSTAT_STATE == plLocked)

/-- A frame of publication `j` leaves on the ports of PORTS that are up: timeAllowedtoLive is twice the interval to the next one (R386). -/
def State.sendGoose (s : State) (j : Nat) : State :=
  let x := s.pub j
  let f : GooseFrame := ⟨s.img.pubs.getD j {}, s.get F.NET_GPCFG_APPID j, s.get F.NET_GPST_STNUM j, s.get F.NET_GPSQ_SQNUM j, x.t,
    2 * x.interval, !s.servoLocked, x.vals⟩
  [0, 1].foldl (fun (t : State) p => if s.portOn p && (s.get F.NET_GPCFG_PORTS j).testBit p then t.send (.goose p f) else t) s

/-- Publication `j` at a window end: a change makes a new state (R386). -/
def State.publish (s : State) (j : Nat) : State :=
  if s.flag F.NET_GPCFG_EN j ∧ s.driving then
    let els := (List.range (s.get F.NET_GPCFG_NELEM j)).map (s.pubElem j)
    let x := s.pub j
    let moved := els.zipIdx.any fun y => decide (absQ (y.1.1 - x.vals.getD y.2 0) > y.1.2)
    if !x.started || moved then
      let s1 := s.setPub j ⟨true, els.map Prod.fst, s.get F.NET_GPTIM_TMIN j, s.netNow⟩
      ((s1.wrapInc F.NET_GPST_STNUM j).put F.NET_GPSQ_SQNUM 0 j).sendGoose j
    else s
  else s

/-- A retransmission: sqNum rises and the interval doubles up to TMAX (R386). -/
def State.republish (s : State) (j : Nat) : State :=
  let x := s.pub j
  if s.flag F.NET_GPCFG_EN j ∧ s.driving ∧ x.started then
    ((s.setPub j { x with interval := min (2 * x.interval) (s.get F.NET_GPTIM_TMAX j) }).wrapInc F.NET_GPSQ_SQNUM j).sendGoose j
  else s

/-! ### Register-access sessions (R387 to R389) -/

def State.session (s : State) (n : Nat) : RapSession := Sparse.get (fun _ => {}) s.net.sess n
def State.setSession (s : State) (n : Nat) (x : RapSession) : State :=
  { s with net := { s.net with sess := Sparse.set (fun _ => {}) s.net.sess n x } }

/-- The protocol is accepted on a port: life-cycle state OWNED or FIELD, the port started and allowed (R387). -/
def State.rapPort (s : State) (p : Nat) : Bool :=
  s.portOn p && (s.otp.lcs == 1 || s.otp.lcs == 2) && (p == 2 || (s.get F.NET_RAPCFG_PORTS).testBit p)

/-- The bytes of a message that its MAC covers, up to its body (R387). -/
def rapHead (magic : BitVec 16) (ver : Byte) (op sess kslot count seq addr : Nat) : List Byte :=
  leBytes 2 magic.toNat ++ ver :: leBytes 1 op ++ leBytes 1 sess ++ leBytes 1 kslot ++ leBytes 2 count ++ leBytes 4 seq ++ leBytes 4 addr

/-- The bytes of the body of a message of the head: R387 to R389 say what they hold and not in which order. -/
opaque Config.rapBody : RapOut → List Byte

/-- A message of the head leaves with its MAC. -/
def State.sendRap (s : State) (p : Nat) (key : List Byte) (x : RapOut) : State :=
  s.send (.rap p { x with mac := Config.hmac key (rapHead 0x5254 1 x.op x.sess x.kslot x.count x.seq x.addr ++ Config.rapBody x) })

/-- A NOTIFY goes to every open session (R389). -/
def State.sendNotify (s : State) (x : Nat × Nat × Nat) : State :=
  let q := (s.net.notifySeq + 1) % 2 ^ 32
  [1, 2, 3, 4].foldl (fun (t : State) n =>
    let y := t.session n
    if y.open_ then t.sendRap y.port y.ks { op := 8, sess := n, kslot := y.kslot, seq := q, notify := some x } else t)
    { s with net := { s.net with notifySeq := q } }

/-- The notifications of a command leave at its end. -/
def State.sendNotifies (s : State) : State :=
  s.evt.notifies.foldl State.sendNotify s

/-- A message whose MAC fails (R389). -/
def State.rapAuth (s : State) (p : Nat) : State := (s.errInc F.NET_RAPERR_AUTH 1499).pulse Ev.RAP_AUTH p

end Sys2Proof.Machine
end

