-- ==== Sys2Proof/Machine/AdcOps.lean ====
section
/-! DEFINITION. The converters, their checks and rings, the test DAC, the windows and the always-on comparators (R295 to R315). -/

namespace Sys2Proof.Machine

/-! ### Fast channels (R295 to R300) -/

def State.fastQ (s : State) (n : Nat) : Quant := Sparse.get (fun _ => {}) s.adc.fast n
def State.setFastQ (s : State) (n : Nat) (q : Quant) : State :=
  { s with adc := { s.adc with fast := Sparse.set (fun _ => {}) s.adc.fast n q } }
def State.hkQ (s : State) (n : Nat) : Quant := Sparse.get (fun _ => {}) s.adc.hk n
def State.setHkQ (s : State) (n : Nat) (q : Quant) : State :=
  { s with adc := { s.adc with hk := Sparse.set (fun _ => {}) s.adc.hk n q } }

/-- A fast code at either end of the converter counts as clipped (R299). -/
def clipped (c : Int) : Bool := c == 32767 || c == -32768

/-- Sum of a list of codes. -/
def sumI (l : List Int) : Int := l.foldl (· + ·) 0

/-- Code of a channel in one instant. -/
def codeOf (codes : List Int) (n : Nat) : Int := codes.getD n 0

/-- The PU32 value of R298 from the samples of the mean, the boundary sample last. -/
def State.fastValue (s : State) (n : Nat) (cs : List Int) : Int :=
  let raw : Rat := if s.flag F.ADC_FCFG_AVG n then mkRat (sumI cs) cs.length else (cs.getLastD 0 : Int)
  satSigned 32 (roundHalfAway ((raw - s.getS F.ADC_FOFS_OFFS n) * s.getS F.ADC_FSCALE_SCALE n / 512))

/-- The test DAC stands on a channel (R304). -/
def State.testOn (s : State) (hk : Bool) (n : Nat) : Bool :=
  s.flag F.ADC_TESTSTAT_CONN && s.adc.testHk == hk && s.adc.testChan == n

/-- A value within limits given as PU16 fields. -/
def State.inPu16 (s : State) (lo hi : Fld) (n : Nat) (v : Int) : Bool :=
  decide (pu32of16 (s.getS lo n) ≤ v) && decide (v ≤ pu32of16 (s.getS hi n))

/-- Give fast channel `n` its value of the period, or none (R42, R299). -/
def State.feedFast (s : State) (n : Nat) (m : Option Int) : State :=
  let q := (s.fastQ n).feed m (pu32of16 (s.getS F.ADC_FSUB_SUB n)) (s.get F.ADC_FCFG_TO n)
  ((s.setFastQ n q).putB F.ADC_FRES_INVALID (!q.ok) n).putS F.ADC_FVAL_VALUE q.val n

/-- The boundary result of fast channel `n` (R298, R299). `cs` ends with the boundary code. A mean is invalid if the DAC drove any of its
samples (R304). -/
def State.fastResult (s : State) (n : Nat) (cs : List Int) : State :=
  let code := cs.getLastD 0
  let clip := if s.flag F.ADC_FCFG_AVG n then cs.any clipped else clipped code
  let v := s.fastValue n cs
  let good := !clip && s.inPu16 F.ADC_FLIM_MIN F.ADC_FLIM_MAX n v
  let dac := s.testOn false n || (s.flag F.ADC_FCFG_AVG n && s.adc.dacSeen.testBit n)
  let s1 := (s.putS F.ADC_FRES_CODE code n).putB F.ADC_FRES_CLIP clip n
  let s2 := if good then s1
    else (s1.pulse Ev.ADC_RANGE n (ofSigned 32 code)).errInc F.ADC_FERR_COUNT (1415 + n) n
  s2.feedFast n (if good && !dac then some v else none)

/-- Fast channel `n` has no result by 180 CT (R297). -/
def State.fastLate (s : State) (n : Nat) : State :=
  (((s.pulse Ev.ADC_LATE n).errInc F.ADC_FERR_COUNT (1415 + n) n).putB F.ADC_FRES_CLIP false n).feedFast n none

/-- A code of the channel under check: from 10 µs after the connection on, the next 16 are averaged (R305). -/
def State.testTake (s : State) (hk : Bool) (code : Nat → Int) : State :=
  if s.adc.testRun && s.adc.testHk == hk && s.adc.testAt + 6000 ≤ s.ct && s.adc.testGot.length < 16 then
    { s with adc := { s.adc with testGot := s.adc.testGot ++ [code s.adc.testChan] } }
  else s

/-- Sixteen window outputs as a mask. -/
def State.windowMask (s : State) (f : Fld) : Nat :=
  (List.range 16).foldl (fun w i => if s.flag f i then w + 2 ^ i else w) 0

/-- Write one frame of the fast ring (R300). -/
def State.fastFrame (s : State) (j : Nat) (codes : List Int) : State :=
  if s.flag F.ADC_CTRL_FBUFEN then
    let wp := s.get F.ADC_FBUFWP_WP
    let idx := wp % (4096 * 2 ^ s.get F.ADC_FBUFCFG_SIZE)
    let test := s.flag F.ADC_TESTSTAT_CONN && !s.adc.testHk
    let c16 := fun n => ofSigned 16 (codeOf codes n)
    let clip := (List.range 24).foldl (fun w n => if clipped (codeOf codes n) then w + 2 ^ n else w) 0
    let ws : List Nat :=
      [s.period % 65536 + 65536 * (j % 512) + (if test then 2 ^ 31 else 0), clip] ++
      (List.range 12).map (fun i => c16 (2 * i) + 65536 * c16 (2 * i + 1)) ++
      [s.windowMask F.CMP_STAT_OUTU + 65536 * s.windowMask F.CMP_STAT_OUTL, s.ctcnt]
    let s1 := { s with adc := { s.adc with
      fring := Sparse.setRun (fun _ => 0) 1 s.adc.fring (16 * idx) (ws.map (BitVec.ofNat 32)) } }
    s1.wrapInc F.ADC_FBUFWP_WP
  else s

/-- One sample instant of the fast group (R296 to R300). The results in `ready` reach the control island in time. -/
def State.fastInstant (s : State) (j : Nat) (codes : List Int) (ready : Nat) : State :=
  let run := fun n => s.adc.acc.map (codeOf · n) ++ [codeOf codes n]
  let s1 := if j = 0 then
      let t := ((List.range 24).filter (ready.testBit ·)).foldl (fun t n => t.fastResult n (run n)) s
      { t with adc := { t.adc with delivered := ready, acc := [], codes := codes, dacSeen := 0 } }
    else
      let n := s.adc.testChan
      { s with adc := { s.adc with
        acc := s.adc.acc ++ [codes], codes := codes, dacSeen := if s.testOn false n then setBit s.adc.dacSeen n true else s.adc.dacSeen } }
  (s1.testTake false (codeOf codes)).fastFrame j codes

/-! ### Housekeeping (R301 to R303) -/

/-- The PU32 value of a housekeeping code (R302). -/
def State.hkValue (s : State) (h code : Nat) : Int :=
  satSigned 32 (roundHalfAway (((code : Int) - s.getS F.ADC_HCFG_OFFS h : Int) * s.getS F.ADC_HSCALE_SCALE h / 64))

/-- Give housekeeping channel `h` its value of the scan, or none (R42, R302). -/
def State.feedHk (s : State) (h : Nat) (m : Option Int) : State :=
  let q := (s.hkQ h).feed m (pu32of16 (s.getS F.ADC_HCFG_SUB h)) (s.get F.ADC_HCFG_TO h)
  ((s.setHkQ h q).putB F.ADC_HRES_INVALID (!q.ok) h).putS F.ADC_HRES_VALUE (roundHalfAway (mkRat q.val 65536)) h

/-- Channels that the scan list names, each once. -/
def State.hkChans (s : State) : List Nat :=
  (List.range 32).filter fun h => (List.range (s.get F.ADC_HKCFG_NENT)).any fun e => s.get F.ADC_HKENT_CHAN e == h

/-- Every channel of the scan is without a value. -/
def State.hkInvalid (s : State) : State := s.hkChans.foldl (fun t h => t.feedHk h none) s

/-- A scan starts at a boundary that is a multiple of SCANDIV, unless one still runs (R301, R302). -/
def State.hkStart (s : State) : State :=
  let d := s.get F.ADC_HKCFG_SCANDIV
  if d = 0 ∨ s.period % d ≠ 0 then s
  else if s.flag F.ADC_STAT_HKBUSY then s.pulse Ev.HK_TO
  else
    let s1 := (s.put F.ADC_STAT_HKBUSY 1).put F.ADC_STAT_HKPWR 1
    { s1 with adc := { s1.adc with
      hkStart := s.period, hkScan := s.adc.hkScan + 1, hkNext := 0, hkBad := false, hkLost := false, hkGot := [] } }

/-- The last conversion of a scan: its results become the newest complete scan, the last entry of a channel winning (R302). -/
def State.hkCommit (s : State) : State :=
  let s1 := (s.put F.ADC_STAT_HKBUSY 0).put F.ADC_STAT_HKPWR 0
  if s.adc.hkLost then s1
  else if s.adc.hkBad then s1.hkInvalid
  else s1.hkChans.foldl (fun t h =>
    match s.adc.hkGot.reverse.find? (fun x => x.1 == h) with
    | some (_, code, ok) =>
      (t.feedHk h (if ok && !s.testOn true h then some (s.hkValue h code) else none)).put F.ADC_HRES_CODE code h
    | none => t.feedHk h none) s1

/-- One entry of the housekeeping ring (R303). -/
def State.hkFrame (s : State) (entry chan code : Nat) (rangeFail : Bool) : State :=
  if s.flag F.ADC_CTRL_HKBUFEN then
    let wp := s.get F.ADC_HKBUFWP_WP
    let idx := wp % (1024 * 2 ^ s.get F.ADC_HKBUFCFG_SIZE)
    let w0 := (s.adc.hkStart % 65536) * 65536 + (s.adc.hkScan % 256) * 256 + (if s.adc.hkBad || s.adc.hkLost then 128 else 0) +
      (if s.testOn true chan then 64 else 0) + (if rangeFail then 32 else 0) + chan
    let ws : List Word := [BitVec.ofNat 32 w0, BitVec.ofNat 32 (code + 65536 * entry)]
    let s1 := { s with adc := { s.adc with hring := Sparse.setRun (fun _ => 0) 1 s.adc.hring (2 * idx) ws } }
    s1.wrapInc F.ADC_HKBUFWP_WP
  else s

/-- A conversion of the scan completes with the multiplexer address read back (R302). -/
def State.hkConvert (s : State) (entry chan code : Nat) : State :=
  if s.flag F.ADC_STAT_HKBUSY && entry == s.adc.hkNext && entry < s.get F.ADC_HKCFG_NENT then
    let wrong := chan != s.get F.ADC_HKENT_CHAN entry
    let s1 := if wrong then { s.pulse Ev.HK_SEQ entry with adc := { s.adc with hkBad := true } } else s
    let ch := s.get F.ADC_HKENT_CHAN entry
    let ok := s.inPu16 F.ADC_HLIM_MIN F.ADC_HLIM_MAX ch (s.hkValue ch code)
    let s2 := if ok then s1 else s1.pulse Ev.HK_RANGE ch code
    let s3 := (if s.adc.testChan = ch then s2.testTake true fun _ => code else s2).hkFrame entry ch code (!ok)
    let s4 := { s3 with adc := { s3.adc with hkNext := entry + 1, hkGot := s3.adc.hkGot ++ [(ch, code, ok && !s.testOn true ch)] } }
    if entry + 1 = s.get F.ADC_HKCFG_NENT then s4.hkCommit else s4
  else s

/-- The converter is done with a scan: it powers down. -/
def State.hkOff (s : State) : State := (s.put F.ADC_STAT_HKBUSY 0).put F.ADC_STAT_HKPWR 0

/-- A conversion whose word fails parity on its way to the control island: it is discarded, and the scan goes on without it (R35). A scan
whose last result is lost waits for it until SCANTO (R302). -/
def State.hkLostWord (s : State) (entry : Nat) : State :=
  if s.flag F.ADC_STAT_HKBUSY && entry == s.adc.hkNext && entry < s.get F.ADC_HKCFG_NENT then
    let s1 := s.xingBad
    let s2 := { s1 with adc := { s1.adc with hkNext := entry + 1 } }
    if entry + 1 = s.get F.ADC_HKCFG_NENT then { s2.hkOff with adc := { s2.adc with hkWait := true } } else s2
  else s

/-- SCANTO passes with the scan incomplete: the whole scan is invalid (R302). -/
def State.hkTimeout (s : State) : State :=
  let s1 := (s.pulse Ev.HK_TO).hkInvalid
  if s.adc.hkWait then { s1 with adc := { s1.adc with hkWait := false } }
  else if s.flag F.ADC_STAT_HKBUSY && !s.adc.hkLost then
    { s1 with adc := { s1.adc with hkLost := true } }
  else s

/-! ### Comparators (R304, R306, R307) -/

/-- Hysteresis of a window in threshold codes (R306): the code step and the hysteresis follow the range alike. -/
def hystCodes (h : Nat) : Nat := if h = 0 then 0 else 2 ^ (h - 1)

/-- Input of a window's comparators in µV: the test DAC's voltage while it stands on the channel, else the voltage at the balls (R304). -/
def State.windowIn (s : State) (w : Nat) : Int :=
  let n := s.get F.CMP_CFG_CHAN w
  if s.testOn false n then ((s.adc.testCode : Int) - 512) * 10000 else Sparse.get (fun _ => 0) s.pins.vin n

/-- Voltage in µV, times 2^FSR, that a threshold code stands for (R306). -/
def codeMicro (t : Int) : Int := (t - 512) * 10000

/-- The raw output that the input forces, none inside the comparator's hysteresis band (R307). -/
def State.compares (s : State) (w : Nat) (upper : Bool) : Option Bool :=
  let v := s.windowIn w * 2 ^ s.get F.ADC_FCFG_FSR (s.get F.CMP_CFG_CHAN w)
  let h := codeMicro (512 + hystCodes (s.get F.CMP_CFG_HYST w))
  let hi := codeMicro (s.get F.CMP_THR_UTH w)
  let lo := codeMicro (s.get F.CMP_THR_LTH w)
  if upper then (if hi < v then some true else if v < hi - h then some false else none)
  else if v < lo then some true else if lo + h < v then some false else none

/-- Longest span in CT that the filter of a window looks back: 9 samples of 256 clocks, the synchroniser and the crossing (R308). -/
def rawSpan : Nat := 9 * 256 * 6 + 27

/-- Set a raw output, and keep when it changed. -/
def State.setRaw (s : State) (w : Nat) (upper level : Bool) : State :=
  let f := if upper then F.CMP_STAT_RAWU else F.CMP_STAT_RAWL
  if s.flag f w = level then s
  else
    let k := 2 * w + upper.toNat
    let l := Sparse.get (fun _ => []) s.adc.rawHist k
    let recent := fun x : Nat × Bool => decide (s.ct ≤ x.1 + rawSpan)
    let kept := (s.ct, level) :: (l.takeWhile recent ++ (l.dropWhile recent).take 1)
    let t := s.putB f level w
    { t with adc := { t.adc with rawHist := Sparse.set (fun _ => []) t.adc.rawHist k kept } }

/-- A comparator follows its input; the bands lie apart, so the other one of the window is then deasserted (R306, R307). -/
def State.evalComp (s : State) (w : Nat) (upper : Bool) : State :=
  match s.compares w upper with
  | some true => (s.setRaw w upper true).setRaw w (!upper) false
  | some false => s.setRaw w upper false
  | none => s

/-- Both comparators of an enabled window follow its input. Only one may stay asserted (R306, R309): where the bands touch and the input
lies on that point, the model keeps the upper one (DESIGN CHOICE, log 83). -/
def State.evalWindow (s : State) (w : Nat) : State :=
  if s.flag F.CMP_CFG_EN w then
    let t := (s.evalComp w false).evalComp w true
    if t.flag F.CMP_STAT_RAWU w then t.setRaw w false false else t
  else s

/-- Every window follows its input again. -/
def State.evalWindows (s : State) : State := (List.range 16).foldl State.evalWindow s

/-! ### The test DAC (R304, R305) -/

/-- A window that a trip line, IBUSWIN or a chopper depends on (R304, R312). -/
def State.windowNamed (s : State) (w : Nat) : Bool :=
  (List.range 8).any (fun t => s.flag F.LVS_TRIPCFG_EN t &&
    (s.get F.LVS_TRIPCFG_SRC t == 0x11 + w || s.get F.LVS_TRIPCFG_SRC t == 0x21 + w)) ||
  s.get F.GDI_CFG_IBUSWIN == w ||
  (List.range 2).any (fun c => s.get F.LVS_CHOPCFG_MODE c != 0 && s.get F.LVS_CHOPCFG_WIN c == w)

/-- Fast channel of LVS_GCFG.VBSRC. -/
def State.vbChan (s : State) : Nat := s.get F.LVS_GCFG_VBSRC - 0x800

/-- The connection is refused with STATE: the channel guards a stage that is not held low (R304). -/
def State.testRefused (s : State) (hk : Bool) (chan : Nat) : Bool :=
  !hk && s.get F.LVS_STAT_LOW != 2 ^ 18 - 1 &&
  (chan == s.vbChan || (List.range 16).any fun w => s.get F.CMP_CFG_CHAN w == chan && s.windowNamed w)

/-- The DAC is connected to a channel at a code, unless a check runs, and the windows on it follow (R304). -/
def State.testConn (s : State) (hk : Bool) (chan code : Nat) : State :=
  if s.adc.testRun then s
  else
    let s1 := s.put F.ADC_TESTSTAT_CONN 1
    State.evalWindows { s1 with adc := { s1.adc with testHk := hk, testChan := chan, testCode := code } }

/-- GO: the DAC is connected and the automatic check starts, unless one runs (R305). -/
def State.testGo (s : State) (hk : Bool) (chan code : Nat) : State :=
  if s.adc.testRun then s
  else
    let s1 := (((s.testConn hk chan code).put F.ADC_TESTSTAT_DONE 0).put F.ADC_TESTSTAT_PASS 0).put F.ADC_TESTSTAT_MEAN 0
    { s1 with adc := { s1.adc with testRun := true, testAt := s.ct, testGot := [] } }

/-- STOP: the DAC is disconnected, a check in progress ends with DONE = 0 (R305), and the windows follow the balls again. -/
def State.testStop (s : State) : State :=
  let s1 := if s.adc.testRun then s.put F.ADC_TESTSTAT_DONE 0 else s
  let s2 := s1.put F.ADC_TESTSTAT_CONN 0
  State.evalWindows { s2 with adc := { s2.adc with testRun := false } }

/-- The code a check expects (R305). -/
def State.testExpect (s : State) : Int :=
  if s.adc.testHk then (s.adc.testCode : Int) * 4
  else satSigned 16 (((s.adc.testCode : Int) - 512) * 64 * 2 ^ s.get F.ADC_FCFG_FSR s.adc.testChan)

/-- The mean code of the check, rounded as R193 rounds. -/
def State.testMean (s : State) : Int := roundHalfAway (mkRat (sumI s.adc.testGot) 16)

/-- The check has its 16 results, and their mean is compared with the expected code (R305). -/
def State.testDone (s : State) : State :=
  if s.adc.testRun && s.adc.testGot.length == 16 then
    let mean := s.testMean
    let pass := decide ((mean - s.testExpect).natAbs ≤ s.get F.ADC_TESTTOL_TOL)
    let s1 := ((s.put F.ADC_TESTSTAT_DONE 1).putB F.ADC_TESTSTAT_PASS pass).put F.ADC_TESTSTAT_MEAN (ofSigned 16 mean)
    let s2 := { s1 with adc := { s1.adc with testRun := false } }
    if pass then s2 else s2.pulse Ev.ADC_TEST s.adc.testChan (ofSigned 32 mean)
  else s

/-! ### Windows (R306 to R311) -/

/-- The choppers that name window `w` follow a change of its upper or lower output (R267). -/
def State.chopWindow (s : State) (w : Nat) (upper level : Bool) (c : Nat) : State :=
  let n := 16 + c
  let x := s.chan n
  let mode := s.get F.LVS_CHOPCFG_MODE c
  if s.get F.LVS_CHOPCFG_WIN c ≠ w ∨ !level then s
  else if mode = 1 then
    if x.chopHold || x.raw == upper then s.setChan n { x with chopWin := upper }
    else
      (s.setChan n { x with chopWin := upper, raw := upper, chopHold := s.get F.LVS_CHOPCFG_TONMIN c != 0 }).refresh n
  else if mode = 2 then (s.setChan n { x with ovr := upper }).refresh n
  else s

/-- Set one filtered output of a window: latch, capture, count, event and choppers (R310, R311). -/
def State.setWindow (s : State) (w : Nat) (upper level : Bool) : State :=
  let out := if upper then F.CMP_STAT_OUTU else F.CMP_STAT_OUTL
  let lat := if upper then F.CMP_STAT_LATU else F.CMP_STAT_LATL
  let ev := (if upper then Ev.CMP_U0 else Ev.CMP_L0) + w
  if s.flag out w = level then s
  else
    let s1 := s.putB out level w
    let s2 := if level || s.get F.CMP_CFG_LATCH w = 0 then s1.putB lat level w else s1
    if level then
      let s3 := if upper then (s2.put F.CMP_CAPU_CT s2.ctcnt w).errInc F.CMP_CNT_UCNT (1439 + w) w
        else (s2.put F.CMP_CAPL_CT s2.ctcnt w).errInc F.CMP_CNT_LCNT (1455 + w) w
      let s4 := s3.raise ev 0 (ofSigned 32 (codeOf s3.adc.codes (s3.get F.CMP_CFG_CHAN w)))
      (s4.chopWindow w upper level 0).chopWindow w upper level 1
    else s2.clearAct ev

/-- EN of a window has become 1: its hysteresis states are preset to INITSTATE, which an input outside a band overrides, and its settling
begins (R309). -/
def State.presetWindow (s : State) (w : Nat) : State :=
  let s1 := (s.put F.CMP_STAT_RAWU (s.get F.CMP_CFG_INITU w) w).put F.CMP_STAT_RAWL (s.get F.CMP_CFG_INITL w) w
  State.evalWindow { s1 with adc := { s1.adc with winReady := setBit s1.adc.winReady w false } } w

/-- EN of a window has become 0: it is powered down and both outputs read deasserted (R309). -/
def State.closeWindow (s : State) (w : Nat) : State :=
  let s1 := ((s.setWindow w true false).setWindow w false false).setRaw w true false
  let s2 := s1.setRaw w false false
  { s2 with adc := { s2.adc with winReady := setBit s2.adc.winReady w false } }

/-- The raw outputs of a window fill its filter histories. -/
def State.fillHist (s : State) (w : Nat) : State :=
  let put := fun (l : Sparse (List (Nat × Bool))) (k : Nat) (b : Bool) => Sparse.set (fun _ => []) l k [(s.ct, b)]
  { s with adc := { s.adc with
    winReady := setBit s.adc.winReady w true, winAt := Sparse.set (fun _ => 0) s.adc.winAt w s.ct
    rawHist := put (put s.adc.rawHist (2 * w) (s.flag F.CMP_STAT_RAWL w)) (2 * w + 1) (s.flag F.CMP_STAT_RAWU w) } }

/-- The settling of a window ends: its filter takes the raw states (R309). -/
def State.settleWindow (s : State) (w : Nat) : State :=
  if s.flag F.CMP_CFG_EN w && !s.adc.winReady.testBit w then
    let s1 := (s.evalWindow w).fillHist w
    (s1.setWindow w true (s1.flag F.CMP_STAT_RAWU w)).setWindow w false (s1.flag F.CMP_STAT_RAWL w)
  else s

/-- The input of a window's channel reaches a comparator at `v` µV, and the raw output follows it (R307). -/
def State.rawWindow (s : State) (w : Nat) (upper : Bool) (v : Int) : State :=
  let t := { s with pins := { s.pins with vin := Sparse.set (fun _ => 0) s.pins.vin (s.get F.CMP_CFG_CHAN w) v } }
  if s.flag F.CMP_CFG_EN w then t.evalComp w upper else t

/-- The raw output of a comparator at a control tick: before the first change kept, what it was then. -/
def State.compAt (s : State) (w : Nat) (upper : Bool) (t : Nat) : Bool :=
  let l := Sparse.get (fun _ => []) s.adc.rawHist (2 * w + upper.toNat)
  match l.find? (fun x => decide (x.1 ≤ t)) with
  | some x => x.2
  | none => (l.getLast?.map (·.2)).getD false

/-- M and N of CMP_CFGw.MAJ (R308). -/
def majority (maj : Nat) : Nat × Nat := if maj = 0 then (1, 1) else (2 * maj + 1, 2 * maj + 3)

/-- The last N samples of a comparator that its filter holds for an output arriving now, newest first. Samples fall every SINT + 1
sequencer clocks of 6 CT from the end of the settling on, each of the raw output 2 clocks earlier; the output is registered one clock
after its sample and crosses in 9 CT (R308, R311). A change of SINT or MAJ acts on all of them (DESIGN CHOICE, log 83). -/
def State.windowSamples (s : State) (w : Nat) (upper : Bool) : List Bool :=
  let step := 6 * (s.get F.CMP_CFG_SINT w + 1)
  let t0 := Sparse.get (fun _ => 0) s.adc.winAt w
  let newest := t0 + (s.ct - 15 - t0) / step * step
  (List.range (majority (s.get F.CMP_CFG_MAJ w)).2).map fun i => s.compAt w upper (newest - i * step - 12)

/-- At least M of the last N samples of a comparator show a state (R308). -/
def State.filterShows (s : State) (w : Nat) (upper level : Bool) : Bool :=
  decide ((majority (s.get F.CMP_CFG_MAJ w)).1 ≤ (s.windowSamples w upper).count level)

/-- A window's filtered output changes, where its samples show the new state (R308). -/
def State.filtWindow (s : State) (w : Nat) (upper level : Bool) : State :=
  if s.flag F.CMP_CFG_EN w && s.adc.winReady.testBit w && s.filterShows w upper level then s.setWindow w upper level else s

/-- At each boundary period-mode latches of deasserted outputs clear (R310). -/
def State.windowBoundary (s : State) : State :=
  (List.range 16).foldl (fun t w =>
    if t.get F.CMP_CFG_LATCH w = 1 then
      let t1 := if t.flag F.CMP_STAT_OUTU w then t else t.put F.CMP_STAT_LATU 0 w
      if t1.flag F.CMP_STAT_OUTL w then t1 else t1.put F.CMP_STAT_LATL 0 w
    else t) s

/-! ### The always-on comparators (R313) -/

/-- CMP_AONCFGa in force in the always-on domain. -/
def State.aonCfg (s : State) (a : Nat) : Word := Sparse.get (fun _ => 0) s.aon.cmpCfg a

/-- A setting reaches the always-on domain; a comparator that is not enabled is not asserted (R313). -/
def State.setAonCfg (s : State) (a : Nat) (w : Word) : State :=
  { s with aon := { s.aon with
    cmpCfg := Sparse.set (fun _ => 0) s.aon.cmpCfg a w
    out := if w.getLsbD 7 then s.aon.out else setBit s.aon.out a false } }

/-- An enabled always-on comparator. -/
def State.aonEn (s : State) (a : Nat) : Bool := (s.aonCfg a).getLsbD 7

/-- AON_WAKE (R313). -/
def State.aonWake (s : State) : Bool :=
  (List.range 4).any (fun a => s.aonEn a && s.aon.out.testBit a) ||
  (s.pins.coreGood && (List.range 16).any (fun w =>
    (s.flag F.CMP_CFG_WAKEU w && s.flag F.CMP_STAT_OUTU w) || (s.flag F.CMP_CFG_WAKEL w && s.flag F.CMP_STAT_OUTL w))) ||
  s.flag F.CMP_WAKECTL_HOLD

/-- Threshold in mV of an always-on comparator. -/
def aonThr (cfg : Word) : Nat := 200 + 25 * fieldGet cfg F.CMP_AONCFG_THR.hi F.CMP_AONCFG_THR.lo

/-- What a strobe at `v` mV shows of an always-on comparator whose output is `cur` (R313): it asserts beyond the threshold and deasserts
25 mV to the other side of it, as R307 gives for a window (DEDUCED, log 83). -/
def aonStrobe (cfg : Word) (cur : Bool) (v : Nat) : Bool :=
  if cfg.getLsbD F.CMP_AONCFG_POL.lo then (if cur then decide (aonThr cfg ≤ v + 25) else decide (aonThr cfg < v))
  else if cur then decide (v ≤ aonThr cfg + 25) else decide (v < aonThr cfg)

/-- Three consecutive strobes of an always-on comparator: its output changes where all agree. The first to assert is the cause, and
EV_AON_WAKE comes in RUN (R313). -/
def State.aonChange (s : State) (a : Nat) (strobes : List Nat) : State :=
  let cur := s.aon.out.testBit a
  let level := !cur
  if s.aonEn a && strobes.all (fun v => aonStrobe (s.aonCfg a) cur v == level) then
    let s1 := { s with aon := { s.aon with out := setBit s.aon.out a level } }
    if level && s.aon.cause == 0 then
      let s2 := { s1 with aon := { s1.aon with cause := 2 ^ a } }
      if s.get F.SEC_STATE_HSTATE = 2 then s2.pulse Ev.AON_WAKE a else { s2 with aon := { s2.aon with wake := true } }
    else s1
  else s

end Sys2Proof.Machine
end

