-- ==== Sys2Proof/Machine/AcqPages.lean ====
section
/-! DEFINITION. The capture memory: pages, records, the directory, eviction, headers, and the shared window (R403 to R411). -/

namespace Sys2Proof.Machine

/-- Data bytes of a page (R403). -/
def pageData : Nat := 2097088

/-- Start of a page in the capture memory. -/
def pageBase (p : Nat) : Nat := p * 2 ^ 21

def State.page (s : State) (p : Nat) : Page := Sparse.get (fun _ => {}) s.acq.pages p
def State.setPage (s : State) (p : Nat) (x : Page) : State :=
  { s with acq := { s.acq with pages := Sparse.set (fun _ => {}) s.acq.pages p x } }
def State.recEntry (s : State) (e : Nat) : Option Record := Sparse.get (fun _ => none) s.acq.recs e
def State.setRec (s : State) (e : Nat) (r : Option Record) : State :=
  { s with acq := { s.acq with recs := Sparse.set (fun _ => none) s.acq.recs e r } }
def State.rcr (s : State) (k : Nat) : Recorder := Sparse.get (fun _ => {}) s.acq.rcs k
def State.setRcr (s : State) (k : Nat) (x : Recorder) : State :=
  { s with acq := { s.acq with rcs := Sparse.set (fun _ => {}) s.acq.rcs k x } }
def Record.stream (r : Record) (st : Nat) : Stream := Sparse.get (fun _ => {}) r.streams st
def Record.setStream (r : Record) (st : Nat) (t : Stream) : Record :=
  { r with streams := Sparse.set (fun _ => {}) r.streams st t }

/-- A page of the pool that nothing holds (R403). -/
def Page.isFree (p : Page) : Bool := p.owner.isNone && !p.retired && p.mapKind == 0 && !p.host

/-- Of a number of pages those that have joined the pool: none before the DRAM is wiped (R116), and until its final wipe not the staging
region (R112, R403), 64 MiB (the worked example of R112) and so 32 pages. -/
def State.inPool (s : State) (n : Nat) : Nat := if s.boot.dramDone then n - (if s.boot.stagingDone then 0 else 32) else 0

/-- Pages free now: ACQ_STAT.FREE. -/
def State.freePages (s : State) : Nat := s.inPool ((List.range 4096).filter fun p => (s.page p).isFree).length

/-- Pages of the pool: all but the retired ones and the map pages (R403). -/
def State.poolPages (s : State) : Nat :=
  s.inPool ((List.range 4096).filter fun p => !(s.page p).retired && (s.page p).mapKind == 0).length

/-- Directory entries in use. -/
def State.recList (s : State) : List (Nat × Record) := s.acq.recs.filterMap fun x => x.2.map (x.1, ·)

/-- Data pages of a record in stream and SEQ order. -/
def Record.dataPages (r : Record) : List (Nat × Nat) := r.streams.flatMap fun x => x.2.pages.map (x.1, ·)

/-- Every page a record holds. -/
def Record.allPages (r : Record) : List Nat :=
  r.page :: r.streams.flatMap fun x => x.2.pages ++ x.2.spare

/-- A page that R406 protects. -/
def State.pageProtected (s : State) (p : Nat) : Bool :=
  match (s.page p).owner with
  | none => (s.page p).host
  | some e =>
    (s.page p).host || match s.recEntry e with
      | some r => r.opened || r.prot || (s.page r.page).host
      | none => false

/-- Protected pages: ACQ_POOL.PROT. -/
def State.protPages (s : State) : Nat := ((List.range 4096).filter s.pageProtected).length

/-- Pages free or evictable (R407). -/
def State.loosePages (s : State) : Nat :=
  ((List.range 4096).filter fun p => let x := s.page p
    x.isFree || (x.owner.isSome && !x.retired && !s.pageProtected p)).length

/-- RECID order by signed difference (R405). -/
def recidBefore (a b : Nat) : Bool := decide (toSigned 32 (a + 2 ^ 32 - b % 2 ^ 32) < 0)

/-- The entry with the lowest RECID among those that pass a test. -/
def State.oldest (s : State) (ok : Record → Bool) : Option (Nat × Record) :=
  s.recList.foldl (fun b x =>
    if ok x.2 then match b with
      | none => some x
      | some y => if recidBefore x.2.recid y.2.recid then some x else b
    else b) none

/-- A record from which a page can be evicted (R406). -/
def State.evictable (s : State) (r : Record) : Bool :=
  r.listed && !r.opened && !r.prot && !(s.page r.page).host &&
  (r.dataPages.isEmpty || r.dataPages.any fun x => !(s.page x.2).host)

/-! ### Headers (R403, R404) -/

/-- A page header. -/
def pageHeader (p recid stream flags seq next bytes row0 : Nat) : List Byte :=
  let b := [0x4C, 0x59, 0x50, 0x47] ++ leBytes 4 recid ++ leBytes 2 p ++ leBytes 1 stream ++ leBytes 1 flags ++
    leBytes 4 seq ++ leBytes 2 next ++ leBytes 2 0 ++ leBytes 4 bytes ++ leBytes 8 row0 ++ List.replicate 28 0
  b ++ leBytes 4 (crc32c b)

/-- Write into a page, unless the host owns it: the engine never rewrites such a page (R411). -/
def State.pagePut (s : State) (p ofs : Nat) (bs : List Byte) : State := if (s.page p).host then s else s.dramPut (pageBase p + ofs) bs

/-- Write the page headers of one stream. -/
def State.writeStream (s : State) (recid st : Nat) (t : Stream) : State :=
  let n := t.pages.length
  t.pages.zipIdx.foldl (fun u x =>
    let pg := u.page x.1
    let flags := (if x.2 + 1 = n then 1 else 0) + (if pg.ring then 2 else 0)
    u.pagePut x.1 0 (pageHeader x.1 recid st flags pg.seq (t.pages.getD (x.2 + 1) 0xFFFF) pg.bytes pg.row0)) s

/-- The flag word of a record header. -/
def Record.flags (r : Record) : Nat :=
  (if r.complete then 1 else 0) + (if r.tcause != 0 then 2 else 0) + (if r.prot then 4 else 0) +
  (if r.calChg.isSome then 8 else 0) + (if r.inCal then 16 else 0) + (if r.shortPre then 32 else 0) + 256 * r.tcause

/-- The record header of R404. -/
def Record.header (r : Record) (p ns : Nat) : List Byte :=
  let b := [0x4C, 0x59, 0x52, 0x43] ++ leBytes 2 1 ++ leBytes 2 r.src ++ leBytes 4 r.recid ++ leBytes 4 r.flags ++
    leBytes 8 r.period ++ leBytes 4 r.pos.toNat ++ leBytes 4 r.cond.toNat ++ leBytes 8 r.time ++
    leBytes 4 r.preRows ++ leBytes 4 r.postRows ++ leBytes 4 r.chMask ++
    leBytes 2 (fieldGet r.vch 9 0) ++ leBytes 2 (fieldGet r.vch 26 16) ++ leBytes 4 r.red.toNat ++
    leBytes 4 (r.calChg.getD 0) ++
    ((List.range 8).flatMap fun st => let t := r.stream st
      leBytes 2 (t.pages.headD 0xFFFF) ++ leBytes 2 (t.pages.length + t.evicted) ++ leBytes 8 t.rows ++
      leBytes 2 t.rowBytes ++ leBytes 2 t.evicted) ++
    ((List.range 24).flatMap fun n => let c := r.chan.getD n (0, 0, 0)
      leBytes 2 c.1.toNat ++ leBytes 1 c.2.1 ++ [0] ++ leBytes 4 c.2.2.toNat) ++
    ((List.range 24).flatMap fun n => leBytes 4 (r.skew.getD n 0).toNat) ++
    ((List.range 8).flatMap fun m => let x := Sparse.get (fun _ => (0, 0)) r.masks m
      leBytes 1 m ++ List.replicate 3 0 ++ leBytes 2 x.1 ++ leBytes 2 x.2) ++
    leBytes 2 p ++ leBytes 2 ns ++ leBytes 8 r.tRow ++ leBytes 8 r.vRow
  let h := padTo 0xFFC b
  h ++ leBytes 4 (crc32c h)

/-- Write every header of a record. -/
def State.writeRecord (s : State) (r : Record) : State :=
  let s1 := r.streams.foldl (fun t x => t.writeStream r.recid x.1 x.2) s
  let s2 := s1.pagePut r.page 0 (pageHeader r.page r.recid 0xF 1 0 0xFFFF 0 0)
  s2.pagePut r.page 0x40 (r.header s.img.per.p s.ns)

/-! ### Taking and freeing pages (R406) -/

/-- Evict one page (R406): its number and the state in which it is free. -/
def State.evictOne (s : State) : Option (Nat × State) :=
  match s.oldest s.evictable with
  | none => none
  | some (e, r) =>
    let s0 := s.errInc F.ACQ_EVCNT_COUNT 1503
    match r.dataPages.find? fun x => !(s.page x.2).host with
    | some (st, p) =>
      let t := r.stream st
      let r1 := { r.setStream st { t with pages := t.pages.filter (· != p), evicted := t.evicted + 1 } with
        complete := false, tcause := 4 }
      let s1 := if r.tcause = 4 then s0 else s0.pulse Ev.ACQ_TRUNC r.src r.recid
      some (p, ((s1.setRec e (some r1)).setPage p {}).writeRecord r1)
    | none => some (r.page, (s0.setRec e none).setPage r.page {})

/-- A free page, or one evicted for it. -/
def State.takePage (s : State) : Option (Nat × State) :=
  match (List.range 4096).find? fun p => (s.page p).isFree with
  | some p => some (p, s)
  | none => s.evictOne

/-- Give back pages. -/
def State.freeList (s : State) (ps : List Nat) : State := ps.foldl (fun t p => t.setPage p {}) s

/-- Delete a record whole. -/
def State.dropRec (s : State) (e : Nat) : State :=
  match s.recEntry e with
  | some r => (s.freeList r.allPages).setRec e none
  | none => s

/-- The host owns a page of a record. -/
def State.recOwned (s : State) (r : Record) : Bool := r.allPages.any fun p => (s.page p).host

/-- A directory entry for a new record; a full directory deletes the oldest unprotected closed record whole (R405). -/
def State.dirSlot (s : State) : Option (Nat × State) :=
  match (List.range 1024).find? fun e => (s.recEntry e).isNone with
  | some e => some (e, s)
  | none => (s.oldest fun r => !r.opened && !r.prot && !s.recOwned r).map fun x => (x.1, s.dropRec x.1)

/-- A new record with its header page, open and not yet listed; none if no entry or no page can be had. The Bool says that
the directory was the reason. -/
def State.newRec (s : State) (r : Record) : Except Bool (Nat × State) :=
  match s.dirSlot with
  | none => .error true
  | some (e, s1) =>
    match s1.takePage with
    | none => .error false
    | some (p, s2) => .ok (e, (s2.setPage p { owner := some e, kind := 0xF }).setRec e (some { r with page := p }))

/-- Give a record its RECID: from now on the directory lists it (R405). -/
def State.listRec (s : State) (e : Nat) : State :=
  match s.recEntry e with
  | some r =>
    if r.listed then s
    else
      let id := s.get F.ACQ_RECID_NEXT
      (s.setRec e (some { r with recid := id, listed := true })).put F.ACQ_RECID_NEXT (id + 1)
  | none => s

/-- Close a record with its cause, 0 when it is complete (R404, R407): the pages it did not fill go back, and its headers are
written. -/
def State.closeRec (s : State) (e cause : Nat) : State :=
  match s.recEntry e with
  | some r =>
    if r.opened then
      let spare := r.streams.flatMap fun x => x.2.spare
      let r1 := { r with
        opened := false, complete := cause == 0, tcause := cause, prot := r.prot || r.protClose
        streams := r.streams.map fun x => (x.1, { x.2 with spare := [] }) }
      let s1 := ((s.freeList spare).setRec e (some r1)).writeRecord r1
      if cause = 0 then s1 else s1.pulse Ev.ACQ_TRUNC r.src r.recid
    else s
  | none => s

/-! ### Rows (R398, R403) -/

/-- Reserve pages of a stream until it has `n` ahead, ring pages before the trigger; the Bool says that no page could be had. -/
def State.reserve (s : State) (e st n : Nat) : State × Bool :=
  match s.recEntry e with
  | none => (s, false)
  | some r =>
    if (r.stream st).spare.length ≥ n then (s, false)
    else match s.takePage with
      | none => (s, true)
      | some (p, s1) =>
        let t := r.stream st
        ((s1.setPage p { owner := some e, kind := st, ring := !r.listed }).setRec e
          (some (r.setStream st { t with spare := t.spare ++ [p] })), false)

/-- A page for the next row of a stream, its ring pages first. -/
def State.streamPage (s : State) (e st : Nat) (r : Record) : Option State :=
  let t := r.stream st
  match t.spare with
  | p :: l => some ((s.setPage p { s.page p with row0 := t.rows, seq := t.pages.length + t.evicted }).setRec e
      (some (r.setStream st { t with spare := l, pages := t.pages ++ [p], inPage := 0 })))
  | [] => match s.takePage with
    | none => none
    | some (p, s1) => some ((s1.setPage p { owner := some e, kind := st, row0 := t.rows, seq := t.pages.length + t.evicted }).setRec e
        (some (r.setStream st { t with pages := t.pages ++ [p], inPage := 0 })))

/-- Write a row behind the last one, in a page that has room. -/
def State.placeRow (s : State) (e st : Nat) (bs : List Byte) : State :=
  match s.recEntry e with
  | none => s
  | some r =>
    let t := r.stream st
    let p := t.pages.getLastD 0
    let s1 := s.dramPut (pageBase p + 0x40 + t.inPage * t.rowBytes) (padTo t.rowBytes bs)
    let s2 := s1.setPage p { s1.page p with bytes := (t.inPage + 1) * t.rowBytes }
    s2.setRec e (some (r.setStream st { t with rows := t.rows + 1, inPage := t.inPage + 1 }))

/-- Write one row of a stream of an open record. If no page can be had the record closes as truncated with cause NOPAGE
(R407). -/
def State.pushRow (s : State) (e st : Nat) (bs : List Byte) : State :=
  match s.recEntry e with
  | none => s
  | some r =>
    let t := r.stream st
    if !r.opened || t.rowBytes == 0 then s
    else if t.pages.isEmpty || t.inPage ≥ pageData / t.rowBytes then
      match s.streamPage e st r with
      | some s1 => s1.placeRow e st bs
      | none => (s.pulse Ev.ACQ_NOPAGE r.src st).closeRec e 1
    else s.placeRow e st bs

/-! ### The directory and the window (R405, R411) -/

/-- Word 1 of a directory entry. -/
def Record.dirWord (r : Record) : Nat :=
  2 ^ 31 + (if r.opened then 2 ^ 30 else 0) + (if r.tcause != 0 then 2 ^ 29 else 0) + (if r.prot then 2 ^ 28 else 0) +
  r.src % 32 * 2 ^ 23 + r.page

/-- What ACQ_DIR shows. -/
def State.dirRead (s : State) (e w : Nat) : Word :=
  match s.recEntry e with
  | some r => if r.listed then BitVec.ofNat 32 (if w = 0 then r.recid else r.dirWord) else 0
  | none => 0

/-- The record that carries a RECID. -/
def State.findRec (s : State) (id : Nat) : Option (Nat × Record) :=
  s.recList.find? fun x => x.2.listed && x.2.recid == id % 2 ^ 32

/-- A change that would leave fewer than MINFREE pages free or evictable is refused (R407). -/
def State.guardFree (s t : State) : State × Code :=
  if t.loosePages < s.get F.ACQ_CFG_MINFREE then (s, .state) else (t, .ok)

/-- ACQ_DIRCTL (R405, R412): protect, unprotect, delete; a RECID that names no record returns STATE. -/
def State.dirControl (s : State) (cmd : Nat) : State × Code :=
  if cmd = 0 then (s, .ok)
  else match s.findRec (s.get F.ACQ_DIRARG_RECID) with
    | none => (s, .state)
    | some (e, r) =>
      if cmd = 1 then
        if r.opened then (s.setRec e (some { r with protClose := true }), .ok)
        else
          let r1 := { r with prot := true }
          s.guardFree ((s.setRec e (some r1)).writeRecord r1)
      else if cmd = 2 then
        let r1 := { r with prot := false, protClose := false }
        (if r.opened then s.setRec e (some r1) else (s.setRec e (some r1)).writeRecord r1, .ok)
      else if r.opened || s.recOwned r then (s, .state) else (s.dropRec e, .ok)

/-- RECID shown for a page. -/
def State.pageRecid (s : State) (p : Nat) : Nat :=
  match (s.page p).owner with
  | some e => ((s.recEntry e).map Record.recid).getD 0
  | none => 0

/-- Give up what a slot owns; the page stays owned while another slot shows it. -/
def State.releaseSlot (s : State) (n : Nat) : State :=
  if s.flag F.ACQ_WMAP_OWN n then
    let p := s.get F.ACQ_WMAP_PAGE n
    let s1 := s.put F.ACQ_WMAP_OWN 0 n
    if (List.range 32).any fun m => s1.flag F.ACQ_WMAP_OWN m && s1.get F.ACQ_WMAP_PAGE m == p then s1
    else s1.setPage p { s1.page p with host := false }
  else s

/-- A page the host may claim (R411). -/
def State.claimable (s : State) (p : Nat) : Bool :=
  let x := s.page p
  x.mapKind != 1 && !x.retired && (x.mapKind == 2 ||
    match x.owner with
    | some e => match s.recEntry e with
      | some r => !r.opened
      | none => false
    | none => false)

/-- Write ACQ_WMAPs (R411). -/
def State.wmapWrite (s : State) (n : Nat) (own : Bool) (p : Nat) : State × Code :=
  if own then
    if s.claimable p then
      let s1 := s.releaseSlot n
      let t := ((s1.setPage p { s1.page p with host := true }).put F.ACQ_WMAP_OWN 1 n).put F.ACQ_WMAP_PAGE p n
      if (s.page p).mapKind = 2 then (t, .ok) else s.guardFree t
    else (s, .state)
  else ((s.releaseSlot n).put F.ACQ_WMAP_PAGE p n, .ok)

/-- A word of the shared window; none: the slot is not owned. -/
def State.windowWord (s : State) (ofs : Nat) : Option Word :=
  let n := ofs / 2 ^ 21
  if s.flag F.ACQ_WMAP_OWN n then
    some (BitVec.ofNat 32 (leValue (s.dramGet (pageBase (s.get F.ACQ_WMAP_PAGE n) + ofs % 2 ^ 21 / 4 * 4) 4)))
  else none

end Sys2Proof.Machine
end

