-- ==== Sys2Proof/Machine/AcqOps.lean ====
section
/-! DEFINITION. The recorders, masks, maps, calibration and trace channels (R213, R214, R392 to R402, R408 to R410). -/

namespace Sys2Proof.Machine

/-! ### Channels (R392 to R396) -/

/-- Entry of ACQ_VCH. -/
def State.vch (s : State) (i : Nat) : Word := s.rd (F.ACQ_VCH_WORD.addr i)

/-- The entry names a channel in use (R393). -/
def State.vUsed (s : State) (i : Nat) : Bool := (s.vch i).getLsbD 31

/-- The value of a V instance for one cell, with its validity. -/
def State.vValue (s : State) (n c : Nat) : Int × Bool :=
  let e := (s.cell c).eng
  let t := s.instType n
  if t = tCAPOBS then (e.vhat, (s.cell c).vcap.ok)
  else if t = tFLUXOBS then ((pu32 (q62 e.ff)).1, (s.cell c).flux.ok && (s.cell c).vcap.ok)
  else if t = tHSHARE then (e.duty, !s.ce.bad.contains n)
  else (e.pNext, !s.ce.bad.contains n)

/-- A source at the end of the compute window; `c` selects the cell of a V instance (R197, R213, R393). -/
def State.nodeValue (s : State) (code c : Nat) : Int × Bool :=
  if code < 0x800 ∧ code < s.ninst ∧ isV (s.instType code) then s.vValue code c else s.srcNow code

/-- A virtual channel's sample of this period and its validity (R393). One that is not in use has no sample, and its flag bit reads 0
(DESIGN CHOICE, log 84). -/
def State.vSample (s : State) (i : Nat) : Int × Bool :=
  let w := s.vch i
  let c := fieldGet w 24 16
  if !s.vUsed i then (0, true)
  else if fieldGet w 30 29 = 0 then
    let m := ((s.cell c).heard.getD (fieldGet w 14 12) 0).toNat
    (toSigned 16 (if w.getLsbD 11 then bitsOf m 31 16 else bitsOf m 15 0), (s.cell c).recOk)
  else s.nodeValue (fieldGet w 11 0) c

/-- Bytes of a virtual channel's sample (R393): none of a channel that is not in use (DESIGN CHOICE, log 84). -/
def State.vBytes (s : State) (i : Nat) : Nat := if !s.vUsed i then 0 else if fieldGet (s.vch i) 30 29 = 0 then 2 else 4

/-- FD of a channel from its skew (R394); the Bool says that it was clamped. -/
def fdOf (skew ofs : Int) : Int × Bool :=
  let z := roundHalfAway (mkRat (skew - ofs) 50)
  let c := clampI (-4000) 4000 z
  (c, c != z)

/-! ### Recorders: set-up (R398) -/

def State.rState (s : State) (k : Nat) : Nat := s.get F.ACQ_RSTAT_STATE k
def State.setRState (s : State) (k n : Nat) : State := s.put F.ACQ_RSTAT_STATE n k

/-- Physical channels of a recorder. -/
def State.rChans (s : State) (k : Nat) : List Nat := (List.range 24).filter (s.get F.ACQ_RCH_CH k).testBit

/-- Virtual channels of a recorder. -/
def State.rVirt (s : State) (k : Nat) : List Nat :=
  (List.range (s.get F.ACQ_RVCH_VCNT k)).map (s.get F.ACQ_RVCH_VFIRST k + ·)

/-- Round up to a multiple of 4. -/
def pad4 (n : Nat) : Nat := (n + 3) / 4 * 4

/-- Bytes a row of stream `st` takes; 0: the recorder does not keep it. -/
def State.rowBytes (s : State) (k st : Nat) : Nat :=
  let n := (s.rChans k).length
  let v := (s.rVirt k).length
  let vb := (s.rVirt k).foldl (fun a i => a + s.vBytes i) 0
  if !(s.get F.ACQ_RCFG_STREAMS k).testBit st then 0
  else if st < 4 then (if n = 0 then 0 else if st = 0 then pad4 (2 * n) else if st = 3 then 4 + 4 * n else 4 * n)
  else if v = 0 then 0
  else if st = 4 then pad4 (4 * ceilDiv v 32 + vb) else if st = 5 then pad4 (2 * vb) else 4 * ((s.rVirt k).filter s.vUsed).length

/-- Periods of a virtual stream for a number of samples. -/
def State.vPeriods (s : State) (n : Nat) : Nat := ceilDiv (n * 120) s.img.per.p

def State.bucketLen (s : State) (k : Nat) : Nat := 2 ^ s.get F.ACQ_RRED_BK k

/-- Ring pages a stream may hold before the trigger (R400). -/
def State.ringMax (s : State) (k st : Nat) : Nat :=
  if s.rowBytes k st = 0 then 0 else ceilDiv (s.get F.ACQ_RPRE_PRE k * s.rowBytes k st) pageData + 1

/-- Ring pages that `n` held samples ask for. -/
def State.ringNeed (s : State) (k st n : Nat) : Nat :=
  let rows := if st = 0 then n else if st < 3 then n / s.bucketLen k
    else if st = 3 then n / 1000 else if st = 4 then s.vPeriods n else s.vPeriods n / s.bucketLen k
  let rb := s.rowBytes k st
  if rb = 0 then 0 else min (s.ringMax k st) (rows / (pageData / rb) + 1)

/-- A record as it opens: the mode and the channel settings in force go into its header (R404). -/
def State.opening (s : State) (r : Record) : Record := { r with
  inCal := s.flag F.ACQ_STAT_MODE
  chan := (List.range 24).map fun n =>
    (s.rd (F.ADC_FOFS_OFFS.addr n) &&& 0xFFFF, s.get F.ADC_FCFG_FSR n, s.rd (F.ADC_FSCALE_SCALE.addr n))
  skew := (List.range 24).map fun n => BitVec.ofNat 32 (s.get F.ACQ_SKEW_SKEW n + 65536 * s.get F.ACQ_FD_FD n) }

/-- The record that a recorder prepares at ARM: its set-up (R404). It opens at its trigger. -/
def State.blankRec (s : State) (k : Nat) : Record := {
  src := k, protClose := s.flag F.ACQ_RCFG_KEEP k
  chMask := s.get F.ACQ_RCH_CH k, vch := s.rd (F.ACQ_RVCH_VCNT.addr k), red := s.rd (F.ACQ_RRED_BK.addr k)
  streams := ((List.range 7).filter fun st => s.rowBytes k st != 0).map fun st =>
    (st, ({ rowBytes := s.rowBytes k st } : Stream)) }

/-- Time in ns from a network time to the target of a TIME condition, by signed difference of the low 32 bits (R399). -/
def State.timeLeft (s : State) (k c now : Nat) : Int := toSigned 32 (s.get F.ACQ_RTRG1_ARG k c + 2 ^ 32 - now % 2 ^ 32)

/-- Enabled conditions of a kind. -/
def State.condsOf (s : State) (k kind : Nat) : List Nat :=
  (List.range 4).filter fun c => (s.get F.ACQ_RCOMB_ENA k).testBit c && s.get F.ACQ_RTRG0_KIND k c == kind

/-- TIME conditions whose target has been reached. -/
def State.timesPast (s : State) (k : Nat) : List Nat := (s.condsOf k 5).filter fun c => decide (s.timeLeft k c s.netNow ≤ 0)

/-- A set of conditions as a mask. -/
def condMask (l : List Nat) : Nat := l.foldl (fun m c => setBit m c true) 0

/-- Begin FILL: a header page and a directory entry are taken, and HOLDOFF begins (R399, R400, R405). A TIME condition occurs when its
target is reached, so one that has been reached before does not occur again. -/
def State.beginFill (s : State) (k made : Nat) : Except Bool State :=
  match s.newRec (s.blankRec k) with
  | .error b => .error b
  | .ok (e, t) =>
    .ok ((t.setRcr k { entry := some e, made := made, holdDone := t.get F.ACQ_RHOLD_HOLDOFF k == 0, timesHit := condMask (t.timesPast k) }).setRState k 1)

/-- Ring pages that all streams of a recorder may take. -/
def State.ringTotal (s : State) (k : Nat) : Nat := (List.range 7).foldl (fun a st => a + s.ringMax k st) 0

/-- ARM (R392, R400, R405, R407, R428). -/
def State.armRecorder (s : State) (k : Nat) : State × Code :=
  if s.rState k ≠ 0 then (s, .ok)
  else if s.flag F.ACQ_STAT_SHED then (s, .state)
  else if !(s.rChans k).isEmpty && !s.flag F.ADC_CTRL_FBUFEN then (s, .state)
  else if s.flag F.ACQ_RCFG_KEEP k && s.loosePages < s.get F.ACQ_CFG_MINFREE + s.ringTotal k + 1 then (s, .state)
  else match s.beginFill k 0 with
    | .ok t => (t, .ok)
    | .error _ => (s, .state)

/-! ### Rows -/

/-- Two bytes and four bytes of a signed value. -/
def le16 (z : Int) : List Byte := leBytes 2 (ofSigned 16 z)
def le32 (z : Int) : List Byte := leBytes 4 (ofSigned 32 z)

def minI (l : List Int) : Int := l.foldl min (l.headD 0)
def maxI (l : List Int) : Int := l.foldl max (l.headD 0)

/-- One sample of a cycle detector (R398): the detector after it, whether a cycle starts here, and the detector that the start
ends. -/
def State.cycStep (s : State) (k : Nat) (d : CycDet) (row : List Int) (no : Nat) : CycDet × Bool × Option CycDet :=
  let ch := s.get F.ACQ_RRED_CYCCH k
  let level := codeOf row ch - s.getS F.ADC_FOFS_OFFS ch
  let bySrc := s.flag F.ACQ_RRED_CYCSRC k
  let start := if bySrc then !d.high && decide (0 ≤ level)
    else d.start.isNone || d.n ≥ s.get F.ACQ_RRED_NCYC k
  let high := if bySrc then (if decide (level < -64) then false else d.high || start) else d.high
  let sq := (s.rChans k).map fun n => ((codeOf row n - s.getS F.ADC_FOFS_OFFS n).natAbs) ^ 2
  if start then (⟨high, some no, 1, sq⟩, true, if d.start.isSome then some d else none)
  else if d.start.isSome then
    (⟨high, d.start, d.n + 1, sq.zipIdx.map fun x => x.1 + d.sums.getD x.2 0⟩, false, none)
  else ({ d with high := high }, false, none)

/-- A PRMS row. -/
def prmsRow (d : CycDet) : List Byte :=
  leBytes 4 (d.start.getD 0) ++ d.sums.flatMap fun q : Nat =>
    leBytes 4 ((roundHalfAway (sqrtQ (mkRat (q : Int) d.n) * 65536)).toNat)

/-- One physical instant goes into a recorder's record (R398). -/
def State.emitPhys (s : State) (k e : Nat) (row : List Int) : State :=
  let ch := s.rChans k
  let x := s.rcr k
  let (cyc, _, done) := s.cycStep k x.cyc row x.rows
  let b := x.bucket ++ [row]
  let full := b.length ≥ s.bucketLen k
  let col := fun n => b.map (codeOf · n)
  let s1 := s.pushRow e 0 (ch.flatMap fun n => le16 (codeOf row n))
  let s2 := if full then
      (s1.pushRow e 1 (ch.flatMap fun n => le16 (minI (col n)) ++ le16 (maxI (col n)))).pushRow e 2
        (ch.flatMap fun n => le32 (roundHalfAway (mkRat (sumI (col n) * 65536) b.length)))
    else s1
  let s3 := match done with
    | some d => s2.pushRow e 3 (prmsRow d)
    | none => s2
  s3.setRcr k { s3.rcr k with rows := x.rows + 1, cyc := cyc, bucket := if full then [] else b }

/-- One virtual row goes into a recorder's record (R398). -/
def State.emitVirt (s : State) (k e : Nat) (vals : List (Int × Bool)) : State :=
  let vs := s.rVirt k
  let wide := fun i => s.vBytes (vs.getD i 0) == 4
  let put := fun i z => if wide i then le32 z else le16 z
  let ix := (List.range vals.length).filter fun i => s.vUsed (vs.getD i 0)
  let flags := (List.range (ceilDiv vals.length 32)).flatMap fun w =>
    leBytes 4 ((List.range 32).foldl (fun a j =>
      if 32 * w + j < vals.length ∧ !(vals.getD (32 * w + j) (0, true)).2 then a + 2 ^ j else a) 0)
  let row := vals.map Prod.fst
  let x := s.rcr k
  let b := x.vbucket ++ [row]
  let full := b.length ≥ s.bucketLen k
  let col := fun i => b.map (codeOf · i)
  let s1 := s.pushRow e 4 (flags ++ ix.flatMap fun i => put i (codeOf row i))
  let s2 := if full then
      (s1.pushRow e 5 (ix.flatMap fun i => put i (minI (col i)) ++ put i (maxI (col i)))).pushRow e 6
        (ix.flatMap fun i => le32 (roundHalfAway (mkRat (sumI (col i) * (if wide i then 1 else 65536)) b.length)))
    else s1
  s2.setRcr k { s2.rcr k with vbucket := if full then [] else b }

/-! ### Masks: what is tested (R402) -/

/-- A code lies outside the limits of a segment of mask `m`. -/
def State.outside (s : State) (m seg : Nat) (z : Int) : Bool :=
  let w := s.rd (F.ACQ_MTAB_WORD.addr m seg)
  decide (toSigned 16 (fieldGet w 31 16) < z) || decide (z < toSigned 16 (fieldGet w 15 0))

/-- Active masks of recorder `k` with this ALIGN. -/
def State.masksOf (s : State) (k : Nat) (align : Bool) : List Nat :=
  (List.range 8).filter fun m => s.flag F.ACQ_MCFG_EN m && s.get F.ACQ_MCFG_REC m == k && s.flag F.ACQ_MCFG_ALIGN m == align

/-- Rows of a mask's channel violate a segment: one of them, or the minimum or maximum of their bucket, which is the same. -/
def State.anyOutside (s : State) (m seg : Nat) (rows : List (List Int)) : Bool :=
  rows.any fun r => s.outside m seg (codeOf r (s.get F.ACQ_MCFG_CHAN m))

/-- A violation of mask `m` at a row since ARM is found; MASK_VIOLATION takes it up. -/
def State.found (s : State) (m row : Nat) : State := { s with acq := { s.acq with viol := s.acq.viol ++ [(m, row)] } }

/-- Violations of a recorder that closes its record are not taken up. -/
def State.dropViols (s : State) (k : Nat) : State :=
  { s with acq := { s.acq with viol := s.acq.viol.filter fun x => s.get F.ACQ_MCFG_REC x.1 != k } }

/-- The masks that lie from the trigger row on meet the next row of the record (R402): with TEST 0b01 at the end of its bucket, whose first
row names the segment and the violation (DESIGN CHOICE, log 84). -/
def State.maskRow (s : State) (k e : Nat) (row : List Int) : State :=
  let x := s.rcr k
  let tRow := ((s.recEntry e).map Record.tRow).getD 0
  let b := x.bucket ++ [row]
  (s.masksOf k false).foldl (fun t m =>
    let bucket := t.get F.ACQ_MCFG_TEST m == 1
    let r := if bucket then x.rows + 1 - b.length else x.rows
    let seg := (r - tRow) / max 1 (t.get F.ACQ_MCFG_SEGLEN m)
    let due := !bucket || decide (t.bucketLen k ≤ b.length)
    if due && decide (tRow ≤ r) && decide (seg < 256) && t.anyOutside m seg (if bucket then b else [row]) then t.found m (x.first + r) else t) s

/-- Lengths of 2^BK rows of a list, whole ones only, each with its first row. -/
def bucketsOf (n : Nat) (l : List (List Int)) : List (Nat × List (List Int)) :=
  (List.range (l.length / n)).map fun i => (i * n, (l.drop (i * n)).take n)

/-- The masks that lie on cycles meet a whole cycle of live rows, the first of them `row0` since ARM (R402). With TEST 0b01 the buckets are
counted from the cycle's start, and the segment of a bucket is that of its first row (DESIGN CHOICE, log 84). -/
def State.maskCycle (s : State) (k row0 : Nat) (rows : List (List Int)) : State :=
  (s.masksOf k true).foldl (fun t m =>
    (bucketsOf (if t.get F.ACQ_MCFG_TEST m = 1 then t.bucketLen k else 1) rows).foldl (fun u x =>
      if u.anyOutside m (x.1 * 256 / rows.length) x.2 then u.found m (row0 + x.1) else u) t) s

/-! ### The trigger (R397, R399) -/

/-- A sample instant counted as period × NS + J. -/
def State.instant (s : State) (period j : Nat) : Nat := period * s.ns + j

/-- The period and the sample index of an instant so counted. -/
def State.instantAt (s : State) (n : Nat) : Nat × Nat := (n / s.ns, n % s.ns)

/-- The last sample instant at or before `lat` CT from now (R397). -/
def State.arrival (s : State) (lat : Nat) : Nat × Nat :=
  let x := s.ct + lat - s.bnd
  if s.img.per.p ≤ x then (s.period + 1, 0) else (s.period, min (x / 120) (s.ns - 1))

/-- Network time of a trigger (R397); bit 63 is set while the servo is not LOCKED. -/
def State.trigTime (s : State) (period j tofs : Nat) : Nat :=
  let b : Int := (s.bnd : Int) - (((s.period : Int) - period) * s.img.per.p)
  let ns := (s.netFixAt 0 + (mkRat (b * 5 * 2 ^ 32) 3).floor) / 2 ^ 32
  let t := ((ns + 200 * (j : Int) + (tofs / 20 : Nat)) % 2 ^ 63).toNat
  if s.servoLocked then t else t + 2 ^ 63

/-- Where the rows that recorder `k` holds before its trigger stand to it (R394, R397, R398). A row represents the plant 8 samples before it
leaves the filter. `trig` is the place of the trigger row among the rows held, or beyond them where it is still in the filter, and `keep`
the place of the record's first row. -/
structure RowPlan where
  held : Nat
  trig : Nat
  keep : Nat

def State.rowPlan (s : State) (k period j : Nat) : RowPlan :=
  let n := (s.rcr k).pre.length
  let since : Int := max (-1) ((s.acq.last : Int) - s.instant period j)
  let trig := ((n : Int) + 7 - since).toNat
  ⟨n, trig, trig - s.get F.ACQ_RPRE_PRE k⟩

/-- Rows of the record in all: those before the trigger row, that row and POST. -/
def RowPlan.total (p : RowPlan) (post : Nat) : Nat := p.trig + post + 1 - p.keep

/-- A frame of the maps starts (R410); one that starts while they pause is not counted, as nothing of it is mapped until the pause ends. -/
def State.mapFrame (s : State) (ofs : Int) : State :=
  { s with acq := { s.acq with
    mapOfs := some ofs, mapFrames := s.acq.mapFrames + (if s.flag F.ACQ_MAPSTAT_PAUSED then 0 else 1) } }

/-- The live and the snapshot page. -/
def State.mapPage (s : State) (kind : Nat) : Option Nat := (s.acq.pages.find? fun x => x.2.mapKind == kind).map Prod.fst

/-- Slot `i` of the maps: its channel, if it is in use. -/
def State.mapSlot (s : State) (i : Nat) : Option Nat :=
  let w := s.get (if i < 4 then F.ACQ_MAPCH0_CH else F.ACQ_MAPCH1_CH) / 2 ^ (8 * (i % 4))
  if w.testBit 7 then some (w % 64) else none

/-- Add one to a count of `n` bytes that saturates. -/
def State.mapCount (s : State) (a n : Nat) : State :=
  s.dramPut a (leBytes n (satInc (2 ^ (8 * n) - 1) (leValue (s.dramGet a n))))

/-- Map one row at column `col`. -/
def State.mapSample (s : State) (p col : Nat) (row : List Int) : State :=
  (List.range 8).foldl (fun t i =>
    match t.mapSlot i with
    | some ch =>
      let u := (codeOf row ch + 32768).toNat
      (t.mapCount (pageBase p + 0x80 + 16384 * i + 4 * (u / 16)) 4).mapCount
        (pageBase p + 0x20080 + 131072 * i + 2 * (256 * (u / 256) + col)) 2
    | none => t) s

/-- The maps' part of one row of a period (R410): the offset goes on in a pause, in which nothing is mapped. -/
def State.mapRow (s : State) (period : Nat) (row : List Int) : State :=
  match s.mapPage 1, s.acq.mapOfs with
  | some p, some o =>
    let x := max 1 (s.get F.ACQ_MAPCFG_XDIV)
    if o < 256 * x then
      let t := if s.flag F.ACQ_MAPSTAT_PAUSED ∨ o < 0 then s
        else
          let u := s.mapSample p (o.toNat / x) row
          { u with acq := { u.acq with mapFirst := some (u.acq.mapFirst.getD period), mapLast := period } }
      { t with acq := { t.acq with mapOfs := some (o + 1) } }
    else { s with acq := { s.acq with mapOfs := none } }
  | _, _ => s

/-- The period of the row that leaves the filter now: that of the instant 8 samples back (R394). -/
def State.rowPeriod (s : State) : Nat := (s.instantAt (s.acq.last - 8)).1

/-- The trigger of MAPREC starts a frame at its trigger row, and what is held from that row on is mapped (R410). -/
def State.mapTrigger (s : State) (t : Trig) (plan : RowPlan) (pre : List (List Int)) : State :=
  let s1 := s.mapFrame (-((plan.trig - plan.held : Nat) : Int))
  ((pre.drop plan.trig).zipIdx (s1.instant t.period t.j)).foldl (fun u x => u.mapRow (u.instantAt x.2).1 x.1) s1

/-- A record row and its masks. -/
def State.emitRow (s : State) (k e : Nat) (row : List Int) : State := (s.maskRow k e row).emitPhys k e row

/-- All rows of a record have followed its trigger: it goes to CLOSING (R400). -/
def State.postCheck (s : State) (k : Nat) : State :=
  if s.rState k = 3 ∧ (s.rcr k).left = 0 ∧ (s.rcr k).vleft = 0 then s.setRState k 4 else s

/-- The masks of a record as it opens: the violations met since its first row (R402). -/
def openMasks (viols : List (Nat × Nat)) (first : Nat) : Sparse (Nat × Nat) :=
  (List.range 8).foldl (fun l m =>
    match (viols.filter fun x => x.1 == m && decide (first ≤ x.2)).map (·.2 - first) with
    | [] => l
    | r :: rs => Sparse.set (fun _ => (0, 0)) l m (min 0xFFFF (rs.length + 1), r % 65536)) []

/-- Recorder `k` in FILL or READY takes its trigger (R397 to R400). -/
def State.fire (s : State) (k : Nat) (t : Trig) : State :=
  match (s.rcr k).entry with
  | none => s
  | some e =>
    let x := s.rcr k
    let plan := s.rowPlan k t.period t.j
    let post := s.get F.ACQ_RPOST_POST k
    let kept := (x.pre.drop plan.keep).take (plan.total post)
    let first := x.samples - plan.held + plan.keep
    let vb := lastN (s.vPeriods (s.get F.ACQ_RPRE_PRE k)) (x.vpre.filter fun y => y.1 < t.period)
    let vr := x.vpre.filter fun y => y.1 ≥ t.period
    let s0 := (s.setRcr k { x with
      pre := [], vpre := [], due := none, viols := [], first := first, skip := plan.keep - plan.held
      left := plan.trig + post + 1 - plan.held, vleft := if (s.rVirt k).isEmpty then 0 else s.vPeriods post - vr.length }).listRec e
    let pos : Word := BitVec.ofNat 32 (t.cond * 2 ^ 30 + t.qual * 2 ^ 28 + t.j * 65536 + t.tofs)
    let masks := openMasks x.viols first
    let s1 := match s0.recEntry e with
      | some r => s0.setRec e (some { s0.opening r with
          shortPre := decide (plan.trig < plan.keep + s.get F.ACQ_RPRE_PRE k)
          calChg := (x.fdAt.filter fun n => decide (first < n) && decide (n < first + plan.total post)).head?.map (· - first)
          period := t.period, pos := pos, cond := s.rd (F.ACQ_RTRG0_KIND.addr k t.cond), masks := masks
          time := s.trigTime t.period t.j t.tofs, preRows := plan.trig - plan.keep, postRows := post, tRow := plan.trig - plan.keep
          vRow := vb.length })
      | none => s0
    let s2 := masks.foldl (fun u y => u.put F.ACQ_MFIRST_ROW y.2.2 y.1)
      (((s1.put F.ACQ_RTRIG_PERIOD t.period k).wr (F.ACQ_RTPOS_COND.addr k) pos).pulse Ev.ACQ_TRIG k
        (((s1.recEntry e).map Record.recid).getD 0))
    let s3 := kept.foldl (fun u r => u.emitRow k e r) s2
    let s4 := (vb ++ vr).foldl (fun u r => u.emitVirt k e r.2) s3
    let s5 := (s4.setRState k 3).postCheck k
    let s6 := if s.get F.ACQ_CFG_CETRIG = k ∧ s.get F.CE_TRTRIG_SRC = 1
      then { s5 with ce := { s5.ce with trigDue := true } } else s5
    if s.get F.ACQ_MAPCFG_MAPREC = k ∧ !s.flag F.ACQ_MAPCFG_FRAME then s6.mapTrigger t plan x.pre else s6

/-- A condition of recorder `k` is of this kind and source. -/
def State.condMatches (s : State) (k c kind src : Nat) (upper : Bool) : Bool :=
  (s.get F.ACQ_RCOMB_ENA k).testBit c && s.get F.ACQ_RTRG0_KIND k c == kind &&
  (if kind = 8 then k == src else s.get F.ACQ_RTRG0_SRC k c == src) &&
  (kind != 2 || s.flag F.ACQ_RTRG0_UPPER k c == upper)

/-- A condition occurred within the last WIN samples. -/
def State.recentCond (s : State) (k c : Nat) : Bool :=
  match Sparse.get (fun _ => none) (s.rcr k).occ c with
  | some n => (s.rcr k).samples ≤ n + s.get F.ACQ_RCOMB_WIN k
  | none => false

/-- The condition that completes FUNC, the lowest letter first, when `hit` occur now (R399, R412). -/
def State.completes (s : State) (k : Nat) (hit : List Nat) : Option Nat :=
  let f := s.get F.ACQ_RCOMB_FUNC k
  if f = 0 then hit.find? (· == 0)
  else if f = 1 then hit.head?
  else if f = 2 then
    if ((List.range 4).filter (s.get F.ACQ_RCOMB_ENA k).testBit).all fun c => s.recentCond k c then hit.head? else none
  else if s.recentCond k 0 then hit.find? (· == 1) else none

/-- Conditions of recorder `k`, by rising letter, occur together; the Bool says that it fired (R399, R412). A function that a LEVEL, VLEVEL
or TIME condition completes waits for its instant to be placed: RECORDER_TRIGGER fires it. -/
def State.takeHits (s : State) (k : Nat) (hits : List Trig) : State × Bool :=
  let x := s.rcr k
  if (s.rState k = 1 ∨ s.rState k = 2) ∧ x.holdDone ∧ x.due.isNone then
    let s1 := s.setRcr k { x with occ := hits.foldl (fun o t => Sparse.set (fun _ => none) o t.cond (some x.samples)) x.occ }
    match (s1.completes k (hits.map Trig.cond)).bind fun c => hits.find? (·.cond == c) with
    | some t =>
      if [1, 4, 5].contains (s.get F.ACQ_RTRG0_KIND k t.cond) then (s1.setRcr k { s1.rcr k with due := some t }, false)
      else (s1.fire k t, true)
    | none => (s1, false)
  else (s, false)

/-- The conditions of recorder `k` that occurrences (kind, source, upper) meet, at an instant. -/
def State.hitsOf (s : State) (k : Nat) (q : List (Nat × Nat × Bool)) (at_ : Nat × Nat) : List Trig :=
  ((List.range 4).filter fun c => q.any fun o => s.condMatches k c o.1 o.2.1 o.2.2).map fun c => ⟨c, at_.1, at_.2, 0, 2⟩

/-- Each recorder meets what `hits` says of it; the recorders that fired are listed as occurrences of kind RECORDER. -/
def State.round (s : State) (hits : State → Nat → List Trig) : State × List (Nat × Nat × Bool) :=
  (List.range 8).foldl (fun a k =>
    let r := a.1.takeHits k (hits a.1 k)
    (r.1, if r.2 then a.2 ++ [(7, k, false)] else a.2)) (s, [])

/-- Offer occurrences to every recorder together; a trigger is itself offered as RECORDER. Each recorder fires at most once, so eight
rounds more suffice. -/
def State.offerAll : Nat → List (Nat × Nat × Bool) → Nat × Nat → State → State
  | 0, _, _, s => s
  | n + 1, q, at_, s =>
    if q.isEmpty then s
    else
      let r := s.round fun t k => t.hitsOf k q at_
      State.offerAll n r.2 at_ r.1

/-- Offer occurrences of one instant. -/
def State.offerAt (s : State) (q : List (Nat × Nat × Bool)) (at_ : Nat × Nat) : State := s.offerAll 9 q at_

/-- Offer occurrences that reach the acquisition island after 13 CT, as an event does, or 9 CT, as a write does (R34, R399). -/
def State.offer (s : State) (q : List (Nat × Nat × Bool)) (lat : Nat := 9) : State := s.offerAt q (s.arrival lat)

/-! #### LEVEL, VLEVEL and TIME (R397, R399) -/

/-- A value meets a level detector (R399): the detector after it, and whether it has crossed `level` in the direction of EDGE. A crossing
reaches beyond LEVEL, and a return beyond LEVEL less or plus HYST arms the next one; none is armed at ARM (DESIGN CHOICE, log 84). -/
def LevelDet.step (d : LevelDet) (v level hyst : Int) (edge : Nat) : LevelDet × Bool :=
  let rise := d.up && decide (level < v)
  let fall := d.down && decide (v < level)
  ({ prev := some v, up := decide (v < level - hyst) || (d.up && !decide (level < v))
     down := decide (level + hyst < v) || (d.down && !decide (v < level)) },
    (rise && edge != 1) || (fall && edge != 0))

/-- Where the crossing lies between the two rows it straddles, the later of which leaves the filter now: the instant of the earlier one and
the part of the interval in 50 ps (R397). The instants of rows are 8 samples back. The last interval of a period can be longer than TOFS
shows; it then shows its greatest value (DESIGN CHOICE, log 84). -/
def State.crossing (s : State) (c : Nat) (was now level : Int) : Trig :=
  let (k, j) := s.instantAt (s.acq.last - 9)
  let span := if j + 1 = s.ns then s.img.per.p - 120 * j else 120
  let part := qdiv ((level - was : Int) : Rat) ((now - was : Int) : Rat)
  ⟨c, k, j, min 3999 (part * (span * 100 / 3 : Nat)).floor.toNat, if s.flag F.ACQ_STAT_MODE then 1 else 0⟩

/-- LEVEL and HYST of a condition. -/
def State.levelOf (s : State) (k c : Nat) : Int × Int :=
  let w := s.get F.ACQ_RTRG1_ARG k c
  (toSigned 16 (bitsOf w 31 16), bitsOf w 15 0)

/-- The level conditions of a kind meet their values; those that cross are hit. -/
def State.levelScan (s : State) (k kind : Nat) (value : Nat → Int) (place : Nat → Int → Int → Int → Trig) : State × List Trig :=
  (s.condsOf k kind).foldl (fun a c =>
    let x := a.1.rcr k
    let d := Sparse.get (fun _ => {}) x.lvl c
    let v := value (s.get F.ACQ_RTRG0_SRC k c)
    let (level, hyst) := s.levelOf k c
    let r := d.step v level hyst (s.get F.ACQ_RTRG0_EDGE k c)
    (a.1.setRcr k { x with lvl := Sparse.set (fun _ => {}) x.lvl c r.1 }, if r.2 then a.2 ++ [place c (d.prev.getD v) v level] else a.2))
    (s, [])

/-- The TIME conditions whose target has been reached since the last instant: the last instant at or before it (R397). -/
def State.timeScan (s : State) (k : Nat) : State × List Trig :=
  let x := s.rcr k
  let now := (s.timesPast k).filter fun c => !x.timesHit.testBit c
  (s.setRcr k { x with timesHit := x.timesHit ||| condMask now },
    now.map fun c =>
      let (p, j) := s.instantAt (if s.timeLeft k c s.netNow = 0 then s.acq.last else s.acq.last - 1)
      ⟨c, p, j, 0, 2⟩)

/-- By rising letter. -/
def byLetter (l : List Trig) : List Trig := (List.range 4).flatMap fun c => l.filter (·.cond == c)

/-- What the engine itself finds of a recorder's conditions in one row, beside the window outputs `q` of the frame. -/
def State.scan (s : State) (row : List Int) (q : List (Nat × Nat × Bool)) (k : Nat) : State × List Trig :=
  if s.rState k = 1 ∨ s.rState k = 2 then
    let a := s.levelScan k 1 (codeOf row) s.crossing
    let b := a.1.timeScan k
    (b.1, byLetter (a.2 ++ b.2 ++ b.1.hitsOf k q (b.1.instantAt b.1.acq.last)))
  else (s, [])

/-- Every recorder's conditions meet one sample instant. -/
def State.scanAll (s : State) (row : List Int) (q : List (Nat × Nat × Bool)) : State :=
  let r := (List.range 8).foldl (fun (a : State × List (Nat × Nat × Bool)) k =>
    let b := a.1.scan row q k
    let c := b.1.takeHits k b.2
    (c.1, if c.2 then a.2 ++ [(7, k, false)] else a.2)) (s, [])
  r.1.offerAt r.2 (r.1.instantAt r.1.acq.last)

/-- The value that a VLEVEL condition compares (R399). -/
def State.vLevel (s : State) (i : Nat) : Int := if s.vBytes i = 4 then (s.vSample i).1 / 65536 else (s.vSample i).1

/-- Every recorder's VLEVEL conditions meet the samples of a period, which reach the acquisition 9 CT later (R392, R397). -/
def State.vScanAll (s : State) : State :=
  let at_ := s.arrival 9
  let r := (List.range 8).foldl (fun (a : State × List (Nat × Nat × Bool)) k =>
    if a.1.rState k = 1 ∨ a.1.rState k = 2 then
      let b := a.1.levelScan k 4 a.1.vLevel fun c _ _ _ => ⟨c, at_.1, at_.2, 0, 2⟩
      let c := b.1.takeHits k b.2
      (c.1, if c.2 then a.2 ++ [(7, k, false)] else a.2)
    else a) (s, [])
  r.1.offerAt r.2 at_

/-- RECORDER_TRIGGER: the instant of a function that has completed is placed, and the recorder enters POST (R397, R400). What the engine
found stands; in CAL the place between the two samples follows from the TDC stamps, which the command brings. -/
def State.recTrigger (s : State) (k tofs : Nat) : State :=
  match (s.rcr k).due with
  | some t => if s.rState k = 1 ∨ s.rState k = 2 then
      (s.fire k (if t.qual = 1 then { t with tofs := min 3999 tofs } else t)).offerAt [(7, k, false)] (t.period, t.j)
    else s
  | none => s

/-- HOLDOFF has passed: so many rows have followed ARM (R399). -/
def State.holdPassed (s : State) (k : Nat) : State :=
  if (s.rState k = 1 ∨ s.rState k = 2) ∧ s.get F.ACQ_RHOLD_HOLDOFF k ≤ (s.rcr k).samples then s.setRcr k { s.rcr k with holdDone := true }
  else s

/-- A TIME condition whose target lies in the past at ARM fires at once (R399); HOLDOFF does not hold it back. -/
def State.armTimes (s : State) (k : Nat) : State :=
  let at_ := s.arrival 9
  let past := s.timesPast k
  let x := s.rcr k
  let s1 := s.setRcr k { x with occ := past.foldl (fun o c => Sparse.set (fun _ => none) o c (some x.samples)) x.occ }
  match s1.completes k past with
  | some c => (s1.fire k ⟨c, at_.1, at_.2, 0, 2⟩).offerAt [(7, k, false)] at_
  | none => s1

/-- ARM as the register has it. -/
def State.recArm (s : State) (k : Nat) : State × Code :=
  let was := s.rState k
  let (t, c) := s.armRecorder k
  (if was = 0 ∧ t.rState k = 1 then t.armTimes k else t, c)

/-! ### Closing (R400, R401, R407, R409) -/

/-- What follows a close (R400): IDLE, or FILL again under MODE 0b01 until COUNT records have been made. -/
def State.afterClose (s : State) (k : Nat) (again : Bool) : State :=
  let made := (s.rcr k).made
  let count := s.get F.ACQ_RCFG_COUNT k
  let s := s.dropViols k
  let idle := (s.setRcr k {}).setRState k 0
  if again && s.get F.ACQ_RCFG_MODE k == 1 && (count == 0 || decide (made < count)) && !(s.rcr k).maskStop &&
      !s.flag F.ACQ_STAT_SHED then
    match s.beginFill k made with
    | .ok t => t
    | .error true => idle.pulse Ev.ACQ_DIRFULL k
    | .error false => idle.pulse Ev.ACQ_NOPAGE k
  else idle

/-- Rows held before a trigger that never came go into the record (R407). -/
def State.flushPre (s : State) (k e : Nat) : State :=
  let x := s.rcr k
  if s.rState k = 1 ∨ s.rState k = 2 then
    let rows := lastN (s.get F.ACQ_RPRE_PRE k) x.pre
    let s0 := (s.setRcr k { x with pre := [], vpre := [] }).listRec e
    let s1 := s0.setRec e ((s0.recEntry e).map s0.opening)
    let s2 := rows.foldl (fun t r => t.emitPhys k e r) s1
    x.vpre.foldl (fun t r => t.emitVirt k e r.2) s2
  else s

/-- Close the record of recorder `k` with a cause (R400, R401). -/
def State.finishRec (s : State) (k cause : Nat) (again : Bool) : State :=
  match (s.rcr k).entry with
  | none => s
  | some e =>
    let s1 := (s.flushPre k e).closeRec e cause
    let s2 := (s1.put F.ACQ_RLAST_RECID (((s1.recEntry e).map Record.recid).getD 0) k).satIncF F.ACQ_RSTAT_RECORDS k
    let s3 := (s2.putB F.ACQ_RSTAT_DONE (cause != 2) k).putB F.ACQ_RSTAT_ABORTED (cause == 2) k
    (s3.setRcr k { s3.rcr k with made := (s3.rcr k).made + 1 }).afterClose k again

/-- A record that a lack of pages closed ends its recorder's run (R407). -/
def State.checkClosed (s : State) (k : Nat) : State :=
  match (s.rcr k).entry with
  | none => s
  | some e => match s.recEntry e with
    | some r => if r.opened then s else s.finishRec k r.tcause true
    | none => s

/-- Drop the pre-trigger pages of a recorder: no record results (R401). -/
def State.discardRec (s : State) (k : Nat) : State :=
  match (s.rcr k).entry with
  | some e => (((s.dropRec e).setRcr k {}).setRState k 0).dropViols k
  | none => s.setRState k 0

/-- STOP (R401). -/
def State.recStop (s : State) (k : Nat) : State × Code :=
  let st := s.rState k
  if st = 1 ∨ st = 2 then (s.discardRec k, .ok)
  else if st = 3 ∨ st = 4 then (s.finishRec k 2 false, .ok)
  else (s, if s.get F.ACQ_RSTAT_RECORDS k = 0 then .ok else .abortLate)

/-- FORCE: a SOFTWARE condition, ignored in IDLE (R399, R412). -/
def State.recForce (s : State) (k : Nat) : State := s.offer [(8, k, false)]

/-- POST rows have followed the trigger, and the recorder is in CLOSING: the header is written (R400). -/
def State.recComplete (s : State) (k : Nat) : State := if s.rState k = 4 then s.finishRec k 0 true else s

/-- Overrun (R392). -/
def State.overrun (s : State) : State :=
  let s1 := (s.put F.ACQ_STAT_OVRUN 1).pulse Ev.ACQ_OVRUN
  (List.range 8).foldl (fun t k =>
    if (t.rState k = 3 ∨ t.rState k = 4) ∧ !(t.rChans k).isEmpty then t.finishRec k 5 true else t) s1

/-! ### Masks (R402) -/

/-- A violation in a row of a record counts in its header; the first one shows in ACQ_MFIRST. -/
def State.markRecord (s : State) (k m row : Nat) : State :=
  match (s.rcr k).entry with
  | some e => match s.recEntry e with
    | some r =>
      let h := Sparse.get (fun _ => (0, 0)) r.masks m
      let t := if h.1 = 0 then s.put F.ACQ_MFIRST_ROW row m else s
      t.setRec e (some { r with
        masks := Sparse.set (fun _ => (0, 0)) r.masks m (satInc 0xFFFF h.1, if h.1 = 0 then row % 65536 else h.2) })
    | none => s
  | none => s

/-- MASK_VIOLATION: a violation that the engine found at a row since ARM takes effect (R402). Before the trigger it is kept for the
record. -/
def State.maskHit (s : State) (m row : Nat) : State :=
  if s.acq.viol.contains (m, row) then
    let k := s.get F.ACQ_MCFG_REC m
    let st := s.rState k
    let s0 : State := { s with acq := { s.acq with viol := s.acq.viol.erase (m, row) } }
    let s1 := (s0.errInc F.ACQ_MCNT_COUNT (1504 + m) m).pulse Ev.ACQ_MASK m
    let x := s1.rcr k
    let s2 := if st = 1 ∨ st = 2 then s1.setRcr k { x with viols := x.viols ++ [(m, row)] }
      else if (st = 3 ∨ st = 4) ∧ x.first ≤ row then s1.markRecord k m (row - x.first)
      else s1
    let a := s2.get F.ACQ_MCFG_ACTION m
    let s3 := if a = 2 then s2.setRcr k { s2.rcr k with maskStop := true } else s2
    if a = 1 ∨ a = 2 then s3.offer [(6, m, false)] 0 else s3
  else s

/-! ### Maps (R410) -/

/-- The header of a map page (R410). -/
def State.mapHeader (s : State) (p : Nat) : List Byte :=
  let used := ((List.range 8).filter fun i => (s.mapSlot i).isSome).length
  pageHeader p 0 0xE 0 0 0xFFFF pageData 0 ++ ([0x4C, 0x35, 0x32, 0x4D] : List Byte) ++ leBytes 2 0x0102 ++ leBytes 2 used ++
    ((List.range 8).flatMap fun i => match s.mapSlot i with
      | some ch => leBytes 1 ch ++ leBytes 1 (s.get F.ADC_FCFG_FSR ch) ++ leBytes 2 0
      | none => leBytes 4 0) ++
    leBytes 4 (s.get F.ACQ_MAPCFG_XDIV) ++ leBytes 4 s.acq.mapFrames ++ leBytes 8 (s.acq.mapFirst.getD 0) ++
    leBytes 8 s.acq.mapLast

/-- Zero a page. -/
def State.zeroPage (s : State) (p : Nat) : State :=
  { s with dram := s.dram.filter fun c => !(decide (pageBase p ≤ c.1) && decide (c.1 < pageBase (p + 1))) }

/-- EN of the maps becomes 1 or 0: two pages leave the pool or return to it, one that the host owns once it is released. -/
def State.mapEnable (s : State) (en : Bool) : State :=
  if en then
    match s.takePage with
    | some (p, s1) =>
      let s2 := (s1.setPage p { mapKind := 1 }).zeroPage p
      match s2.takePage with
      | some (q, s3) =>
        let s4 := ((s3.setPage q { mapKind := 2 }).zeroPage q).put F.ACQ_MAPSTAT_SNAPPAGE q
        { s4 with acq := { s4.acq with mapOfs := none, mapFirst := none, mapLast := 0, mapFrames := 0 } }
      | none => s2.setPage p {}
    | none => s
  else
    let ps := (s.acq.pages.filter fun x => x.2.mapKind != 0).map Prod.fst
    let s1 := (ps.foldl (fun (t : State) p => t.setPage p { host := (t.page p).host }) s).put F.ACQ_MAPSTAT_BUSY 0
    { s1 with acq := { s1.acq with mapOfs := none } }

/-- SNAP (R410). -/
def State.mapSnap (s : State) : State × Code :=
  match s.mapPage 2 with
  | some q =>
    if (s.page q).host then (s, .state)
    else
      let t := s.put F.ACQ_MAPSTAT_BUSY 1
      ({ t with acq := { t.acq with snapFrames := t.acq.mapFrames } }, .ok)
  | none => (s, .ok)

/-- The copy ends: the snapshot page holds the live counts, with the frame count of SNAP. A page that the host has claimed meanwhile is left
as it is (R411). -/
def State.mapSnapDone (s : State) : State :=
  match s.flag F.ACQ_MAPSTAT_BUSY, s.mapPage 1, s.mapPage 2 with
  | true, some p, some q =>
    if (s.page q).host then s.put F.ACQ_MAPSTAT_BUSY 0 else
    let s0 := s.zeroPage q
    let live := s.dram.filter fun c => decide (pageBase p + 0x80 ≤ c.1) && decide (c.1 < pageBase (p + 1))
    let s1 := live.foldl (fun t c => t.dramPut (c.1 - pageBase p + pageBase q) [c.2]) s0
    let snap := { s1 with acq := { s1.acq with mapFrames := s1.acq.snapFrames } }
    (s1.dramPut (pageBase q) (snap.mapHeader q)).put F.ACQ_MAPSTAT_BUSY 0
  | _, _, _ => s.put F.ACQ_MAPSTAT_BUSY 0

/-- CLR zeroes the live page. -/
def State.mapClr (s : State) : State :=
  match s.mapPage 1 with
  | some p =>
    let t := s.zeroPage p
    { t with acq := { t.acq with mapOfs := none, mapFirst := none, mapLast := 0, mapFrames := 0 } }
  | none => s

/-! ### Calibration (R395, R396) -/

/-- An occasion for CAL: a running one starts its count again (R395). None starts while the head sheds load (R428), or after a resign, which
stops CAL (R409). -/
def State.calStart (s : State) (cause : Nat) : State :=
  if s.flag F.ACQ_STAT_SHED ∨ s.get F.SEC_STATE_HSTATE = 3 then s
  else ((s.put F.ACQ_STAT_MODE 1).put F.ACQ_CALSTAT_STATE 2).put F.ACQ_CALSTAT_CAUSE cause

/-- CAL ends without a result (R409, R412). -/
def State.calAbandon (s : State) : State :=
  if s.get F.ACQ_CALSTAT_STATE = 2 then (s.put F.ACQ_STAT_MODE 0).put F.ACQ_CALSTAT_STATE 0 else s

/-- New FD values reach an open record: CALCHG, and the row from which on they hold (R396). -/
def State.calChange (s : State) (e row : Nat) : State :=
  match s.recEntry e with
  | some r => if r.listed && r.opened && r.calChg.isNone then s.setRec e (some { r with calChg := some row }) else s
  | none => s

/-- New FD values reach the record of a recorder, or the rows held for one before its trigger (R396). -/
def State.calMark (s : State) (k : Nat) : State :=
  let x := s.rcr k
  match x.entry with
  | some e => (s.setRcr k { x with fdAt := x.fdAt ++ [x.samples] }).calChange e (x.samples - x.first)
  | none => s

/-- New FD values reach the open spill record of a trace channel, which has no PRAW row (R396, R408). -/
def State.calSpill (s : State) (n : Nat) : State :=
  match Sparse.get (fun _ => none) s.acq.spill n with
  | some e => s.calChange e 0
  | none => s

/-- 4,096 instants have passed: the mean lateness of each channel (R394, R395). -/
def State.calDone (s : State) (skews : List Int) : State :=
  if s.get F.ACQ_CALSTAT_STATE = 2 then
    let big := (List.range 24).foldl (fun m n => max m (skews.getD n 0 - s.getS F.ACQ_SKEW_SKEW n).natAbs) 0
    let s1 := (List.range 24).foldl (fun t n =>
      let sk := satSigned 16 (skews.getD n 0)
      let (fd, lim) := fdOf sk (t.getS F.ACQ_FDOFS_OFS n)
      let t1 := (t.putS F.ACQ_SKEW_SKEW sk n).putS F.ACQ_FD_FD fd n
      if lim then t1.pulse Ev.ACQ_FDLIM n else t1) s
    let s2 := ((s1.put F.ACQ_STAT_MODE 0).put F.ACQ_CALSTAT_STATE 0).satIncF F.ACQ_CALSTAT_COUNT
    (List.range 16).foldl State.calSpill ((List.range 8).foldl State.calMark (s2.pulse Ev.ACQ_CAL 0 big))
  else s

/-! ### One instant and one window -/

/-- A filter tap (R394): the delay is 8 samples plus FD × 50 ps, 4,000 of which are one sample. -/
def fdTap (fd : Int) (i : Nat) : Rat :=
  if fd % 4000 = 0 then (if (i : Int) = 8 + fd / 4000 then 1 else 0) else Config.fdTap fd i

/-- The filtered codes of an instant (R394): each channel through its fractional-delay filter of 16 taps. -/
def State.filtered (s : State) : List Int :=
  (List.range 24).map fun n =>
    let fd := s.getS F.ACQ_FD_FD n
    satSigned 16 (roundHalfAway ((s.acq.hist.reverse.zipIdx).foldl (fun a x => a + fdTap fd x.2 * (codeOf x.1 n : Rat)) (0 : Rat)))

/-- A live row of recorder `k` meets its cycle detector: the masks that lie on cycles test the cycle that ends, and the maps start a frame
(R398, R402, R410). -/
def State.liveRow (s : State) (k : Nat) (row : List Int) : State :=
  let x := s.rcr k
  let (live, start, _) := s.cycStep k x.live row x.samples
  let cyc := if (s.masksOf k true).isEmpty ∨ live.start.isNone then [] else if start then [row] else x.cycRows ++ [row]
  let s1 := s.setRcr k { x with samples := x.samples + 1, live := live, cycRows := cyc }
  let s2 := if start ∧ !x.cycRows.isEmpty then s1.maskCycle k (x.samples - x.cycRows.length) x.cycRows else s1
  if start ∧ s.get F.ACQ_MAPCFG_MAPREC = k ∧ s.flag F.ACQ_MAPCFG_FRAME then s2.mapFrame 0 else s2

/-- One row that leaves the filters, in recorder `k`, not IDLE. -/
def State.recInstant (s : State) (row : List Int) (k : Nat) : State :=
  let st := s.rState k
  if st = 1 ∨ st = 2 then
    let s1 := s.liveRow k row
    let x := s1.rcr k
    let pre := lastN (s.get F.ACQ_RPRE_PRE k + 1024) (x.pre ++ [row])
    let s2 := s1.setRcr k { x with pre := pre }
    match x.entry with
    | none => s2
    | some e =>
      let r := (List.range 7).foldl (fun (a : State × Bool) st =>
        if a.2 then a else a.1.reserve e st (a.1.ringNeed k st pre.length)) (s2, false)
      if r.2 then (r.1.pulse Ev.ACQ_NOPAGE k).finishRec k 1 true
      else if st = 1 ∧ s.get F.ACQ_RPRE_PRE k ≤ pre.length then r.1.setRState k 2 else r.1
  else if st = 3 ∨ st = 4 then
    let s1 := s.liveRow k row
    let x := s1.rcr k
    match x.entry with
    | some e =>
      if st = 3 ∧ 0 < x.left then
        let s2 := s1.setRcr k { x with left := x.left - 1, skip := x.skip - 1 }
        ((if 0 < x.skip then s2 else s2.emitRow k e row).postCheck k).checkClosed k
      else s1
    | none => s1
  else s

/-- The acquisition's part of one sample instant (R392 to R402, R410). -/
def State.acqInstant (s : State) (j : Nat) (codes : List Int) : State :=
  let u := s.windowMask F.CMP_STAT_OUTU
  let l := s.windowMask F.CMP_STAT_OUTL
  let rise : Nat → Nat → Bool → List (Nat × Nat × Bool) := fun now was up =>
    ((List.range 16).filter fun w => now.testBit w && !was.testBit w).map fun w => (2, w, up)
  let q := rise u s.acq.winU true ++ rise l s.acq.winL false
  let s1 := { s with acq := { s.acq with
    last := s.instant s.period j, hist := lastN 16 (s.acq.hist ++ [codes]), winU := u, winL := l } }
  let row := s1.filtered
  let s2 := (List.range 8).foldl (fun t k => t.recInstant row k) s1
  (s2.mapRow s2.rowPeriod row).scanAll row q

/-- The acquisition's part of a window end: one row of each virtual stream, then the VLEVEL conditions (R398, R399). -/
def State.acqWindow (s : State) : State :=
  ((List.range 8).foldl (fun t k =>
    let st := t.rState k
    let x := t.rcr k
    if st = 0 ∨ (t.rVirt k).isEmpty then t
    else
      let vals := (t.rVirt k).map t.vSample
      if st = 1 ∨ st = 2 then
        t.setRcr k { x with vpre := lastN (t.vPeriods (t.get F.ACQ_RPRE_PRE k) + 8) (x.vpre ++ [(t.period, vals)]) }
      else match x.entry with
        | some e => if x.vleft = 0 then t
            else (((t.setRcr k { x with vleft := x.vleft - 1 }).emitVirt k e vals).postCheck k).checkClosed k
        | none => t) s).vScanAll

/-- PAGE_EVICTION: the stream of a recorder that stands before a full page gets its next one, by eviction where none is free,
or its record closes (R406, R407). -/
def State.needPage (s : State) (k : Nat) : State :=
  match (s.rcr k).entry with
  | none => s
  | some e => match s.recEntry e with
    | none => s
    | some r =>
      match r.streams.find? fun x => x.2.spare.isEmpty && x.2.rowBytes != 0 &&
          (x.2.pages.isEmpty || x.2.inPage ≥ pageData / x.2.rowBytes) with
      | none => s
      | some (st, _) =>
        let (s1, fail) := s.reserve e st 1
        if fail then (s1.pulse Ev.ACQ_NOPAGE k st).finishRec k 1 true else s1

/-! ### Trace channels (R213, R214, R408) -/

def State.trace (s : State) (n : Nat) : Trace := Sparse.get (fun _ => {}) s.ce.trc n
def State.setTrace (s : State) (n : Nat) (x : Trace) : State :=
  { s with ce := { s.ce with trc := Sparse.set (fun _ => {}) s.ce.trc n x } }
def State.spillRec (s : State) (n : Nat) : Option Nat := Sparse.get (fun _ => none) s.acq.spill n
def State.setSpill (s : State) (n : Nat) (e : Option Nat) : State :=
  { s with acq := { s.acq with spill := Sparse.set (fun _ => none) s.acq.spill n e } }

/-- Close the spill record of channel `n`. -/
def State.spillClose (s : State) (n cause : Nat) : State :=
  match s.spillRec n with
  | some e => (s.closeRec e cause).setSpill n none
  | none => s

/-- The spill record of channel `n`, opened where there is none. -/
def State.spillOpen (s : State) (n : Nat) : Option (Nat × State) :=
  match s.spillRec n with
  | some e => some (e, s)
  | none => match s.newRec (s.opening { src := 0x10 + n, streams := [(7, { rowBytes := 8 })], period := s.period }) with
    | .ok (e, t) => some (e, (t.listRec e).setSpill n (some e))
    | .error _ => none

/-- A running channel in spill mode keeps a record open (R408). -/
def State.spillKeep (s : State) (n : Nat) : State :=
  if s.get F.CE_TRSTAT_STATE n = 1 ∧ s.get F.CE_TRCFG_MODE n = 3 then
    match s.spillOpen n with
    | some (_, t) => t
    | none => s
  else s

/-- ARM of trace channels: each is cleared and starts in its mode (R214). -/
def State.traceArm (s : State) (mask : Nat) : State :=
  ((List.range 16).filter mask.testBit).foldl (fun t n =>
    let on := t.get F.CE_TRCFG_MODE n != 0
    ((((t.spillClose n 0).setTrace n {}).put F.CE_TRSTAT_WRPTR 0 n).put F.CE_TRSTAT_STATE (if on then 1 else 0) n).spillKeep n) s

/-- Stop a trace channel. -/
def State.traceHalt (s : State) (cause n : Nat) : State :=
  let st := s.get F.CE_TRSTAT_STATE n
  if st = 1 ∨ st = 2 then (s.spillClose n cause).put F.CE_TRSTAT_STATE 3 n else s

/-- STOP of trace channels (R214). -/
def State.traceStop (s : State) (mask : Nat) : State :=
  ((List.range 16).filter mask.testBit).foldl (fun t n => t.traceHalt 0 n) s

/-- One sample of a trace channel at the end of the window (R213). -/
def State.traceSample (s : State) (n : Nat) : State :=
  let st := s.get F.CE_TRSTAT_STATE n
  let x := s.trace n
  if st = 1 ∨ st = 2 then
    if x.age % 2 ^ s.get F.CE_TRCFG_DEC n = 0 then
      let v := (s.nodeValue (s.get F.CE_TRCFG_SRC n) (s.get F.CE_TRCFG_CELL n)).1
      let data := Sparse.set (fun _ => (0, 0)) x.data (x.taken % 65536) (s.period, BitVec.ofInt 32 v)
      let s1 := (s.setTrace n { x with data := data, taken := x.taken + 1, age := x.age + 1, left := x.left - 1 }).put
        F.CE_TRSTAT_WRPTR ((x.taken + 1) % 65536) n
      if st = 2 ∧ x.left ≤ 1 then s1.put F.CE_TRSTAT_STATE 3 n else s1
    else s.setTrace n { x with age := x.age + 1 }
  else s

/-- A trigger reaches the channels at the end of the window (R214). -/
def State.traceTrig (s : State) (n : Nat) : State :=
  if s.get F.CE_TRSTAT_STATE n = 1 then
    let s1 := s.setTrace n { s.trace n with trigAt := s.period, left := 256 * s.get F.CE_TRTRIG_PRE }
    if s.get F.CE_TRCFG_MODE n = 2 then
      s1.put F.CE_TRSTAT_STATE (if s.get F.CE_TRTRIG_PRE = 0 then 3 else 2) n
    else s1
  else s

/-- The trace channels' part of a window end. -/
def State.traceWindow (s : State) : State :=
  let s1 := (List.range 16).foldl State.traceSample s
  if s1.ce.trigDue then
    let s2 := (List.range 16).foldl State.traceTrig s1
    { s2 with ce := { s2.ce with trigDue := false } }
  else s1

/-- A half is lost (R214). -/
def State.halfLost (s : State) (n : Nat) : State := (s.put F.CE_TRSTAT_LOST 1 n).pulse Ev.TRACE_LOST n

/-- Room for a half: a page carries seven of them (R408). -/
def State.halfRoom (s : State) (e : Nat) : Option State :=
  match s.recEntry e with
  | none => none
  | some r =>
    let t := r.stream 7
    if t.pages.isEmpty ∨ t.inPage ≥ 7 * 32768 then s.streamPage e 7 r else some s

/-- The first `k` rows of one half of a trace buffer, from index `base` on (R214). -/
def State.halfRows (s : State) (e base k : Nat) (x : Trace) : State :=
  (List.range k).foldl (fun t i =>
    let d := Sparse.get (fun _ => (0, 0)) x.data (base + i)
    t.placeRow e 7 (leBytes 4 d.1 ++ leBytes 4 d.2.toNat)) s

/-- A spill record closes when its pages are full, and the running channel opens its next one (R408). -/
def State.halfClose (s : State) (n e : Nat) : State :=
  match s.recEntry e with
  | some r => if (r.stream 7).pages.length ≥ 64 ∧ (r.stream 7).inPage ≥ 7 * 32768 then (s.spillClose n 0).spillKeep n else s
  | none => s

/-- The half that a spill channel is writing goes into its record as far as it has come (R215). -/
def State.spillTail (s : State) (n : Nat) : State :=
  let x := s.trace n
  let k := x.taken % 32768
  match s.spillRec n with
  | some e =>
    if s.get F.CE_TRSTAT_STATE n = 1 ∧ 0 < k then
      match s.halfRoom e with
      | some t => t.halfRows e (x.taken / 32768 % 2 * 32768) k x
      | none => s
    else s
  | none => s

/-- A completed half buffer in spill mode (R214, R408). -/
def State.halfSpill (s : State) (n : Nat) (accepted : Bool) : State :=
  let x := s.trace n
  if s.get F.CE_TRSTAT_STATE n = 1 ∧ s.get F.CE_TRCFG_MODE n = 3 ∧ x.halves < x.taken / 32768 then
    let s0 := s.setTrace n { x with halves := x.halves + 1 }
    if !accepted then s0.halfLost n
    else match s0.spillOpen n with
      | none => s0.halfLost n
      | some (e, s1) => match s1.halfRoom e with
        | none => s1.halfLost n
        | some s2 => (s2.halfRows e (x.halves % 2 * 32768) 32768 x).halfClose n e
  else s

/-! ### Resign and shedding (R409, R428) -/

/-- On resign every open record closes with cause RESIGN, a spill record with what the half being written holds (R215), and recorders, maps, CAL and trace channels stop (R214, R409). -/
def State.acqResign (s : State) : State :=
  let s1 := (List.range 8).foldl (fun t k =>
    let st := t.rState k
    if st = 1 ∨ st = 2 then t.discardRec k else if st = 3 ∨ st = 4 then t.finishRec k 3 false else t) s
  let s2 := (List.range 16).foldl (fun t n => (t.spillTail n).traceHalt 3 n) s1
  let s3 := s2.calAbandon
  { s3 with acq := { s3.acq with mapOfs := none } }

/-- Load shedding starts or ends (R395, R428). -/
def State.acqShed (s : State) (on : Bool) : State :=
  let s1 := (if on then s.calAbandon else s).putB F.ACQ_STAT_SHED on
  let s2 := s1.putB F.ACQ_MAPSTAT_PAUSED on
  if on then s2 else s2.calStart 5

end Sys2Proof.Machine
end

