-- ==== Sys2Proof/Machine/LvWave.lean ====
section
/-! DEFINITION. The LV waveforms and the pump over time (R253 to R293): reloads, raw edges, the delay stage, PWM wraps, the commits at
T_LAUNCH, chopper modes and energy, the pump states and its protection, and the start budget (R114, R115). -/

namespace Sys2Proof.Machine

/-! ### Reloads (R254 to R261) -/

/-- M of R255: control periods from one reload to the next. -/
def State.reloadM (s : State) (n : Nat) : Nat :=
  let per := s.get F.LVS_PER_PER n
  if per ≤ s.img.per.p ∨ s.img.per.p = 0 then 1 else max 1 (per / s.img.per.p)

/-- The channel reloads at the boundary of the present period. -/
def State.reloads (s : State) (n : Nat) : Bool := s.period % s.reloadM n == 0

/-- Pairs of a use, in rising order. -/
def State.usePairs (s : State) (u : Nat) : List Nat := (List.range 16).filter fun n => s.pairUse n == u

/-- OFS of R256: the leg's place among the legs of its use. -/
def State.legOfs (s : State) (n : Nat) : Nat :=
  let per := s.get F.LVS_PER_PER n
  let l := s.usePairs (s.pairUse n)
  if !isPair n || per = 0 || l.isEmpty then 0
  else (roundHalfAway (mkRat ((l.idxOf n : Nat) * per : Nat) l.length)).toNat % per

/-- The pairs of a use that are not ready (R279). -/
def State.notReady (s : State) (u : Nat) : List Nat :=
  (s.usePairs u).filter fun n => s.flag F.GDI_RCFG_RDYREQ n && (s.get F.GDI_FLT_READYLOW).testBit n

/-- MODE of a chopper channel (R267). -/
def State.chopMode (s : State) (c : Nat) : Nat := s.get F.LVS_CHOPCFG_MODE c

/-- A channel that runs by its counter: a pair, or a proportional chopper. -/
def State.byCounter (s : State) (n : Nat) : Bool := isPair n || s.chopMode (n - 16) == 2

/-- The 20-bit counter of a channel now (R254): it has counted on from its last load and wraps at PER. -/
def State.counter (s : State) (n : Nat) : Nat :=
  ((s.chan n).cntAt + (s.ct - (s.chan n).cntCt)) % s.get F.LVS_PER_PER n

/-- Raw drive of a channel whose counter stands at `cnt` (R254, R267). -/
def State.rawAt (s : State) (n cnt : Nat) : Bool :=
  if s.byCounter n then decide (cnt < s.get F.LVS_CMP_CMP n) else s.chopMode (n - 16) == 1 && (s.chan n).raw

/-- The delay stage after a raw level: a delay of 0 passes the edge in the same CT (R260). -/
def State.rawChange (s : State) (n : Nat) (b : Bool) : State :=
  let c := s.chan n
  let c1 := { c with raw := b, rawCt := if b == c.raw then c.rawCt else s.ct }
  if !isPair n then (s.setChan n c1).refresh n
  else
    let dr := s.get F.LVS_DT_DR n
    let df := s.get F.LVS_DT_DF n
    let c2 := { c1 with
      dH := if b then c.dH || (decide (dr = 0) && !c.restart) else c.dH && decide (df ≠ 0)
      dL := if b then c.dL && decide (df ≠ 0) else c.dL || (decide (dr = 0) && !c.restart) }
    (s.setChan n c2).refresh n

/-- The loop of a pair's use is on, and was when compares were last committed: a use starts at the first reload after its bit is set, from the
compares committed since (R259). -/
def State.useStarts (s : State) (n : Nat) : Bool :=
  s.useLoop n && ((s.chan n).running || s.ce.loopWas.getLsbD (s.get F.LVS_USE_LOOP (s.pairUse n - 1)))

/-- A reload of one channel (R254, R256 to R261, R278, R279): the counter loaded with OFS, shadow values, the row of the die's band, and
the start or the end of its use. -/
def State.reloadChan (s : State) (n : Nat) : State :=
  let s1 := (s.put F.LVS_CMP_CMP (s.chan n).shCmp n).put F.LVS_OFS_OFS (s.legOfs n) n
  let b := s1.get F.THM_STAT_BAND
  let s2 := if isPair n then
      (s1.put F.LVS_DT_DR (s1.get F.LVS_DTB_DR b n) n).put F.LVS_DT_DF (s1.get F.LVS_DTB_DF b n) n
    else s1
  let s2 := s2.put F.LVS_STAT_BAND b
  let u := s2.pairUse n
  let bad := if isPair n then s2.notReady u else []
  let want := s2.chanUsed n && s2.driving && (!isPair n || s2.useStarts n)
  let start := want && !(s2.chan n).running && !bad.isEmpty
  let s3 := if start ∧ (s2.usePairs u).head? = some n then s2.pulse Ev.GD_NOTREADY (bad.headD 0) else s2
  let run := want && ((s3.chan n).running || bad.isEmpty)
  let c := s3.chan n
  let fresh := c.restart || !c.running
  let ofs := s3.get F.LVS_OFS_OFS n
  let c1 := { c with
    running := run, restart := false, dH := c.dH && !fresh && run, dL := c.dL && !fresh && run
    cntAt := ofs, cntCt := s3.ct, rawCt := if fresh then s3.ct else c.rawCt }
  (s3.setChan n c1).rawChange n (s3.rawAt n ofs)

/-- The channels that reload at this boundary, by the PER in force before it (R255, R269). -/
def State.reloadList (s : State) : List Nat := (List.range 18).filter s.reloads

/-- The channels of `rl` reload. -/
def State.reloadAll (s : State) (rl : List Nat) : State := rl.foldl State.reloadChan s

/-! ### Between reloads (R254, R260, R264) -/

/-- The counter stands at CMP (R254). A CMP of 0 or at or above PER has no edge. -/
def State.compareMatch (s : State) (n : Nat) : State :=
  let cmp := s.get F.LVS_CMP_CMP n
  if (s.chan n).running ∧ 0 < cmp ∧ s.counter n = cmp ∧ s.byCounter n then s.rawChange n false else s

/-- The delay that an output has ahead of it: DR where its raw drive is on, DF where it is off (R260). -/
def State.delayOf (s : State) (n : Nat) (high : Bool) : Nat :=
  if (s.chan n).raw = high then s.get F.LVS_DT_DR n else s.get F.LVS_DT_DF n

/-- A raw drive has held its level for its delay (R260). -/
def State.deadEnd (s : State) (n : Nat) (high : Bool) : State :=
  let c := s.chan n
  if c.running ∧ ¬c.restart ∧ c.rawCt + s.delayOf n high ≤ s.ct then
    (s.setChan n (if high then { c with dH := c.raw } else { c with dL := !c.raw })).refresh n
  else s

/-- SHOOTCNT at the end of a PWM period (R264). -/
def State.shootEval (s : State) (n : Nat) : State :=
  let c := s.chan n
  if c.rejecting then
    let k := satInc 15 (s.get F.LVS_PWM_STAT_SHOOTCNT n)
    let s1 := (s.put F.LVS_PWM_STAT_SHOOTCNT k n).setChan n { c with rejecting := c.rejNow, clean := 0 }
    if k ≥ s.get F.LVS_GCFG_SHOOTN ∧ ¬c.shoot then s1.shootTrip n else s1
  else
    let s1 := s.setChan n { c with clean := satInc 1024 c.clean, rejecting := c.rejNow }
    if c.clean + 1 ≥ 1024 then s1.put F.LVS_PWM_STAT_SHOOTCNT 0 n else s1

/-- The counter has changed to 0, by counting or by a reload (R254, R264). -/
def State.pwmWrap (s : State) (n : Nat) : State :=
  if s.counter n ≠ 0 then s
  else
    let s1 := if isPair n then s.shootEval n else s
    if (s1.chan n).running ∧ s1.byCounter n then s1.rawChange n (s1.rawAt n 0) else s1

/-! ### Commits at T_LAUNCH (R257, R258, R267, R285) -/

/-- A duty as a compare. -/
def cmpOf (d : Rat) (per : Nat) : Nat := (roundHalfAway (clampQ 0 1 d * per)).toNat

/-- The compare of one engine pair and whether an input was invalid (R258, R259); an invalid bus voltage marks every compare. -/
def State.pairCmp (s : State) (n : Nat) : Nat × Bool :=
  let u := s.pairUse n - 1
  let (b, okB) := s.srcNow (s.get F.LVS_GCFG_VBSRC)
  if !s.useLoop n then (0, !okB)
  else
    let (v, ok) := s.srcNow (s.get F.LVS_USE_SRC u)
    let vb := max (q30 b) (1 / 4)
    let volt := s.flag F.LVS_USE_DMODE u
    let d := if volt then 1 / 2 + q30 v / vb else q30 v
    let t := s.get F.LVS_CFG_TRIMSRC n
    let (tr, okT) := if t = 0xFFF then (0, true) else s.srcNow t
    (cmpOf (d + q30 tr) (s.get F.LVS_PER_PER n), !ok || !okB || !okT)

/-- The engine commits the pump's duty (R285). -/
def State.pumpCommit (s : State) : State :=
  let dmax : Int := (s.get F.GDI_PUPWM_DMAX : Nat) * 65536
  { s with pump := { s.pump with dutyNext := clampI 0 dmax (s.srcNow (s.get F.GDI_PUSRC_SRC)).1 } }

/-- A commit into the shadow of a channel. -/
def State.shadow (s : State) (n v : Nat) : State := s.setChan n { s.chan n with shCmp := v }

/-- The engine commits the compares of its pairs and of the proportional choppers (R257, R267); the shadow of a host pair is written
with 0 while the loop bit of its use is 0 (R259). -/
def State.lvCommit (s : State) : State :=
  let used := (List.range 16).filter fun n => s.pairUse n != 0
  let prs := used.filter fun n => !s.flag F.LVS_CFG_HOSTCTL n
  let held := used.filter fun n => s.flag F.LVS_CFG_HOSTCTL n && !s.useLoop n
  let prop := [16, 17].filter fun n => s.chopMode (n - 16) == 2
  let src := fun n => s.srcNow (s.get F.LVS_CHOPCFG_SRC (n - 16))
  let s1 := prs.foldl (fun (t : State) n => t.shadow n (s.pairCmp n).1) s
  let s2 := held.foldl (fun (t : State) n => t.shadow n 0) s1
  let s3 := prop.foldl (fun (t : State) n => t.shadow n (cmpOf (q30 (src n).1) (s.get F.LVS_PER_PER n))) s2
  s3.putB F.LVS_STAT_INVALID ((prs.any fun n => (s.pairCmp n).2) || prop.any fun n => !(src n).2)

/-! ### Choppers (R267, R268) -/

/-- The window of a hysteresis chopper asks for a level (R267): TONMIN holds a change back. -/
def State.chopFollow (s : State) (c : Nat) : State :=
  let n := 16 + c
  let x := s.chan n
  if x.chopHold || s.chopMode c != 1 || x.raw == x.chopWin then s
  else (s.setChan n { x with chopHold := s.get F.LVS_CHOPCFG_TONMIN c != 0 }).rawChange n x.chopWin

/-- MODE or WIN of a chopper has changed at a boundary (R267): off is low at once, hysteresis follows the asserted output of its window,
and proportional takes the override of an upper output that is asserted. -/
def State.chopApply (s : State) (c : Nat) : State :=
  let n := 16 + c
  let w := s.get F.LVS_CHOPCFG_WIN c
  let up := s.flag F.CMP_STAT_OUTU w
  let x := s.chan n
  if s.chopMode c = 1 then
    let high := x.raw || x.ovr
    let win := up || (!s.flag F.CMP_STAT_OUTL w && high)
    ((s.setChan n { x with raw := high, ovr := false, chopWin := win }).chopFollow c).refresh n
  else if s.chopMode c = 2 then (s.setChan n { x with ovr := up }).rawChange n (s.rawAt n (s.counter n))
  else (s.setChan n { x with ovr := false, chopWin := false }).rawChange n false

/-- The TONMIN hold of a chopper ends (R267). -/
def State.chopHoldEnd (s : State) (c : Nat) : State :=
  let n := 16 + c
  if (s.chan n).chopHold then (s.setChan n { s.chan n with chopHold := false }).chopFollow c else s

/-- On-time of a channel since it was last taken, which starts afresh (R268). -/
def State.takeOn (s : State) (n : Nat) : Nat × State :=
  let c := s.chan n
  (c.onCt + (if c.outH then s.ct - c.onSince else 0), s.setChan n { c with onCt := 0, onSince := s.ct })

/-- At a boundary the on-time of a channel in the period that ends is put by for the energy estimate (R268). -/
def State.chopPeriod (s : State) (n : Nat) : State :=
  let (ton, t) := s.takeOn n
  t.setChan n { t.chan n with onLast := ton }

/-- E of R268 at T_OPEN for one chopper, from its on-time in the last period; it is kept to 2⁻³² J. -/
def State.chopEnergy (s : State) (c : Nat) : State :=
  let n := 16 + c
  if s.chopRes c = 0 then s
  else
    let s1 := s
    let x := s1.chan n
    let ton := x.onLast
    let vb := q30 (s1.srcNow (s1.get F.LVS_GCFG_VBSRC)).1 * mkRat s1.img.plant.vbusNom 10
    let tau := s1.get F.LVS_CHOPTAU_TAU
    let e := x.energy - x.energy * s1.img.per.p / (tau * 600000000 : Nat)
      + vb * vb * ton * 1000 / (s1.chopRes c * 600000000 : Nat)
    let e := mkRat ((e * 2 ^ 32).floor) (2 ^ 32)
    let s2 := (s1.setChan n { x with energy := e }).put F.LVS_CHOPE_E (min 0xFFFFFFFF e.floor.toNat) c
    let ej := (s1.img.plant.chops.getD c ⟨0, 0⟩).ej
    let off := s2.flag F.GDI_RETRYSTAT_WAITING (c + 1) || s2.flag F.GDI_RETRYSTAT_LATCHED (c + 1)
    if (ej : Rat) ≤ e ∧ ¬off then s2.chopFault c else s2

/-! ### Pump (R284 to R292) -/

def State.puState (s : State) : Nat := s.get F.GDI_PUSTAT_STATE

/-- Move the pump to a state. A start that ends gives its units back at the next boundary (R114, R288). -/
def State.setPump (s : State) (st : Nat) : State :=
  let ends := pumpBusyState s.puState && !pumpBusyState st
  let t := s.put F.GDI_PUSTAT_STATE st
  { t with pump := { t.pump with unitBack := t.pump.unitBack || (ends && t.pump.holdsUnits) } }

/-- BRK follows; a rising edge raises EV_PU_BRAKE (R290). -/
def State.setBrk (s : State) (b : Bool) : State :=
  let t := s.putB F.GDI_PUSTAT_BRK b
  if b ∧ ¬s.flag F.GDI_PUSTAT_BRK then t.pulse Ev.PU_BRAKE else t

/-- The pump leaves WAIT or LATCHED: BRK may act again (R290). -/
def State.brkFree (s : State) : State := { s with pump := { s.pump with brkOff := false } }

/-- Request a pump start (R115, R288). -/
def State.pumpQueue (s : State) : State :=
  let t := (s.setPump pumpQueued).brkFree
  { t with budget := { t.budget with queue := insertReq ⟨true, 0, s.period⟩ t.budget.queue } }

/-- Take the pump out of the queue. -/
def State.pumpUnqueue (s : State) : State :=
  { s with budget := { s.budget with queue := s.budget.queue.filter fun r => !r.pump } }

/-- START at its boundary (R115, R288). -/
def State.pumpStartNow (s : State) : State := if s.puState = pumpOff then s.pumpQueue else s

/-- STOP at its boundary (R288, R293): COUNT is kept, a wait ends, and with it the brake of an OV fault. A wait that ended in this control
tick leaves nothing behind: STOP wins. -/
def State.pumpStopNow (s : State) : State :=
  let st := s.puState
  let back := s.pump.endAt.filter fun x => x.1 == s.ct
  if st = pumpOff ∨ (st = pumpLatched ∧ back = none) then s
  else
    let s := match back with
      | some x => (s.put F.GDI_RETRYSTAT_COUNT x.2 0).put F.GDI_RETRYSTAT_LATCHED 0 0
      | none => s
    let t := ((s.setPump pumpOff).pumpUnqueue.put F.GDI_RETRYSTAT_WAITING 0 0).brkFree
    { t with pump := { t.pump with step := 0, cut := false, limited := 0, ovBrake := false, endAt := none } }

/-- The phase that the open marks name (R289): 0 = U, 1 = V, 2 = W, 3 = the winding as a whole. MARKS holds U–V, V–W, W–U from bit 2
down. -/
def openPhase (marks : Nat) : Nat := if marks = 5 then 0 else if marks = 6 then 1 else if marks = 3 then 2 else 3

/-- The end of a diagnostic step (R289); `low` are the nodes below VTL and `high` those above VTH, bit x for U, V, W. -/
def State.diagStep (s : State) (low high : Nat) : State :=
  if s.puState ≠ pumpDiag then s
  else
    let k := s.pump.step
    let pass := if k = 1 then low % 8 == 7 else if k = 2 then high % 8 == 7 else low.testBit (k - 3)
    let s1 := if pass then s.putBit F.GDI_PUDIAG_PASS (k - 1) true
      else if k = 1 then s.put F.GDI_PUDIAG_SUP (7 - low % 8)
      else if k = 2 then s.put F.GDI_PUDIAG_GND (7 - high % 8)
      else s.putBit F.GDI_PUDIAG_MARKS (5 - k) true
    if !pass ∧ k = 1 then s1.pumpFault 1
    else if !pass ∧ k = 2 then s1.pumpFault 2
    else if k < 5 then { s1 with pump := { s1.pump with step := k + 1 } }
    else
      let s2 : State := { s1 with pump := { s1.pump with step := 0 } }
      let marks := s2.get F.GDI_PUDIAG_MARKS
      if marks ≠ 0 then s2.pumpFaultAt (openPhase marks) 3 else s2.setPump pumpBoot

/-- Speed in rpm from two valid edges (R287). -/
def State.pumpSpeed (s : State) (dt : Nat) : Nat :=
  if dt = 0 then 0xFFFF else min 0xFFFF (6000000000 / ((s.get F.GDI_PUCFG_PPM1 + 1) * dt))

/-- The head finds the bootstrap of the PWM phase below 7.0 V, or not (R285). -/
def State.setBoot (s : State) (low : Bool) : State := { s with pump := { s.pump with bootLow := low } }

/-- A filtered Hall code (R284, R287): skips are counted and followed, eight in one revolution raise HALL. -/
def State.hallIn (s : State) (code : Nat) (bootLow : Bool) : State :=
  let s0 := s.put F.GDI_PUSTAT_HALL code
  let s1 := s0.setBoot bootLow
  if code = 0 ∨ code = 7 then s1.checkBoot
  else
    let k := hallSector code
    let p := s1.pump
    let d := if p.hallKnown then (k + 6 - p.sector) % 6 else 0
    let skip := p.hallKnown && (d == 2 || d == 3 || d == 4)
    let moved : Int := if d ≤ 3 then d else (d : Int) - 6
    let rev := p.rev + moved
    let turn := decide (6 ≤ rev.natAbs)
    let err := if turn then 0 else s1.get F.GDI_PUSTAT_HALLERR
    let err1 := if skip then satInc 15 err else err
    let s2 := match p.edgeAt with
      | some e => s1.put F.GDI_PUSTAT_SPEED (s1.pumpSpeed (s1.ct - e))
      | none => s1
    let s3 : State := { s2 with pump := { s2.pump with
      sector := k, hallKnown := true, rev := if turn then 0 else rev, edgeAt := some s.ct } }
    let s4 := s0.commutate (s3.put F.GDI_PUSTAT_HALLERR err1)
    let on := s4.puState == pumpStarting || s4.puState == pumpRunning
    if skip ∧ err1 ≥ 8 ∧ on then s4.pumpFault 6 else s4.checkBoot

/-- A measurement of PU_VM (R290): OV and UV act on the pump, BRK follows its own thresholds. VM found above OVLIM raises OV once, until
it has come back to OVLIM and the brake has ended, and again where the pump has been started meanwhile. -/
def State.vmIn (s : State) (vm : Nat) : State :=
  let s1 := s.put F.GDI_PUVM_VM vm
  let begun := s.puState != pumpOff && s.puState != pumpWait && s.puState != pumpLatched
  let on := s1.get F.GDI_PUVLIM1_BRKON
  let off := s1.get F.GDI_PUVLIM1_BRKOFF
  let ovl := s1.get F.GDI_PUVLIM0_OVLIM
  let s2 := if vm ≤ off then s1.setBrk false else if on ≤ vm ∧ ¬s1.pump.brkOff then s1.setBrk true else s1
  let s3 := if s2.pump.ovBrake ∧ vm ≤ off then s2.ovBrakeEnd else s2
  let high := decide (ovl < vm)
  let s4 := if high ∧ (¬s.pump.overV ∨ begun) ∧ ¬s3.pump.ovBrake then s3.pumpOv else s3
  let s4 : State := { s4 with pump := { s4.pump with overV := high } }
  if vm < s4.get F.GDI_PUVLIM0_UVLIM ∧ (s4.puState = pumpStarting ∨ s4.puState = pumpRunning) then s4.pumpFault 9 else s4

/-- BRK has stayed high for longer than BRKMAX (R290). -/
def State.brkTimeout (s : State) : State :=
  if s.flag F.GDI_PUSTAT_BRK then
    let t := (s.setBrk false).pumpFault 0xB
    { t with pump := { t.pump with brkOff := true } }
  else s

/-- The shunt exceeds ILIM (R286): the high side is off for the rest of the cycle. -/
def State.overCurrent (s : State) : State :=
  if s.pumpDrives ∧ ¬s.pump.cut then { s with pump := { s.pump with cut := true, cutAt := s.ct } } else s

/-- The pump's PWM counter wraps (R285, R286); where the counter does not stand at 0 there is no wrap. -/
def State.pumpWrap (s : State) : State :=
  if s.pumpCounter ≠ 0 then s else
  let n := if s.pump.cut then s.pump.limited + 1 else 0
  let t : State := { s with pump := { s.pump with duty := s.pump.dutyNext, cut := false, limited := n, wrapAt := s.ct } }
  if s.pump.cut ∧ n ≥ s.get F.GDI_PUOC_OCN then t.pumpFault 5 else t.checkBoot

/-- No Hall edge for STALLTO (R287). -/
def State.pumpStall (s : State) : State :=
  let t := s.put F.GDI_PUSTAT_SPEED 0
  if (s.puState = pumpStarting ∨ s.puState = pumpRunning) ∧ s.pump.duty > 2 ^ 30 / 10 then t.pumpFault 7 else t

/-- An invalid Hall code has lasted HALLTO (R284). -/
def State.hallTimeout (s : State) : State :=
  let h := s.get F.GDI_PUSTAT_HALL
  if (h = 0 ∨ h = 7) ∧ (s.puState = pumpStarting ∨ s.puState = pumpRunning) then s.pumpFault 6 else s

/-- The end of a retry wait (R292). The new start is itself the diagnostic run that a diagnostic fault asks for (R291). -/
def State.retryEnd (s : State) (c : Nat) : State :=
  if !s.flag F.GDI_RETRYSTAT_WAITING c then s
  else if c = 0 then
    let code := s.get F.GDI_PUSTAT_LASTFAULT
    let s1 := s.put F.GDI_RETRYSTAT_WAITING 0 0
    let s1 : State := { s1 with pump := { s1.pump with endAt := some (s.ct, s.get F.GDI_RETRYSTAT_COUNT 0) } }
    if s1.pumpCauseEnded code || (1 ≤ code && code ≤ 3) then s1.pumpQueue
    else (s1.put F.GDI_PUSTAT_STATE pumpWait).pumpFault code
  else if s.chopCool (c - 1) then
    let s1 := s.clearAct Ev.LV_CHOP_E
    if c = 1 then { s1 with pump := { s1.pump with resume1 := true } }
    else { s1 with pump := { s1.pump with resume2 := true } }
  else (s.put F.GDI_RETRYSTAT_WAITING 0 c).chopFault (c - 1)

/-- A chopper resumes its mode at the boundary (R280, R292). -/
def State.chopResume (s : State) (c : Nat) : State :=
  let n := 16 + c
  let s1 := s.put F.GDI_RETRYSTAT_WAITING 0 (c + 1)
  (s1.setChan n { s1.chan n with restart := false }).refresh n

/-- Choppers due to resume. -/
def State.chopResumes (s : State) : State :=
  let s1 := if s.pump.resume1 then s.chopResume 0 else s
  let s2 := if s.pump.resume2 then s1.chopResume 1 else s1
  { s2 with pump := { s2.pump with resume1 := false, resume2 := false } }

/-- CLEAN seconds without a fault (R292). -/
def State.retryClean (s : State) (c : Nat) : State := s.put F.GDI_RETRYSTAT_COUNT 0 c

/-- A clear of one retry channel (R292). -/
def State.retryClearOne (s : State) (c : Nat) : State :=
  if !s.flag F.GDI_RETRYSTAT_LATCHED c then s
  else
    let ok := if c = 0 then s.pumpCauseEnded (s.get F.GDI_PUSTAT_LASTFAULT) else s.chopCool (c - 1)
    if !ok || s.gdi.nowAct.contains (3, c) then s.put F.GDI_RETRYSTAT_CLR_REJ 1 c
    else
      let n := s.get F.GDI_RETRYSTAT_COUNT c
      let s1 := ((s.put F.GDI_RETRYSTAT_LATCHED 0 c).put F.GDI_RETRYSTAT_COUNT 0 c).noteClear (3, c) n
      if c = 0 then
        let t := (s1.setPump pumpOff).brkFree
        { t with pump := { t.pump with ovBrake := false } }
      else if c = 1 then { (s1.clearAct Ev.LV_CHOP_E).dropChan 16 with pump := { s1.pump with resume1 := true } }
      else { (s1.clearAct Ev.LV_CHOP_E).dropChan 17 with pump := { s1.pump with resume2 := true } }

/-! ### The start budget (R114, R115) -/

/-- Units that return at the boundary. -/
def State.unitsBack (s : State) : State :=
  let cs := s.cellList.filter fun c => (s.cell c).unitBack
  let s1 := cs.foldl (fun (t : State) c =>
    let t1 := t.setCell c { t.cell c with unit := false, unitBack := false }
    { t1 with budget := { t1.budget with used := t1.budget.used - 1 } }) s
  if s1.pump.unitBack then
    { s1 with
      pump := { s1.pump with unitBack := false, holdsUnits := false }
      budget := { s1.budget with used := s1.budget.used - s1.img.pumpCost } }
  else s1

/-- The pump's start is granted (R114, R288): the diagnostics begin. -/
def State.grantPump (s : State) : State :=
  let t := (s.setPump pumpDiag).put F.GDI_PUDIAG_PASS 0
  let t := ((t.put F.GDI_PUDIAG_SUP 0).put F.GDI_PUDIAG_GND 0).put F.GDI_PUDIAG_MARKS 0
  { t with
    pump := { t.pump with step := 1, holdsUnits := true }
    budget := { t.budget with used := t.budget.used + t.img.pumpCost } }

/-- A cell's precharge is granted (R114, R186). -/
def State.grantCell (s : State) (c : Nat) : State :=
  let t := s.setCState c csPrecharge
  let t := t.setCell c { t.cell c with unit := true, prech := 0, eng := { (t.cell c).eng with noBus := false } }
  { t with budget := { t.budget with used := t.budget.used + 1 } }

/-- Grants in strict order (R115): a request that does not fit blocks those behind it. -/
def State.grantList (s : State) : List StartReq → State
  | [] => { s with budget := { s.budget with queue := [] } }
  | r :: l =>
    let cost := if r.pump then s.img.pumpCost else 1
    if cost ≤ s.freeUnits then (if r.pump then s.grantPump else s.grantCell r.cell).grantList l
    else { s with budget := { s.budget with queue := r :: l } }

/-- Grants at a boundary. -/
def State.grantStarts (s : State) : State := s.grantList s.budget.queue

end Sys2Proof.Machine
end

