-- ==== Sys2Proof/Machine/RecordOps.lean ====
section
/-! DEFINITION. What T_OPEN takes from the returned gather frames: lane checks, measurement records, replies of the staging
channel, removals and spares (R17 to R22, R38 to R40, R147 to R153, R170 to R188, R230 to R234). -/

namespace Sys2Proof.Machine

/-! ### Staging replies (R181, R182) -/

/-- Put a changed set at the head of a cell's queue. -/
def State.setHead (s : State) (c : Nat) (t : StageSet) : State :=
  s.setCell c { s.cell c with sets := t :: (s.cell c).sets.tail }

/-- Drop the set at the head of a cell's queue. -/
def State.dropHead (s : State) (c : Nat) : State := s.setCell c { s.cell c with sets := (s.cell c).sets.tail }

/-- An immediate set fails finally (R182): an offset set during ALIGN fails the lane. -/
def State.stageFail (s : State) (c : Nat) (kind : SetKind) (reason : Nat) : State :=
  let s1 := (s.dropHead c).pulse Ev.CELL_PARAM c reason
  if kind != .params && s1.lnState (s1.cLane c) == lnAlign then s1.enterLost (s1.cLane c) 7 else s1

/-- An immediate set is resent, or fails after its third resend (R182). The resend carries a new tag, so that the copies of the NAK that
asked for it, which the node repeats (R179), are not taken for answers to it. -/
def State.stageResend (s : State) (c : Nat) (t : StageSet) (reason : Nat) : State :=
  if t.resends < 3 then
    let tag := ((s.cell c).lastTag + 1) % 256
    let u := s.setCell c { s.cell c with lastTag := tag }
    u.setHead c { t with tag := tag, words := retag tag t.words, next := 0, resends := t.resends + 1 }
  else s.stageFail c t.kind reason

/-- The offset that a set carried is in force (R150, R183): its value is the second DATA word. -/
def State.offsInForce (s : State) (fo fv : Fld) (c : Nat) (t : StageSet) : State :=
  (s.put fo (t.words.getD 2 0).toNat (s.cLane c) (s.cPos c)).put fv 1 (s.cLane c) (s.cPos c)

/-- ACK for a tag (R181, R183): the set whose words have all left is done. -/
def State.stageAck (s : State) (c tag : Nat) : State :=
  match (s.cell c).sets with
  | t :: _ =>
    if t.tag ≠ tag ∨ t.next < t.words.length then s
    else match t.kind with
      | .params => (s.dropHead c).put F.CELL_STAT_PRMOK 1 c
      | .offsA => (s.dropHead c).offsInForce F.DML_OFFSA_OFFS F.DML_OFFSA_VALID c t
      | .offsB => (s.dropHead c).offsInForce F.DML_OFFSB_OFFS F.DML_OFFSB_VALID c t
      | .txn =>
        if s.get F.SYS_TXNSTAT_STATE = 2 ∧ s.bus.txn.affected.contains c ∧ ¬s.bus.txn.acked.contains c then
          let acked := s.bus.txn.acked ++ [c]
          { s with bus := { s.bus with txn := { s.bus.txn with acked := acked } } }.put F.SYS_TXNCELL_ACKS acked.length
        else s
  | [] => s

/-- NAK for a tag (R182). For a transaction set it is a staging error (R79), which the transaction logic takes up. -/
def State.stageNak (s : State) (c tag reason : Nat) : State :=
  match (s.cell c).sets with
  | t :: _ =>
    if t.tag ≠ tag then s
    else if t.kind = .txn then
      { s with bus := { s.bus with txn := { s.bus.txn with nak := s.bus.txn.nak <|> some c } } }
    else if reason = 1 ∨ reason = 2 then s.stageResend c t reason
    else s.stageFail c t.kind reason
  | [] => s

/-- 16 periods pass after the CHECK word of an immediate set with no answer (R182). -/
def State.stageTimeout (s : State) (c : Nat) : State :=
  match (s.cell c).sets with
  | t :: _ => if t.kind = .txn ∨ t.next < t.words.length then s else s.stageResend c t 0xFF
  | [] => s

/-! ### Records (R170, R176) -/

/-- The checks of R176 on a record of cell `c`. -/
def State.recordValid (s : State) (c : Nat) (r : GatherRec) : Bool :=
  let w := fun i => (r.words.getD i 0).toNat
  !r.late && !r.codeErr && r.words.length == 8 && bitOf (w 3) 31 && recordOk r.words (s.cLane c) (s.wirePos c) &&
  bitsOf (w 7) 15 0 == s.period % 65536 && bitsOf (w 3) 27 24 ≤ 5

/-- VCAP within −0.1 × VCAP_NOM to VCAP_MAX (R14). -/
def State.vcapOk (s : State) (c : Nat) (code : Int) : Bool :=
  let v : Int := code * s.vnom c
  decide (-(s.vnom c : Int) * 16384 ≤ 10 * v) && decide (v ≤ (s.vmax c : Int) * 16384)

/-- |IARM| within IARM_MAX (R14); the code is on 2 × IARM_RAT. -/
def State.iarmOk (s : State) (c : Nat) (code : Int) : Bool :=
  decide (code.natAbs * 2 * s.iarmRat c ≤ s.iarmMax c * 16384)

/-- THS within −45 °C to THS_MAX (R14). -/
def State.thsOk (s : State) (c : Nat) (code : Nat) : Bool := decide (50 ≤ code) && decide (code ≤ (s.thsMax c + 50) * 10)

/-- Every quantity of a cell goes without a value for a period (R42, R176); VCAP's substitute follows in a second pass. -/
def State.feedNone (s : State) (c : Nat) : State :=
  let x := s.cell c
  let tmo := s.get F.CELL_GCFG_MISSTO
  let hot : Int := (s.thsMax c + 50) * 10
  s.setCell c { x with
    recOk := false, vcap := x.vcap.feed none 0 tmo, iarm := x.iarm.feed none 0 tmo, idabp := x.idabp.feed none 0 tmo
    idabs := x.idabs.feed none 0 tmo, flux := x.flux.feed none 0 tmo, ths := x.ths.feed none hot tmo, tj := x.tj.feed none hot tmo }

/-- The quantities of a valid record (R170, R176). -/
def State.feedRecord (s : State) (c : Nat) (ws : List Word) : State :=
  let w := fun i => (ws.getD i 0).toNat
  let x := s.cell c
  let tmo := s.get F.CELL_GCFG_MISSTO
  let hot : Int := (s.thsMax c + 50) * 10
  let lo := fun i => toSigned 16 (bitsOf (w i) 15 0)
  let hi := fun i => toSigned 16 (bitsOf (w i) 31 16)
  let ths := bitsOf (w 3) 11 0
  let vok := s.vcapOk c (lo 0)
  let iok := s.iarmOk c (hi 0)
  let tok := s.thsOk c ths
  let s1 := s.setCell c { x with
    recOk := true, status := w 4
    vcap := x.vcap.feed (if vok then some (lo 0) else none) 0 tmo
    iarm := x.iarm.feed (if iok then some (hi 0) else none) 0 tmo
    idabp := x.idabp.feed (some (lo 1)) 0 tmo, idabs := x.idabs.feed (some (hi 1)) 0 tmo
    flux := x.flux.feed (some (lo 2)) 0 tmo
    ths := x.ths.feed (if tok then some (ths : Int) else none) hot tmo
    tj := x.tj.feed (some (bitsOf (w 3) 23 12 : Nat)) hot tmo
    eng := { x.eng with comp := x.eng.comp && !bitOf (w 4) 8 } }
  if vok && iok && tok then s1
  else s1.pulse Ev.CELL_RANGE c ((if vok then 0 else 1) + (if iok then 0 else 2) + (if tok then 0 else 4))

/-- The mean VCAP of the group's valid cells replaces what the timeout leaves without a value (R176). -/
def State.vcapSub (s : State) (g : Nat) : State :=
  let cs := s.groupCells g
  let good := cs.filter fun c => (s.cell c).vcap.ok
  let m : Int := if good.isEmpty then (s.group g).vsub
    else roundHalfAway (mkRat (good.foldl (fun a c => a + (s.cell c).vcap.val) (0 : Int)) good.length)
  let s1 := s.setGroup g { s.group g with vsub := m }
  cs.foldl (fun t c =>
    let q := (t.cell c).vcap
    if q.ok || (q.seen && q.age ≤ t.get F.CELL_GCFG_MISSTO) then t
    else t.setCell c { t.cell c with vcap := { q with val := m } }) s1

/-! ### Removals (R230 to R233) -/

/-- Remove a cell at T_OPEN: a RUN cell under the held policy is blocked first and becomes BYPASSED at the next boundary
(R232); its blocked bridge is compensated until its bypass closes (R231). -/
def State.removeOpen (s : State) (c : Nat) : State :=
  let run := s.inService c
  let s1 := if run then s.setCell c { s.cell c with eng := { (s.cell c).eng with comp := true } } else s
  if run && s.img.plant.held && s.cByp c != 0 then s1.setCell c { s1.cell c with leaving := true, bypassDue := false }
  else s1.removeCell c

/-- A SPARE cell that may be called (R232). -/
def State.spareReady (s : State) (c : Nat) : Bool :=
  s.cState c == csSpare && (s.cell c).vcap.ok && decide (s.getS F.CELL_GCFG_PRECHV ≤ (s.cell c).vcap.val)

/-- Call the spare of a group with the lowest SLOT that qualifies (R20, R232): it is blocked in the frame of this period, and inserted by
the allocation of the next one, which applies with the removed cell's BYPASS. -/
def State.callSpare (s : State) (g : Nat) : State :=
  let cs := (s.groupCells g).filter s.spareReady
  match cs.foldl (fun (b : Option Nat) c => match b with
      | none => some c
      | some d => if s.cSlot c < s.cSlot d then some c else some d) none with
  | some c =>
    let s1 := (s.setCState c csRun).pulse Ev.MV_SPARE g c
    s1.setCell c { s1.cell c with insAt := s.period + 1 }
  | none => s.pulse Ev.MV_NOSPARE g

/-- Follow up the removals of a period: EV_MV_RIDE and a spare for each departed RUN cell (R232, R233). `before` are the cells
that were in service. -/
def State.rideThrough (s : State) (before : List Nat) : State :=
  s.groupsUsed.foldl (fun t g =>
    let gone := (before.filter fun c => t.cGroup c == g && !t.inService c).length
    if gone = 0 then t
    else
      let u := if t.img.plant.held then (List.range gone).foldl (fun v _ => v.callSpare g) t else t
      u.pulse Ev.MV_RIDE g (u.insCells g).length) s

/-- EV_GROUP_UNDER follows each armed group's count (R21), taken at T_OPEN after the removals of the period and the calls of spares: what
moves a cell after that acts at a boundary, and so in the next period. -/
def State.groupUnder (s : State) : State :=
  let s1 := s.groupsUsed.foldl (fun t g =>
    let u := (t.group g).armed && t.nSvc g < t.nMain g
    let t1 := if u && !(t.group g).under then t.raise Ev.GROUP_UNDER g (t.nSvc g) else t
    t1.setGroup g { t1.group g with under := u }) s
  if s1.groupsUsed.any fun g => (s1.group g).under then s1 else s1.clearAct Ev.GROUP_UNDER

/-! ### One record -/

/-- A cell's consecutive invalid records have reached LOSTN: it is LOST at the next boundary (R177). -/
def State.missCell (s : State) (c : Nat) : State :=
  let s1 := ((s.pulse Ev.CELL_REC c).errInc F.CELL_ERR_INVALID (1098 + c) c).satIncF F.CELL_ERR_RUN c
  let s2 := s1.setCell c { s1.cell c with okRun := 0, prech := 0 }
  let st := s2.cState c
  if s2.get F.CELL_GCFG_LOSTN ≤ s2.get F.CELL_ERR_RUN c ∧ ¬(s2.cell c).lostDue ∧ st ≠ csAbsent ∧ st ≠ csRefused ∧ st ≠ csLost then
    (s2.pulse Ev.CELL_LOST c).setCell c { s2.cell c with lostDue := true }
  else s2

/-- A half of the identity has been received (R189). -/
def State.noteIdent (s : State) (c : Nat) (lo : Bool) : State :=
  let x := s.cell c
  let x1 := { x with gotLo := x.gotLo || lo, gotHi := x.gotHi || !lo }
  (s.setCell c x1).putB F.CELL_STAT_IDSEEN (x1.gotLo && x1.gotHi) c

/-- The reply word of a valid record (R17, R178, R179). -/
def State.takeReply (s : State) (c rtype reply : Nat) : State :=
  let hash := s.cHash c
  let wrong := (rtype = 1 ∧ reply ≠ hash % 2 ^ 32) ∨ (rtype = 2 ∧ reply ≠ hash / 2 ^ 32)
  let s1 := if rtype = 1 then (s.put F.CELL_IDLO_ID reply c).noteIdent c true
    else if rtype = 2 then (s.put F.CELL_IDHI_ID reply c).noteIdent c false
    else if rtype = 3 then s.put F.CELL_PROF_PROFILE reply c else s
  if rtype = 1 ∨ rtype = 2 then
    if wrong then
      if s1.cState c ≠ csRefused ∨ (s1.cell c).fresh then s1.refuseCell c else s1
    else
      let x := s1.cell c
      s1.setCell c { x with loSeen := x.loSeen || rtype = 1, hiSeen := x.hiSeen || rtype = 2 }
  else if rtype = 4 then s1.stageAck c (reply % 256)
  else if rtype = 5 then s1.stageNak c (reply % 256) (bitsOf reply 15 8)
  else s1

/-- State moves that follow a valid record: release, precharge, recovery from LOST, acceptance of a REFUSED cell, and removal on
EVENTS (R19, R177, R185, R186). -/
def State.recordMoves (s : State) (c events : Nat) : State :=
  let st := s.cState c
  let x := s.cell c
  let up := s.lnState (s.cLane c) == lnService
  if (st = csPrecharge ∨ st = csReady ∨ st = csRun ∨ st = csSpare) ∧ events ≠ 0 then
    (s.pulse Ev.CELL_FAULT c events).removeOpen c
  else if st = csBypassed ∧ x.release ∧ events = 0 ∧ ¬x.status.testBit 8 then s.enterBlocked c
  else if st = csFailed ∧ x.release ∧ events = 0 then s.enterBlocked c
  else if st = csLost ∧ up ∧ x.okRun ≥ 16 then s.enterBlocked c
  else if st = csRefused ∧ x.fresh ∧ x.loSeen ∧ x.hiSeen ∧ up then s.enterBlocked c
  else if st = csPrecharge then
    let go := x.vcap.ok && decide (s.getS F.CELL_GCFG_PRECHV ≤ x.vcap.val)
    let k := if go then x.prech + 1 else 0
    let s1 := s.setCell c { x with prech := k }
    if k ≥ 16 then (s1.giveUnitBack c).setCState c csReady else s1
  else s

/-- The head takes what arrived of cell `c` in this period (R176 to R179). On a standby the states and counts follow the active
(R326), so only the values are taken. -/
def State.takeRecord (s0 : State) (c : Nat) (r : Option GatherRec) : State :=
  let s := match r with
    | some x => s0.setCell c { s0.cell c with heard := x.words }
    | none => s0
  let good := match r with
    | some x => if s.recordValid c x then some x.words else none
    | none => none
  match good with
  | some ws =>
    let w := fun i => (ws.getD i 0).toNat
    let s1 := ws.zipIdx.foldl (fun t y => t.wr (F.CELL_MREC_WORD.addr c y.2) y.1) s
    let s2 := (s1.put F.CELL_STAT_HOLDCNT (bitsOf (w 4) 7 4) c).put F.CELL_STAT_EVENTS (bitsOf (w 5) 9 0) c
    let s3 := s2.feedRecord c ws
    if s3.drivesLanes then
      let s4 := s3.put F.CELL_ERR_RUN 0 c
      let s5 := s4.setCell c { s4.cell c with okRun := (s4.cell c).okRun + 1 }
      (s5.takeReply c (bitsOf (w 3) 27 24) (w 6)).recordMoves c (bitsOf (w 5) 9 0)
    else s3
  | none => if s.drivesLanes then (s.feedNone c).missCell c else s.feedNone c

/-! ### One lane (R39, R40, R147 to R154) -/

/-- Stage the measured offset of a lane that has passed 16 frames in ALIGN and has none acknowledged or on its way (R153), or that of a
served lane that has drifted by more than 2 ns over 256 periods (R150). It comes into force with the cell's ACK. A cell to which a
transaction is staging waits. DESIGN CHOICE (log entry 79): the filter of R150 is the mean of successive blocks of 256 valid measurements. -/
def State.offsetCell (s : State) (l c : Nat) (need : Nat) (b : Bool) : State :=
  let i := s.cPos c
  let key := if b then 16 + i else i
  let e := Sparse.get (fun _ => (0, 0)) (s.lane l).dsum key
  let gen := s.flag F.DML_STAT_GEN l
  let fo := if b then F.DML_OFFSB_OFFS else F.DML_OFFSA_OFFS
  let fv := if b then F.DML_OFFSB_VALID else F.DML_OFFSA_VALID
  if e.2 < need ∨ e.2 = 0 ∨ (s.cell c).sets.any (fun t => t.kind == .txn) then s
  else
    let v := offsetOf gen e.1 e.2
    let s1 := s.setLane l { s.lane l with dsum := Sparse.erase (s.lane l).dsum key }
    let pairs := [((if b then 0x21 else 0x20), BitVec.ofNat 32 v)]
    let kind := if b then SetKind.offsB else SetKind.offsA
    if s.lnState l = lnAlign then
      if s.flag fv l i ∨ (s.cell c).sets.any (fun t => t.kind == kind) then s else s1.stage c kind pairs
    else
      let diff : Int := (v : Int) - s.get fo l i
      if (diff.natAbs : Rat) > skewLimit then (s1.pulse Ev.LANE_SKEW c (ofSigned 32 diff)).stage c kind pairs else s1

/-- Offsets of every cell of a lane. -/
def State.offsetLane (s : State) (l need : Nat) : State :=
  (s.laneCells l).foldl (fun t c =>
    if t.cState c = csRefused then t
    else
      let t1 := t.offsetCell l c need false
      if t1.duplex then t1.offsetCell l c need true else t1) s

/-- Add a frame's measurements of d_i (R147): those of the driving head belong to OFFSA where head A drives and to OFFSB where head
B does, and those of the far end's loop, formed in the same way, to the other. -/
def State.measureLane (s : State) (l : Nat) (f : GatherRx) : State :=
  (s.laneCells l).foldl (fun t c =>
    let i := t.cPos c
    let k := t.wirePos c
    let (own, far) := if t.fromB then (16 + i, i) else (i, 16 + i)
    match f.recs[k]? with
    | some r =>
      let dp := bitsOf (r.words.getD 2 0).toNat 31 16
      let u := if t.recordValid c r ∧ dp ≠ 0xFFFF then t.setLane l ((t.lane l).addD own f.rtt16 dp) else t
      match f.farR, f.farDp[k]? with
      | some r2, some d2 => if t.duplex ∧ d2 ≠ 0xFFFF then u.setLane l ((u.lane l).addD far r2 d2) else u
      | _, _ => u
    | none => t) s

/-- The frame of a lane in ALIGN is checked for the round trip, and the first one for the record count (R18, R40, R153). After 16
frames in a row each offset is taken from those of them that brought a Dp_i. -/
def State.alignFrame (s : State) (l : Nat) (f : GatherRx) : State :=
  if (s.lane l).lenOk = false ∧ f.nrec ≠ s.laneLen l then (s.pulse Ev.STRING_LEN l f.nrec).enterLost l 5
  else if f.rttCt > s.get F.DML_RTT_LIMIT l then (s.pulse Ev.LANE_RTT l f.rttCt).enterLost l 6
  else
    let k := (s.lane l).passed + 1
    let s1 := s.setLane l { s.lane l with passed := k, lenOk := true }
    if !s.drivesLanes then s1
    else
      let s2 := s1.measureLane l f
      if k ≥ 16 then s2.offsetLane l 1 else s2

/-- A record of a lane has not come by T_OPEN (R39). -/
def State.gatherLate (s : State) (l : Nat) : State := (s.pulse Ev.GATHER_LATE l).errInc F.DML_GLATE_COUNT (1050 + l) l

/-- No frame of its own returned on a lane in this period (R154): all its records are late (R39), and in ALIGN the count of
consecutive frames starts afresh (R40). DESIGN CHOICE (log entry 79): only periods in which this head launched a gather frame count towards
LOSTN, so none on a standby. -/
def State.laneMiss (s : State) (l : Nat) : State :=
  if (s.lane l).launched then
    let x := (s.lane l)
    let k := x.missed + 1
    let again := s.lnState l == lnAlign && decide (x.passed < 16)
    let s1 := (s.setLane l { x with
      missed := k, passed := if again then 0 else x.passed, dsum := if again then [] else x.dsum }).gatherLate l
    if k ≥ s1.get F.DML_CFG_LOSTN l then s1.enterLost l 2 else s1
  else s

/-- A frame lacks a record at T_OPEN (R39). -/
def State.lacks (s : State) (l : Nat) (f : GatherRx) : Bool :=
  (List.range (s.laneLen l)).any fun k =>
    match f.recs[k]? with
    | some r => r.late
    | none => true

/-- What returned on a lane by T_OPEN: counters, the round trip of the last 16 frames, late records (R39), then the checks of
ALIGN or the measurement of SERVICE. A period without its own frame counts towards LOSTN (R154). -/
def State.laneOpen (s : State) (l : Nat) : State :=
  let st := s.lnState l
  if st ≠ lnAlign ∧ st ≠ lnService then s
  else match (s.lane l).rx with
    | some f =>
      if f.lane.toNat ≠ l then s.laneMiss l
      else
        let rtts := (f.rttCt :: (s.lane l).rtts).take 16
        let s1 := s.setLane l { s.lane l with missed := 0, rtts := rtts }
        let s2 := (s1.put F.DML_STAT_NREC (f.nrec % 32) l).put F.DML_RTT_RTT (rtts.foldl max 0) l
        let s3 := if s2.lacks l f then s2.gatherLate l else s2
        if st = lnAlign then s3.alignFrame l f
        else if s3.drivesLanes then (s3.measureLane l f).offsetLane l 256 else s3
    | none => s.laneMiss l

/-- A crosslink lane at T_OPEN (R154, R163): LOSTN periods without an ALIGN frame lose it. -/
def State.xlOpen (s : State) (l : Nat) : State :=
  let x := s.lane l
  if ¬s.duplex ∨ (s.lnState l ≠ lnAlign ∧ s.lnState l ≠ lnService) then s
  else if x.xlGot then s.setLane l { x with xlGot := false, missed := 0 }
  else
    let s1 := s.setLane l { x with missed := x.missed + 1, passed := if s.lnState l = lnAlign then 0 else x.passed }
    if x.missed + 1 ≥ s1.get F.DML_CFG_LOSTN l then s1.enterLost l 2 else s1

/-- The record of a cell in its lane's frame of this period; a lane without frames gives none. -/
def State.recOf (s : State) (c : Nat) : Option GatherRec :=
  match (s.lane (s.cLane c)).rx with
  | some f => if f.lane.toNat = s.cLane c then f.recs[s.wirePos c]? else none
  | none => none

/-- A cell whose lane brings frames this period: in ALIGN or SERVICE, on a head that drives with a gather frame launched. -/
def State.cellHeard (s : State) (c : Nat) : Bool :=
  (s.lnState (s.cLane c) == lnAlign || s.lnState (s.cLane c) == lnService) &&
    (!s.drivesLanes || (s.lane (s.cLane c)).launched)

/-- Every cell's record is taken at T_OPEN; cells of lanes without frames go without values. -/
def State.takeRecords (s : State) : State :=
  s.cellList.foldl (fun t c => if s.cellHeard c then t.takeRecord c (s.recOf c) else t.feedNone c) s

/-- Removals asked for by a host BYPASS or a block-cell reaction (R48, R187, R230). -/
def State.dueRemovals (s : State) : State :=
  let s1 := s.cellList.foldl (fun t c => if (t.cell c).bypassDue then t.removeOpen c else t) s
  let s2 := s1.evt.blockReq.foldl (fun t c => if removable (t.cState c) && !(t.cell c).leaving then t.removeOpen c else t) s1
  { s2 with evt := { s2.evt with blockReq := [] } }

/-- The part of T_OPEN that concerns lanes and cells (R38, R176, R230): cells that a boundary took out of RUN as LOST count as removed
in this period. -/
def State.openCells (s : State) : State :=
  let before := s.cellList.filter fun c => s.inService c || (s.cell c).wasRun
  let s0 := before.foldl (fun (t : State) c => t.setCell c { t.cell c with wasRun := false }) s
  let s1 := s0.takeRecords
  let s2 := [24, 25].foldl State.xlOpen ((List.range 24).foldl State.laneOpen s1)
  let s3 := s2.groupsUsed.foldl State.vcapSub s2
  if s3.drivesLanes then (s3.dueRemovals.rideThrough before).groupUnder else s3

/-- Mean IARM of a group in the snapshot stands below ISTOP (R234). -/
def State.belowStop (s : State) (g : Nat) : Bool :=
  decide (((listVal s.ce.snap.agg (8 * g + 3)).1).natAbs < s.get F.MVS_STOP_ISTOP * 65536)

/-- The controlled stop blocks the RUN cells in the frame of this period (R234). -/
def State.stopBlock (s : State) : State := { s with ce := { s.ce with stopBlk := true } }

end Sys2Proof.Machine
end

