-- ==== Sys2Proof/Machine/RedOps.lean ====
section
/-! DEFINITION. Duplex and triplex (R318 to R344): roles, alignment, the crosslink segments, takeover and swap, and the masking of
a slice. -/

namespace Sys2Proof.Machine

/-! ### Roles (R321 to R323) -/

def roleNone : Nat := 0
def roleElect : Nat := 1
def roleActive : Nat := 2
def roleAlign : Nat := 3
def roleSync : Nat := 4
def roleReady : Nat := 5
def roleResigned : Nat := 7

def State.role (s : State) : Nat := s.get F.RED_STAT_ROLE
def State.setRole (s : State) (r : Nat) : State := s.put F.RED_STAT_ROLE r

/-- The roles of a standby (R322). -/
def State.isStandby (s : State) : Bool := s.role == roleAlign || s.role == roleSync || s.role == roleReady

/-- In step with the active: the roles of R326. -/
def State.inStep (s : State) : Bool := s.role == roleSync || s.role == roleReady

/-- A crosslink lane is in SERVICE. -/
def State.xlUp (s : State) (x : Nat) : Bool := s.lnState (24 + x) == lnService

/-- A standby goes back to ALIGN (R324, R328). -/
def State.toAlign (s : State) : State :=
  let t := s.setRole roleAlign
  { t with red := { t.red with alignOk := 0, alignBad := 0, agree := 0, copied := false, stepped := false, copyDue := [] } }

/-- A standby enters SYNC and the state copy starts (R324, R328); EMAX is that of |e| from then on (R344). -/
def State.toSync (s : State) : State :=
  let t := ((s.setRole roleSync).put F.RED_STAT_SYNCPCT 0).put F.RED_ALIGN_EMAX 0
  { t with red := { t.red with alignBad := 0, agree := 0, copied := false, copyN := 0, copyDue := [] } }

/-! ### Alignment (R324) -/

/-- The period of a frame is the receiver's own (R325). -/
def State.ownPeriod (s : State) (h : XlHead) : Bool := s.period % 2 ^ 32 == h.period.toNat

/-- The first valid copy of a frame type counts in a period, the other lane's is dropped (R163, R325). -/
def State.firstCopy (s : State) (x : Nat) (f : State → State) : State :=
  if s.red.got.contains x then s else f { s with red := { s.red with got := x :: s.red.got } }

/-- The crosslink shows the peer's role: the active reports once that it has come to RESIGNED (R333). -/
def State.peerShows (s : State) (role : Nat) : State :=
  let gone := role == roleResigned
  let t : State := { s with red := { s.red with peerGone := gone } }
  if gone ∧ ¬s.red.peerGone ∧ s.role = roleActive then t.pulse Ev.RED_PEER else t

/-- |e| in 1/16 CT that lets a standby into SYNC (5 ns) and that sends it back (10 ns). -/
def alignIn : Int := 48
def alignOut : Int := 96

/-- A standby moves its boundary: in ALIGN one step by −e, then steering of the CPLL within 50 ppm that holds e at zero (R324). DEDUCED (log
entry 75): e is how much head B lies behind head A, so on head A, which lies e before B, both take the other sign. -/
def State.alignSteer (s : State) (e : Int) : State :=
  let own := if s.flag F.RED_STAT_HEADID then e else -e
  let s1 : State := if s.role = roleAlign ∧ ¬s.red.stepped then
      { s with
        bnd := ((s.bnd : Int) - roundHalfAway (mkRat own 16)).toNat
        red := { s.red with stepped := true, phase := s.red.phase - own } }
    else s
  s1.putS F.CLK_CSTEER_STEER (clampI (-50000) 50000 (Config.alignSteer own))

/-- Evaluate e from the two arrival times, twice its value (R324). -/
def State.alignEval (s : State) (e2 : Int) : State :=
  let e := roundHalfAway (mkRat e2 2)
  let a := e2.natAbs
  let s1 := (s.putS F.RED_ALIGN_E e).alignSteer e
  let s2 := if s1.inStep then
      s1.put F.RED_ALIGN_EMAX (min 0xFFFF (max (s1.get F.RED_ALIGN_EMAX) e.natAbs)) else s1
  if s2.role = roleAlign then
    let k := if (a : Int) ≤ 2 * alignIn then s2.red.alignOk + 1 else 0
    let s3 : State := { s2 with red := { s2.red with alignOk := k } }
    if k ≥ 256 then s3.toSync else s3
  else if s2.inStep then
    let k := if (a : Int) > 2 * alignOut then s2.red.alignBad + 1 else 0
    let s3 : State := { s2 with red := { s2.red with alignBad := k } }
    if k ≥ 16 then (s3.pulse Ev.RED_ALIGN).toAlign else s3
  else s2

/-- e of a standby: m_A is the arrival at head A. -/
def State.alignStep (s : State) : State :=
  match s.red.ownM, s.red.peerM with
  | some own, some peer =>
    let e2 := if s.flag F.RED_STAT_HEADID then peer - own else own - peer
    ({ s with red := { s.red with ownM := none, peerM := none, measured := true } } : State).alignEval e2
  | _, _ => s

/-- An ALIGN frame is stamped. A standby in ALIGN takes over the period number. -/
def State.xlAlign (s : State) (h : XlHead) (m16 : Int) (peerReady : Bool) : State :=
  if s.duplex then
    s.firstCopy 0 fun t =>
      let u := t.putB F.RED_STAT_PEERRDY peerReady
      let u : State := if u.role = roleAlign then { u with period := u.period / 2 ^ 32 * 2 ^ 32 + h.period.toNat } else u
      let v : State := { u with red := { u.red with ownM := some m16 } }
      if v.isStandby then v.alignStep else v
  else s

/-- A period ends without a measured e: the runs of consecutive periods of R324 are broken, and that of R328 where no STATE segment
came. -/
def State.breakRuns (s : State) : State :=
  { s with red := { s.red with
    alignOk := if s.red.measured then s.red.alignOk else 0, alignBad := if s.red.measured then s.red.alignBad else 0
    agree := if s.red.got.contains 2 then s.red.agree else 0 } }

/-! ### The STATE segment (R326, R328) -/

/-- CRC-32C over CE_OUT (R325). -/
def State.ceCrc (s : State) : Word :=
  BitVec.ofNat 32 (crc32c (bytesOf ((List.range 2048).map fun n => s.rd (F.CE_OUT_WORD.addr n))))

/-- A cell's state and the counts of R176 and R177 as the STATE segment gives them (R326). A record is missing only where the cell's lane
brings frames. Compensation follows the state as the active keeps it (R231). -/
def State.adoptCell (s : State) (c st : Nat) (valid : Bool) : State :=
  let was := s.cState c
  let x := s.cell c
  let k := if st = csLost ∧ was ≠ csLost then 0 else x.okRun
  let comp := if st = csRun ∨ st = csSpare then (st = was && x.eng.comp) else x.eng.comp || was == csRun
  let t := (s.setCState c st).setCell c { x with eng := { x.eng with comp := comp } }
  if valid then (t.put F.CELL_ERR_RUN 0 c).setCell c { t.cell c with okRun := k + 1 }
  else if t.cellHeard c then
    ((t.errInc F.CELL_ERR_INVALID (1098 + c) c).satIncF F.CELL_ERR_RUN c).setCell c { t.cell c with okRun := 0, prech := 0 }
  else t.setCell c { t.cell c with okRun := k }

/-- The two digests are compared (R328); agreement for four periods after a complete copy makes a standby READY. -/
def State.compareCrc (s : State) (same : Bool) : State :=
  if same then
    let s1 : State := { s with red := { s.red with agree := s.red.agree + 1 } }
    if s1.role = roleSync ∧ s1.red.copied ∧ s1.red.agree ≥ 4 ∧ s1.xlUp 0 ∧ s1.xlUp 1 then s1.setRole roleReady else s1
  else
    let s1 := (s.pulse Ev.RED_DIVERGE).errInc F.RED_DIVCNT_COUNT 1471
    let s2 : State := { s1 with red := { s1.red with agree := 0 } }
    if s2.role = roleReady then s2.toSync else s2

/-- A STATE segment of the own period reaches a standby. -/
def State.xlState (s : State) (f : XlState) : State :=
  if !s.isStandby || (s.role ≠ roleAlign ∧ s.ownPeriod f.seg.head = false) then s
  else s.firstCopy 2 fun s =>
    let s0 : State := { s.putB F.RED_STAT_PEERRDY (f.role.toNat == roleReady) with red := { s.red with peerM := some f.mA } }
    let s1 := if s0.inStep then
        let t := s0.cellList.foldl (fun (u : State) c => u.adoptCell c (f.cells.getD c 0) (f.valid.getD c false)) s0
        t.groupsUsed.foldl (fun (u : State) g => u.setGroup g { u.group g with
          dir := if f.dir.getD g false then -1 else 1, lastPol := if f.pol.getD g false then -1 else 1 }) t
      else s0
    let s2 := if s1.inStep then s1.compareCrc (s1.ceCrc == f.ceCrc && s1.rd F.SYS_CFGCRC_CRC.base == f.cfgCrc) else s1
    s2.alignStep

/-! ### INPUT and COPY segments (R326, R328) -/

/-- The INPUT segment of the own period is the snapshot of what is no cell record. -/
def State.xlInput (s : State) (f : XlInput) : State :=
  if s.inStep ∧ s.ownPeriod f.seg.head ∧ ¬s.red.takeDue then
    s.firstCopy 1 fun t =>
      { t with
        ce := { t.ce with xlIn := some { fast := f.fast, hk := f.hk, net := f.net, therm := f.therm, safe := f.safe } }
        red := { t.red with safe0 := f.safe == 0 } }
  else s

/-- The engine quantities of a cell that a copy may write, by index. -/
def CellEng.copyAt (x : CellEng) (i : Nat) (v : Int) : CellEng :=
  match i with
  | 0 => { x with vf := v }
  | 1 => { x with vhat := v }
  | 2 => { x with e := v }
  | 3 => { x with ff := v }
  | 4 => { x with dPrev := v }
  | 5 => { x with dNow := v }
  | 6 => { x with dNext := v }
  | 7 => { x with duty := v }
  | 8 => { x with pNow := v }
  | 9 => { x with pNext := v }
  | _ => x

/-- One entry of a COPY segment is written over the standby's own state. -/
def State.copyEntry (s : State) (a : Nat) (v : Int) : State :=
  match Config.copyBlk a with
  | some (n, i) =>
    let l := Sparse.get (fun _ => []) s.ce.blk n
    let l1 := List.set l i v
    { s with ce := { s.ce with blk := Sparse.set (fun _ => []) s.ce.blk n l1 } }
  | none =>
    match Config.copyCell a with
    | some (c, i) => s.setCell c { s.cell c with eng := (s.cell c).eng.copyAt i v }
    | none => s

/-- The COPY entries at hand are written over the own state (R328). -/
def State.copyWrite (s : State) : State :=
  if s.role = roleSync ∧ s.red.copyDue ≠ [] ∧ ¬s.red.copied then
    let s1 := s.red.copyDue.foldl (fun (u : State) x => u.copyEntry x.1 x.2) s
    let n := s1.red.copyN + s1.red.copyDue.length
    let last := s1.red.copyLast
    let s2 : State := { s1 with red := { s1.red with copyN := n, copied := last, copyDue := [] } }
    s2.put F.RED_STAT_SYNCPCT (if last then 100 else min 99 (Config.copyPct n))
  else s

/-- A COPY segment of the own period reaches a standby in SYNC: its entries, at most 128, are written at the end of the window, or at once
where that has passed. -/
def State.xlCopy (s : State) (h : XlHead) (entries : List (Nat × Int)) (last : Bool) : State :=
  if s.role = roleSync ∧ s.ownPeriod h ∧ ¬s.red.copied ∧ entries.length ≤ 128 then
    s.firstCopy 3 fun t =>
      let u : State := { t with red := { t.red with copyDue := entries, copyLast := last } }
      if u.red.winEnd then u.copyWrite else u
  else s

/-! ### RESIGN, takeover and swap (R332 to R338, R343) -/

/-- RESIGN of the peer has arrived, over the pin or over the crosslink. -/
def State.peerResigned (s : State) : State :=
  let s0 : State := { s with red := { s.red with swapAt := none } }
  if s.role = roleReady then
    if s.red.takeDue then s0 else { s0 with red := { s0.red with takeDue := true, bSeen := false, arrival := s.ct } }
  else if s.role = roleAlign ∨ s.role = roleSync then s0.pulse Ev.RED_NOTAKE
  else if s.role = roleActive then s0.pulse Ev.RED_PEER
  else s

/-- A change of filtered RESIGN_I (R321, R323, R334). -/
def State.resignInput (s : State) (level : Bool) : State :=
  let was := s.flag F.RED_STAT_RESIGNI
  let t := s.putB F.RED_STAT_RESIGNI level
  if !s.duplex then t
  else if level ∧ ¬was then t.peerResigned
  else if ¬level ∧ s.role = roleElect then t.toAlign
  else t

/-- The head begins to drive (R323, R334, R338): the pad is pulled low, and its period lock begins to pull where the servo is LOCKED (R334). -/
def State.startDriving (s : State) : State :=
  let t := s.setRole roleActive
  let u : State := { t with red := { t.red with pad := true, takeDue := false, bSeen := false, drivenAt := s.ct } }
  if u.servoLocked then u.lockPull else u

/-- RESIGN_I has been high long enough in ELECT (R323). -/
def State.electDone (s : State) : State :=
  if s.role = roleElect ∧ s.flag F.RED_STAT_RESIGNI then s.startDriving else s

/-- Both crosslink lanes are lost (R328). -/
def State.xlBothLost (s : State) : State :=
  if s.duplex ∧ ¬s.xlUp 0 ∧ ¬s.xlUp 1 then
    let t := s.pulse Ev.XL_DOWN
    if t.isStandby then t.toAlign else t
  else s

/-- Least common multiple of every M of R255 in use. -/
def State.lcmM (s : State) : Nat :=
  (List.range 18).foldl (fun a n => if s.chanUsed n then Nat.lcm a (s.reloadM n) else a) 1

/-- Period h of a swap asked for now (R338). -/
def State.swapPeriod (s : State) : Nat := (s.period / s.lcmM + 2) * s.lcmM

/-- The conditions of R338 for SWAP. -/
def State.swapAllowed (s : State) : Bool :=
  s.role == roleActive && !s.whiteout && s.flag F.RED_STAT_PEERRDY && s.xlUp 0 && s.xlUp 1 &&
    (s.get F.SYS_TXNSTAT_STATE == 0 || s.get F.SYS_TXNSTAT_STATE ≥ 5)

/-- Boundary h (R338): the roles change; the peer takes over under R334, in whiteout where R350 has it. -/
def State.swapNow (s : State) : State :=
  let t : State := { s with red := { s.red with swapAt := none } }
  if s.role = roleActive ∨ s.role = roleReady then
    let u := if s.role = roleActive then
        let a := t.setRole roleReady
        { a with red := { a.red with pad := false, drivenAt := s.ct, copied := true } }
      else
        let d := t.startDriving
        if s.red.safe0 then d.setWhiteout Config.takeoverClass 0 else d
    ((u.put F.RED_TOVER_PERIOD s.period).errInc F.RED_CNT_SWAPS 1474).pulse Ev.RED_SWAP
  else t

/-! ### Slices (R339 to R342) -/

def slVoted : Nat := 0
def slMasked : Nat := 1
def slReint : Nat := 2
def slFailed : Nat := 3

def State.slState (s : State) (n : Nat) : Nat := s.get F.RED_SLSTAT_STATE n
def State.slice (s : State) (n : Nat) : Slice := Sparse.get (fun _ => {}) s.red.slices n
def State.setSlice (s : State) (n : Nat) (x : Slice) : State :=
  { s with red := { s.red with slices := Sparse.set (fun _ => {}) s.red.slices n x } }

/-- Slices that are voted in this period. -/
def State.votedSlices (s : State) : List Nat := (List.range 3).filter fun n => s.slState n == slVoted

/-- A slice is a minority on an item (R340, R342). -/
def State.minority (s : State) (n kind index : Nat) : State :=
  let keep := (s.ct :: (s.slice n).recent).filter fun t => decide (s.ct - t < s.get F.RED_TCFG_REINTWIN * 600000000)
  let s1 := (s.setSlice n { recent := keep, since := s.period }).put F.RED_SLSTAT_RECENT (min 255 keep.length) n
  let s2 := (s1.errInc F.RED_SLSTAT_MINORITY (1475 + n) n).put F.RED_VOTE_PERIOD s.period
  let s3 := ((s2.put F.RED_VOTEITEM_SLICE n).put F.RED_VOTEITEM_KIND kind).put F.RED_VOTEITEM_INDEX index
  let s4 := s3.pulse Ev.RED_MINORITY n (kind * 512 + index)
  if keep.length > s4.get F.RED_TCFG_REINTMAX then (s4.put F.RED_SLSTAT_STATE slFailed n).pulse Ev.RED_SLICEFAIL n
  else s4.put F.RED_SLSTAT_STATE slMasked n

/-- At a boundary a masked slice begins to run unvoted (R340). -/
def State.sliceBoundary (s : State) : State :=
  (List.range 3).foldl (fun (t : State) n => if t.slState n = slMasked then t.put F.RED_SLSTAT_STATE slReint n else t) s

/-- Minorities of a slice within REINTWIN of the present tick (R342). -/
def State.recentNow (s : State) (n : Nat) : Nat :=
  ((s.slice n).recent.filter fun t => decide (s.ct - t < s.get F.RED_TCFG_REINTWIN * 600000000)).length

/-- Three copy periods have passed: from the fourth period after the one that masked it a slice is voted again (R340). -/
def State.sliceBack (s : State) (n : Nat) : State :=
  if s.slState n = slReint ∧ (s.slice n).since + 4 ≤ s.period then (s.put F.RED_SLSTAT_STATE slVoted n).pulse Ev.RED_REINT n else s

end Sys2Proof.Machine
end

