-- ==== Sys2Proof/Machine/SecOps.lean ====
section
/-! DEFINITION. FREEZE (R87 to R89, R456), transaction aborts (R79, R81, R82), the reset (R93, R116), the fault summary (R127, R128),
resignation (R124, R332, R333, R347), and the end of every command: counting what it raised and carrying out whiteout and resign
reactions (R45 to R51). -/

namespace Sys2Proof.Machine

/-! ### FREEZE (R89, R456) -/

/-- A run of counters in the snapshot: first entry, field, instances, entries from one instance to the next, and whether the counter
wraps (R456). -/
structure FrzRun where
  first : Nat
  fld : Fld
  n : Nat
  step : Nat := 1
  wrap : Bool := false

/-- Counters of R456 but the event counts and GDI_CTCNT. -/
def frzRuns : List FrzRun := [
  ⟨1024, F.DML_CODEERR_COUNT, 26, 1, false⟩, ⟨1050, F.DML_GLATE_COUNT, 24, 1, false⟩,
  ⟨1074, F.DML_FLAKES_COUNT, 24, 1, true⟩, ⟨1098, F.CELL_ERR_INVALID, 288, 1, false⟩,
  ⟨1386, F.CE_DLCNT_COUNT, 1, 1, false⟩, ⟨1387, F.CE_ECCCNT_COUNT, 1, 1, false⟩, ⟨1388, F.CE_SATCNT_COUNT, 1, 1, false⟩,
  ⟨1389, F.CE_ARBCHG_COUNT, 1, 1, false⟩, ⟨1390, F.MVS_SWCNT_COUNT, 6, 1, false⟩, ⟨1396, F.ISO_REVCNT_COUNT, 1, 1, false⟩,
  ⟨1397, F.LVS_REJCNT_COUNT, 18, 1, false⟩, ⟨1415, F.ADC_FERR_COUNT, 24, 1, false⟩, ⟨1439, F.CMP_CNT_UCNT, 16, 1, false⟩,
  ⟨1455, F.CMP_CNT_LCNT, 16, 1, false⟩, ⟨1471, F.RED_DIVCNT_COUNT, 1, 1, false⟩, ⟨1472, F.RED_XERR_COUNT, 1, 1, false⟩,
  ⟨1473, F.RED_CNT_TAKEOVERS, 1, 1, false⟩, ⟨1474, F.RED_CNT_SWAPS, 1, 1, false⟩, ⟨1475, F.RED_SLSTAT_MINORITY, 3, 1, false⟩,
  ⟨1478, F.SAF_TGCNT_SINGLES, 4, 3, false⟩, ⟨1479, F.SAF_TGCNT_BAD, 4, 3, false⟩, ⟨1480, F.SAF_TGCNT_DISAGREE, 4, 3, false⟩,
  ⟨1490, F.NET_PSTAT_DROP, 3, 1, false⟩, ⟨1493, F.NET_PSTAT_FCS, 3, 1, false⟩, ⟨1496, F.NET_RXCNT_COUNT, 3, 1, true⟩,
  ⟨1499, F.NET_RAPERR_AUTH, 1, 1, false⟩, ⟨1500, F.NET_RAPERR_REPLAY, 1, 1, false⟩, ⟨1501, F.NET_DERR_COUNT, 2, 1, false⟩,
  ⟨1503, F.ACQ_EVCNT_COUNT, 1, 1, false⟩, ⟨1504, F.ACQ_MCNT_COUNT, 8, 1, false⟩, ⟨1513, F.SYS_CFGSTAT_PASSES, 1, 1, true⟩,
  ⟨1514, F.SYS_CFGSTAT_SKIP, 1, 1, false⟩]

/-- The two words of a holding entry (R89). -/
def frzWords (v top : Nat) (wrap : Bool) : Word × Word :=
  (BitVec.ofNat 32 v, if wrap then 2 else if v = top then 1 else 0)

/-- Put one holding entry. -/
def State.frzPut (s : State) (e : Nat) (w : Word × Word) : State :=
  (s.wr (F.SYS_FRZ_WORD.addr e 0) w.1).wr (F.SYS_FRZ_WORD.addr e 1) w.2

/-- The registers as the present control tick began. -/
def State.atTick (s : State) : State := { s with regs := s.ctRegs, evt := { s.evt with regs := s.ctEvt } }

/-- The snapshot of every counter (R89): event counts first, then the counters of R456. What was counted or cleared in the control tick
of the FREEZE comes after it (R90). -/
def State.freeze (s : State) : State :=
  let s1 := (List.range 1024).foldl (fun (t : State) e =>
    t.frzPut e (frzWords (s.atTick.evt.get F.EVT_CNT_CNT e) 0xFFFFFFFF false)) s
  let s2 := frzRuns.foldl (fun (t : State) r => (List.range r.n).foldl (fun (u : State) i =>
    u.frzPut (r.first + r.step * i) (frzWords (s.atTick.get r.fld i) (r.fld.size - 1) r.wrap)) t) s1
  let s3 := s2.frzPut 1512 (frzWords s.ctcnt 0 true)
  ((s3.put F.SYS_FRZSTAT_VALID 1).put F.SYS_FRZSTAT_CT s.ctInPeriod).put F.SYS_FRZPER_PERIOD s.period

/-! ### Transactions that end ABORTED (R79, R81, R82) -/

/-- States of SYS_TXNSTAT. -/
def txIdle : Nat := 0
def txOpen : Nat := 1
def txPrepare : Nat := 2
def txActivate : Nat := 3
def txRef : Nat := 4
def txDone : Nat := 5
def txAborted : Nat := 6

def State.txState (s : State) : Nat := s.get F.SYS_TXNSTAT_STATE

/-- A transaction is open, committing or in its reference pass. -/
def State.txBusy (s : State) : Bool := decide (1 ≤ s.txState) && decide (s.txState ≤ 4)

/-- Discard words to a cell that was given prepared settings: HOLDMAX + 1 records (R79). -/
def State.discardCell (s : State) (c : Nat) : State :=
  let x := s.cell c
  match x.sets.find? fun t => t.kind == .txn with
  | some t => s.setCell c { x with
      sets := x.sets.filter (fun t => t.kind != .txn), discard := s.prm c 0 + 1, discTag := t.tag }
  | none => s

/-- End the transaction in ABORTED with a cause: 1 HOST, 2 NOACK, 3 IDLE, 4 FULL, 5 RESET, 6 SWITCH. -/
def State.txAbort (s : State) (cause : Nat) : State :=
  let s1 := if s.txState = txPrepare ∨ s.txState = txActivate then s.bus.txn.affected.foldl State.discardCell s else s
  let s2 := (s1.put F.SYS_TXNSTAT_STATE txAborted).put F.SYS_TXNSTAT_CAUSE cause
  { s2 with bus := { s2.bus with txn := {} } }

/-- A resign or a switch-over before the point of no return (R82). -/
def State.txSwitch (s : State) : State :=
  if s.txBusy && s.txState != txRef && !s.bus.txn.passed then s.txAbort 6 else s

/-! ### The fault summary (R127, R128) -/

/-- Register words from an address as bytes. -/
def State.regBytes (s : State) (a n : Nat) : List Byte := bytesOf ((List.range n).map fun i => s.rd (a + 4 * i))

/-- Time as the summary carries it: bit 63 is set while the servo is not LOCKED. -/
def State.tai (s : State) : Nat := s.netNow % 2 ^ 63 + (if s.servoLocked then 0 else 2 ^ 63)

/-- The summary's bytes before its CRC (R128). DESIGN CHOICE (log entry 24): the 64 bytes of status of a lane are the first sixteen words
of its DML registers. -/
def State.summary (s : State) (cause : Nat) : List Byte :=
  let head : List Byte := [0x4C, 0x59, 0x46, 0x53]
  head ++ leBytes 4 cause ++ leBytes 8 s.period ++ leBytes 8 s.tai
    ++ leBytes 4 ((s.evt.get F.EVT_LOGSEQ_SEQ + 2 ^ 32 - 1) % 2 ^ 32) ++ leBytes 4 s.nv.bootCnt ++ List.replicate 224 0
    ++ s.regBytes 0x4000 4096
    ++ (List.range 288).flatMap (fun c => s.regBytes (F.CELL_MREC_WORD.addr c 0) 8)
    ++ (List.range 288).flatMap (fun c => s.regBytes (F.CELL_CREC_WORD.addr c 0) 8)
    ++ (List.range 24).flatMap (fun l => s.regBytes (0x90000 + 0x1000 * l) 16)
    ++ List.replicate 28924 0

/-- Write the fault summary. -/
def State.writeSummary (s : State) (cause : Nat) : State :=
  let bs := s.summary cause
  s.mramPut 0x2000 (bs ++ leBytes 4 (crc32c bs))

/-- VALID and BOOT of SEC_FSUM, from MRAM. -/
def State.fsumWord (s : State) : Word :=
  let bs := s.mramGet 0x2000 0xFFFC
  let ok := leAt bs 0 4 == 0x5346594C && leValue (s.mramGet 0x11FFC 4) == crc32c bs
  BitVec.ofNat 32 ((if ok then 2 ^ 31 else 0) + leAt bs 0x1C 4 % 2 ^ 31)

/-! ### Reset (R93, R94, R116) -/

/-- The counts that MRAM holds (R47, R53). -/
def State.mramCount (s : State) (e : Nat) : Word := BitVec.ofNat 32 (leValue (s.mramGet (0x1000 + 4 * e) 4))

/-- The real-time counter now: 32.768 kHz ticks (R421). -/
def State.rtcNow (s : State) : Nat := s.aon.rtc + s.ct * 32768 / 600000000

/-- A reset other than application of power meets a transaction before its point of no return (R82). -/
def State.txResets (s : State) (cause : Nat) : Bool :=
  cause != 1 && s.txBusy && s.txState != txRef && !s.bus.txn.passed

/-- The event fabric after a reset: the counts of MRAM, the log's position and a marker entry (R46, R53, R55). -/
def State.bootEvt (s : State) (cause boot : Nat) : Evt :=
  let marker : LogEntry := ⟨0, 0, 0x3FF, 0, 2, false, 0, s.nv.logSeq, BitVec.ofNat 32 cause, BitVec.ofNat 32 boot⟩
  let e0 : Evt := { queue := [marker] }
  let e1 := (e0.put F.EVT_LOGWP_IDX s.nv.logWp).put F.EVT_LOGSEQ_SEQ (s.nv.logSeq + 1)
  (List.range 1024).foldl (fun (e : Evt) n =>
    if s.mramCount n = 0 then e else e.wr (F.EVT_CNT_CNT.addr n) (s.mramCount n)) e1

/-- Every register at its reset value and the volatile memories gone; OTP, MRAM, flash and the always-on domain are kept, and the
boot is counted. DESIGN CHOICE (log entry 4): VBAT is taken as never lost, so the always-on domain survives every reset and power-on. -/
def State.cleared (s : State) (cause : Nat) : State :=
  let boot := satInc 0xFFFFFFFF s.nv.bootCnt
  { evt := s.bootEvt cause boot, ctEvt := (s.bootEvt cause boot).regs, otp := s.otp, aon := { s.aon with rtc := s.rtcNow }, pins := s.pins
    nv := { s.nv with bootCnt := boot }, mram := s.mram, flash := s.flash, free := s.free, pending := s.pending }

/-- What a reset leaves (R93, R116). A transaction before its point of no return reads ABORTED with cause RESET (R82). -/
def State.hardReset (s : State) (cause : Nat) : State :=
  let t1 := (((s.cleared cause).put F.SEC_RSTCAUSE_CAUSE cause).put F.SEC_STATE_LCS s.otp.lcs).putB F.RED_STAT_HEADID s.pins.headsel
  if s.txResets cause then (t1.put F.SYS_TXNSTAT_STATE txAborted).put F.SYS_TXNSTAT_CAUSE 5 else t1

/-! ### Resignation (R124, R332, R333, R347) -/

/-- The pump, the forces and BRK as a resign leaves them; latches and counts stay (R263, R293, R333). -/
def State.resignOutputs (s : State) : State :=
  let s1 := (List.range 18).foldl (fun (t : State) n => t.put F.LVS_PWM_STAT_FORCE 0 n) (s.put F.LVS_STAT_FORCED 0)
  let s2 := ((s1.pumpUnqueue.setPump (if s.puState = pumpLatched then pumpLatched else pumpOff)).setBrk false).put F.GDI_RETRYSTAT_WAITING 0 0
  let s3 : State := { s2 with pump := { s2.pump with ovBrake := false, step := 0, cut := false } }
  (s3.dropScope (2 ^ 18 - 1)).refreshAll

/-- RESIGNED is entered (R124): snapshot, captures closed, summary written. -/
def State.enterResigned (s : State) (cause : Nat) : State :=
  let s1 := s.freeze.acqResign.txSwitch
  let s2 := s1.put F.SEC_RESIGN_CAUSE cause
  let tmo := s2.get F.SEC_RESIGNTO_SEC
  let s3 := (s2.put F.SEC_RESIGN_LEFT tmo).putB F.SEC_RESIGN_NOTO (tmo == 0)
  let s4 := (s3.writeSummary cause).put F.SEC_STATE_HSTATE 3
  let s5 := if s4.duplex then s4.setRole roleResigned else s4
  { s5 with sec := { s5.sec with holdFrames := none, resignedAt := s5.ct } }.resignOutputs

/-- A resign condition is met (R332, R333). In SIMPLEX and TRIPLEX it is a whiteout whose block-all frames go out for two periods
before RESIGNED (R347). -/
def State.doResign (s : State) (cause src : Nat) : State :=
  if s.get F.SEC_STATE_HSTATE ≠ 2 ∨ s.sec.holdFrames.isSome then s
  else
    let s1 := s.pulse Ev.RED_RESIGN (if cause = 0x87 then src else 0) cause
    let s2 := ({ s1 with red := { s1.red with
      pad := false, swapAt := none, takeDue := false, drivenAt := if s1.drivesLanes then s1.ct else s1.red.drivenAt } } : State).txSwitch
    if !s2.duplex then
      let s3 := (s2.put F.SEC_RESIGN_CAUSE cause).resignOutputs.setWhiteout 0xB cause
      { s3 with sec := { s3.sec with holdFrames := some 2 } }
    else if s2.role = roleActive ∧ ¬s2.red.sentReady then (s2.enterResigned cause).setWhiteout 0xB cause
    else s2.enterResigned cause

/-! ### The end of a command -/

/-- What the occurrences of a round offer to the recorders: each enabled source once for each occurrence. -/
def Evt.offers (e : Evt) : List (Nat × Nat × Bool) :=
  (e.raised.filter fun x => e.enabled x.1).map fun x => (3, x.1, false)

/-- A trace trigger on an event source (R214). -/
def State.traceOnEvent (s : State) : State :=
  if s.get F.CE_TRTRIG_SRC = 2 ∧ s.evt.raised.any (fun x => x.1 == s.get F.CE_TRTRIG_EV && s.evt.enabled x.1) then
    { s with ce := { s.ce with trigDue := true } }
  else s

/-- One round: count and react, offer to the recorders, then carry out a whiteout and a resign that were asked for (R51). -/
def State.settleRound (s : State) : State :=
  let q := s.evt.offers
  let s1 := (s.traceOnEvent.countRaised).offer q 13
  let s2 := match s1.evt.woReq with
    | some (cls, idx) => ({ s1 with evt := { s1.evt with woReq := none } } : State).setWhiteout cls idx
    | none => s1
  match s2.evt.resignReq with
  | some (cause, src) => ({ s2 with evt := { s2.evt with resignReq := none } } : State).doResign cause src
  | none => s2

/-- Nothing of a command is left to carry out. -/
def State.settled (s : State) : Bool := s.evt.raised.isEmpty && s.evt.woReq.isNone && s.evt.resignReq.isNone

/-- Rounds until nothing is left, at most `n`. -/
def State.settleN : Nat → State → State
  | 0, s => s
  | n + 1, s => if s.settled then s else State.settleN n s.settleRound

/-- The end of every command; its notifications leave (R389). Each recorder can fire once and each fire can raise a few sources, so twelve rounds reach the end; what
would still be left is dropped. -/
def State.settle (s : State) : State :=
  let t := (s.settleN 12).sendNotifies
  { t with evt := { t.evt with raised := [], woReq := none, resignReq := none, notifies := [] } }

/-- A command is done: its end is carried out. -/
def State.done (s : State) : Host.Outcome State Fault Refusal := .next s.settle

end Sys2Proof.Machine
end

