-- ==== Sys2Proof/Machine/ImageOps.lean ====
section
/-! DEFINITION. Boot (R92 to R113): the slots, verification, the section stream, the apply and the content checks. The sections whose
payload the spec gives no byte layout are read by decoders with no body. -/

namespace Sys2Proof.Machine

/-! ### Decoders of payloads without a byte layout (R101) -/

/-- PLANT, PERIOD and STRINGS: none where a field is missing. -/
opaque Config.decodePlant : List Byte → Option Plant
opaque Config.decodePeriod : List Byte → Option PeriodCfg
opaque Config.decodeStrings : List Byte → Option Strings

/-- Register values that a section of a type carries: EQTAB, SAFETY, NET, LVTAB, ACQ. -/
opaque Config.sectionRegs : Nat → List Byte → Option (List (Nat × Word))

/-- The network keys that a NET section carries, by slot. -/
opaque Config.sectionKeys : List Byte → Sparse (List Byte)

/-- The multicast addresses that a NET section lists (R357). -/
opaque Config.sectionMcast : List Byte → List Nat

/-- The strings and confRev of the GOOSE publications that a NET section gives (R386), in their order. -/
opaque Config.sectionPubs : List Byte → List PubId

/-- The source of the rail voltage of an image with DCRAIL = 0b1 (R218), as a code of R197. Which of the graph's sources it is has no
layout in the spec. -/
opaque Config.railSource : List (Nat × List Byte) → Option Nat

/-! ### The outer header (R95 to R99) -/

/-- The size of a slot, and where slot `k` starts in flash (R96). -/
def State.slotSize (s : State) : Nat := s.pins.density / 2
def State.slotBase (s : State) (k : Nat) : Nat := k * s.slotSize

/-- The outer header of slot `k`. -/
def State.hdr (s : State) (k : Nat) : List Byte := s.flashGet (s.slotBase k) 256

/-- A header that passes in a slot of `size` bytes (R106 step 1). DESIGN CHOICE (log entry 24): a CTLEN that is no multiple of 16 or lies below
64 (R99) fails here too, which step 1 does not list. -/
def hdrOk (size : Nat) (h : List Byte) : Bool :=
  leAt h 0 4 == 0x4D49594C && leAt h 4 2 == 2 && leAt h 6 2 == 256 && leAt h 0xFC 4 == crc32c (h.take 0xFC) &&
    leAt h 0x14 4 == leAt h 0x18 4 + 5632 && leAt h 0x14 4 ≤ size && leAt h 0x18 4 % 16 == 0 && 64 ≤ leAt h 0x18 4

/-- Step 1: 0 where it passes, else the failure code. -/
def State.hdrCode (s : State) (k : Nat) : Nat :=
  if (s.hdr k).all (· == 0xFF) then 2 else if hdrOk s.slotSize (s.hdr k) then 0 else 3

/-- Key bytes and regions of the image of a slot (R98). -/
def State.imgBytes (s : State) (k ofs n : Nat) : List Byte := s.flashGet (s.slotBase k + ofs) n
def State.ctLen (s : State) (k : Nat) : Nat := leAt (s.hdr k) 0x18 4

/-- The owner key slot is provisioned, not revoked, and holds the hashes of both public keys (R106 step 3). -/
def State.ownerKeyOk (s : State) (k : Nat) : Bool :=
  let n := leAt (s.hdr k) 0xA 1
  let held := Sparse.get (fun _ => []) s.otp.owner n
  n < 4 && !held.isEmpty && !s.otp.ownerRev.contains n &&
    held == Config.sha384 (s.imgBytes k 0x100 32) ++ Config.sha384 (s.imgBytes k 0x120 1952)

/-- Steps 2 to 4. -/
def State.slotCode (s : State) (k : Nat) : Nat :=
  let h := s.hdr k
  let svn := leAt h 0x10 4
  if leAt h 8 2 ≠ 0x7640 then 4
  else if !s.ownerKeyOk k then 5
  else if svn > 64 ∨ svn < s.otp.svn then 8
  else 0

/-- The event of a failure code (R460). -/
def imgEvent (code : Nat) : Nat := Ev.IMG_BLANK + (code - 2)

/-- Record a slot's result. -/
def State.bootResult (s : State) (k code : Nat) : State :=
  if k = 0 then s.put F.SEC_BOOTSTAT_A code else s.put F.SEC_BOOTSTAT_B code

/-- A slot fails (R108). -/
def State.slotFail (s : State) (k code : Nat) : State := (s.bootResult k code).pulse (imgEvent code) k

/-- NOIMAGE (R108): no image runs, and none is shown. -/
def State.noImage (s : State) : State :=
  let t := ((s.put F.SEC_STATE_HSTATE 4).put F.SEC_IMGSEQ_SEQ 0).put F.SEC_SVN_IMAGE 0
  let t := (t.put F.SEC_STATE_SLOT 0).pulse Ev.IMG_NONE
  { t with boot := { t.boot with slot := none, todo := [], stage := .idle }, sec := { t.sec with imgDigest := [], okSlot := none } }

/-- Slots still to try; none left means NOIMAGE. -/
def State.nextSlot (s : State) : State :=
  let t := { s with boot := { s.boot with slot := none, stage := .idle, fellBack := true } }
  if t.boot.todo.isEmpty then t.noImage else t.put F.SEC_STATE_HSTATE 0

/-- Order of the slots (R97): a slot with a bad header is recorded and read no further. -/
def State.orderSlots (s : State) : State :=
  let c0 := s.hdrCode 0
  let c1 := s.hdrCode 1
  let s1 := if c0 = 0 then s else s.slotFail 0 c0
  let s2 := if c1 = 0 then s1 else s1.slotFail 1 c1
  let bFirst := if s.aon.oneshot then s.aon.slot == 1 else decide (leAt (s.hdr 0) 0xC 4 < leAt (s.hdr 1) 0xC 4)
  let good := [0, 1].filter fun k => if k = 0 then c0 == 0 else c1 == 0
  { s2 with
    boot := { s2.boot with ordered := true, todo := if bFirst then good.reverse else good }
    aon := { s2.aon with oneshot := false } }

/-- Steps 2 to 4 of a life-cycle change (R121): the OTP state advances, RETIRED destroys the keys and the owner derivation input, and
MRAM is wiped but for the life-cycle record. -/
def State.lcSteps (s : State) (l : Nat) : State :=
  let gone := List.replicate 96 (0xFF : Byte)
  let otp : Otp := if l = 3 then
      { s.otp with
        lcs := l, destroyed := true
        owner := (List.range 4).foldl (fun m n => Sparse.set (fun _ => []) m n gone) s.otp.owner
        image := (List.range 2).foldl (fun m n => Sparse.set (fun _ => []) m n (gone.take 32)) s.otp.image }
    else { s.otp with lcs := l }
  { s with otp := otp, mram := [], nv := { s.nv with lcMirror := l, bootCnt := 0, logWp := 0, logSeq := 0, netKeys := [] } }

/-- Steps 1 and 5 of R121: the wipe-pending flag of the life-cycle record. -/
def State.wipeFlag (s : State) (x : Option Nat) : State := { s with nv := { s.nv with wipePending := x } }

/-- A boot that finds the wipe-pending flag set repeats steps 2 to 5 before anything else (R121). -/
def State.lcResume (s : State) : State :=
  match s.nv.wipePending with
  | some l => ((s.lcSteps l).wipeFlag none).put F.SEC_STATE_LCS l
  | none => s

/-- The start of boot: an unfinished life-cycle change, the life-cycle record against OTP, the tamper event, the flash device and the
headers (R95, R97, R119, R121, R132). DESIGN CHOICE (log entry 18): CTX0 of EV_TAMPER is the tamper record; the spec names no context. -/
def State.bootStart (s : State) : State :=
  let s := s.lcResume
  let s1 := if s.nv.lcMirror = s.otp.lcs then s
    else { s with nv := { s.nv with lcMirror := s.otp.lcs } }.pulse Ev.LC_MISMATCH s.otp.lcs
  let s2 := if s1.aon.tamperNew then { s1 with aon := { s1.aon with tamperNew := false } }.pulse Ev.TAMPER s1.aon.tamper else s1
  if s2.otp.lcs ≠ 1 ∧ s2.otp.lcs ≠ 2 then s2.noImage
  else if !s.pins.sfdp || s.pins.density < 4 * 2 ^ 20 || 64 * 2 ^ 20 < s.pins.density then
    ((s2.slotFail 0 0xD).slotFail 1 0xD).noImage
  else
    let s3 := s2.orderSlots
    if s3.boot.todo.isEmpty then s3.noImage else s3

/-- Steps 2 to 4 on the next slot; a slot that passes has its image read (step 5). -/
def State.trySlot (s : State) : State :=
  match s.boot.todo with
  | [] => s
  | k :: l =>
    let t : State := { s with boot := { s.boot with todo := l } }
    let c := t.slotCode k
    if c = 0 then { t with boot := { t.boot with slot := some k, stage := .reading, stagingDone := false } }
    else (t.slotFail k c).nextSlot

/-- The streaming read ends (R106 step 5). -/
def State.readDone (s : State) (ok : Bool) : State :=
  match s.boot.slot with
  | some k =>
    if s.boot.stage ≠ .reading then s
    else if ok then
      { s with boot := { s.boot with stage := .digest, digest := Config.sha512 (s.imgBytes k 0 (0x8D0 + s.ctLen k)) } }
    else (s.slotFail k 0xD).nextSlot
  | none => s

/-! ### The section stream (R100) -/

def knownType (t : Nat) : Bool := (1 ≤ t && t ≤ 0xD) || t == 0xFF
def requiredTypes : List Nat := [1, 2, 3, 4, 5, 6, 7, 0xFF]

/-- The sections of a stream behind type `prev`, each padded with zeros to 16 bytes; `n` bounds their number. None is a format failure. -/
def parseSections : Nat → Nat → List Byte → Option (List (Nat × List Byte))
  | 0, _, _ => none
  | n + 1, prev, bs =>
    let t := leAt bs 0 2
    let len := leAt bs 4 4
    let full := (8 + len + 15) / 16 * 16
    if bs.length < 8 ∨ !knownType t ∨ leAt bs 2 2 ≠ 1 ∨ t ≤ prev ∨ bs.length < full ∨
        ((bs.take full).drop (8 + len)).any (· != 0) then none
    else
      let pl := (bs.drop 8).take len
      let rest := bs.drop full
      if t = 0xFF then (if rest.all (· == 0) then some [(t, pl)] else none)
      else (parseSections n t rest).map ((t, pl) :: ·)

/-- A whole stream: the required sections are there and END counts them. -/
def parseImage (bs : List Byte) : Option (List (Nat × List Byte)) :=
  match parseSections 15 0 bs with
  | some l =>
    let fin := ((l.find? fun x => x.1 == 0xFF).map (·.2)).getD []
    if requiredTypes.all (fun t => l.any fun x => x.1 == t) && fin.length == 16 && leAt fin 4 4 == l.length &&
        leAt fin 8 8 == 0 then some l else none
  | none => none

def secOpt (l : List (Nat × List Byte)) (t : Nat) : Option (List Byte) := (l.find? fun x => x.1 == t).map (·.2)
def sectionOf (l : List (Nat × List Byte)) (t : Nat) : List Byte := (secOpt l t).getD []

/-- Strictly rising. -/
def rising : List Nat → Bool
  | a :: b :: l => decide (a < b) && rising (b :: l)
  | _ => true

/-- CELLTAB (R14, R102): entries of eight words in ascending CELL, 0 to 287. -/
def decodeCells (bs : List Byte) : Option (List (List Word)) :=
  let n := leAt bs 0 4
  let l := (List.range n).map fun i => wordsOf ((bs.drop (16 + 32 * i)).take 32)
  let zero := (List.range n).all fun i =>
    leAt bs (16 + 32 * i) 4 < 2 ^ 31 && leAt bs (16 + 32 * i) 4 % 512 < 288 && leAt bs (16 + 32 * i + 28) 4 < 256
  if 1 ≤ n ∧ n ≤ 288 ∧ bs.length = 16 + 32 * n ∧ zero ∧ ((bs.drop 4).take 12).all (· == 0) ∧
      rising (l.map fun w => fieldGet (w.headD 0) 8 0) then some l else none

/-- LOOPGRAPH (R200): instances of twelve words, and coefficients. -/
def decodeGraph (bs : List Byte) : Option (List (List Word) × List Word) :=
  let n := leAt bs 0 4
  let m := leAt bs 4 4
  if 1 ≤ n ∧ n ≤ 2048 ∧ m ≤ 4096 ∧ bs.length = 16 + 48 * n + 4 * m ∧ leAt bs 8 8 = 0 then
    some ((List.range n).map fun i => wordsOf ((bs.drop (16 + 48 * i)).take 48), wordsOf (bs.drop (16 + 48 * n)))
  else none

/-- A reaction that a source may not have (R48, R49, R458, R461): one below its floor, block cell without an associated cell, the
reserved code, any but none on a reserved source. -/
def reactRefused (ev react : Nat) : Bool :=
  decide (react < evFloor ev) || (react == 4 && !evHasCell ev) || react == 7 || (!evDefined ev && react != 0)

/-- EVENTS (R461): one pair of words a source, in ascending EV, each within the rules of R49. -/
def decodeEvents (bs : List Byte) : Option (List (Word × Word)) :=
  let n := leAt bs 0 4
  let l := (List.range n).map fun i => (BitVec.ofNat 32 (leAt bs (16 + 8 * i) 4), BitVec.ofNat 32 (leAt bs (20 + 8 * i) 4))
  let ok := l.all fun (a, b) =>
    let ev := fieldGet a 9 0
    evDefined ev && !reactRefused ev (fieldGet a 12 10) && (fieldGet a 15 15 == 1 || evFloor ev == 0) &&
      fieldGet a 31 16 == 0 && fieldGet b 31 16 == 0
  if n ≤ 1024 ∧ bs.length = 16 + 8 * n ∧ ((bs.drop 4).take 12).all (· == 0) ∧ ok ∧ rising (l.map fun x => fieldGet x.1 9 0)
  then some l else none

/-- START (R103). -/
def decodeStart : Option (List Byte) → Option (Nat × Nat)
  | none => some (24, 4)
  | some bs =>
    let b := leAt bs 0 2
    let p := leAt bs 2 2
    if bs.length = 16 ∧ 1 ≤ b ∧ b ≤ 288 ∧ 1 ≤ p ∧ p ≤ b ∧ (bs.drop 4).all (· == 0) then some (b, p) else none

/-- RW fields of a register as a mask (R104). -/
def Row.rwMask (r : Row) : Word :=
  r.fields.foldl (fun w f => if f.acc = .rw then w ||| fieldMask f.hi f.lo else w) 0

/-- REGINIT (R104): every pair names a register with an RW field and sets no other bit. -/
def decodeRegInit (bs : List Byte) : Option (List (Nat × Word)) :=
  let l := (List.range (bs.length / 8)).map fun i => (leAt bs (8 * i) 4, BitVec.ofNat 32 (leAt bs (8 * i + 4) 4))
  let ok := l.all fun (a, v) =>
    match findRow a with
    | some (r, _) => r.rwMask != 0 && v &&& ~~~ r.rwMask == 0
    | none => false
  if bs.length % 8 = 0 ∧ ok then some l else none

/-- A decoded image; `rail` is the source of the rail voltage where the plant is tied to an MV DC system (R218). -/
structure ImgData where
  plant : Plant
  cells : List (List Word)
  per : PeriodCfg
  strings : Strings
  graph : List (List Word)
  coefs : List Word
  events : List (Word × Word)
  start : Nat × Nat
  regs : List (Nat × Word)
  init : List (Nat × Word)
  safety : Bool
  netKeys : Sparse (List Byte)
  mcast : List Nat
  pubs : List PubId
  rail : Option (Option Nat)
  cfgref : Nat
  deriving DecidableEq, Repr

/-- Register values of a section that may be absent. -/
def regsOfSection (l : List (Nat × List Byte)) (t : Nat) : Option (List (Nat × Word)) :=
  match secOpt l t with
  | some bs => Config.sectionRegs t bs
  | none => some []

/-- Decode every section (R101). -/
def decodeImage (l : List (Nat × List Byte)) : Option ImgData := do
  let plant ← Config.decodePlant (sectionOf l 1)
  let cells ← decodeCells (sectionOf l 2)
  let per ← Config.decodePeriod (sectionOf l 3)
  let strings ← Config.decodeStrings (sectionOf l 4)
  let eq ← regsOfSection l 5
  let (graph, coefs) ← decodeGraph (sectionOf l 6)
  let events ← decodeEvents (sectionOf l 7)
  let saf ← regsOfSection l 8
  let net ← regsOfSection l 9
  let lv ← regsOfSection l 0xA
  let start ← decodeStart (secOpt l 0xB)
  let init ← decodeRegInit (sectionOf l 0xC)
  let acq ← regsOfSection l 0xD
  return ⟨plant, cells, per, strings, graph, coefs, events, start, eq ++ saf ++ net ++ lv ++ acq, init,
    (secOpt l 8).isSome, Config.sectionKeys (sectionOf l 9), Config.sectionMcast (sectionOf l 9),
    Config.sectionPubs (sectionOf l 9),
    if plant.mvdcTied then some (Config.railSource l) else none, leAt (sectionOf l 0xFF) 0 4⟩

/-! ### The schedule (R36, R37, R327, R330) -/

/-- Nanoseconds as whole CT, rounded up. -/
def ceilCT (ns : Rat) : Nat := (ns * (3 / 5)).ceil.toNat

/-- ns a block takes on the line, and the fixed latencies TTXF and TRXF (R36). -/
def LaneCfg.tb (x : LaneCfg) : Rat := if x.gen2 then 32 / 5 else 128 / 5
def LaneCfg.ttxf (x : LaneCfg) : Rat := if x.gen2 then 28 else 60
def LaneCfg.trxf (x : LaneCfg) : Rat := if x.gen2 then 40 else 80

/-- ns over a fibre of a length in cm. -/
def fibreNs (cm : Nat) : Rat := mkRat cm 20

/-- One-way fibre to each position as seen from head A, or from head B. -/
def LaneCfg.fibreFrom (x : LaneCfg) (b : Bool) : List Nat := if b then (x.fibre.map (x.fsb - ·)).reverse else x.fibre

/-- G(l) and C(l) for a lane of `n` cells driven from one end. -/
def LaneCfg.gather (x : LaneCfg) (n : Nat) (b : Bool) : Rat :=
  let hops : Nat := if x.farHead then 2 * n + 1 else 2 * n - 1
  let fib := if x.farHead then 2 * fibreNs x.fsb else 2 * fibreNs ((x.fibreFrom b).getD (n - 1) 0)
  x.ttxf + (4 * n + 2 : Nat) * x.tb + 26 * hops + fib + x.trxf + 10

def LaneCfg.command (x : LaneCfg) (n : Nat) (b : Bool) : Rat :=
  (List.range n).foldl (fun a i =>
    max a (x.ttxf + (1 + 4 * (n - i) : Nat) * x.tb + 26 * i + fibreNs ((x.fibreFrom b).getD i 0) + 24 + 10)) 0

/-- XLAT (R327). -/
def Strings.xlat (x : Strings) : Nat := ceilCT (7052 / 10 + fibreNs x.lxl)

/-- ceil_CT(G(l)) over both ends in duplex. -/
def State.gatherCT (s : State) (l : Nat) : Nat :=
  let x := s.img.strings.lanes.getD l {}
  let n := s.laneLen l
  max (ceilCT (x.gather n false)) (if s.duplex then ceilCT (x.gather n true) else 0)

def State.commandCT (s : State) (l : Nat) : Nat :=
  let x := s.img.strings.lanes.getD l {}
  let n := s.laneLen l
  max (ceilCT (x.command n false)) (if s.duplex then ceilCT (x.command n true) else 0)

/-- Allocator time and fast ADC latency in CT (R36). -/
def taCT : Nat := 47
def tfadcCT : Nat := 180

/-- The schedule of R37. -/
def State.schedule (s : State) : Sched :=
  let ls := (List.range 24).filter fun l => (s.img.strings.lanes.getD l {}).used
  let g := ls.foldl (fun a l => max a (s.gatherCT l)) 0
  let c := ls.foldl (fun a l => max a (s.commandCT l)) 0
  let x := if s.duplex then s.img.strings.xlat else 0
  let o := max g (tfadcCT + x)
  { tOpen := o, tLaunch := s.img.per.p - c, w := s.img.per.p - c - taCT - o, cMax := c, tCut := o - x, xlat := x }

/-! ### The apply (R109) -/

/-- Write a value in force, in the block that holds it. -/
def State.load (s : State) (a : Nat) (v : Word) : State :=
  if 0x10000 ≤ a ∧ a ≤ 0x1FFFF then { s with evt := s.evt.wr a v } else s.wr a v

/-- Read a value in force, in the block that holds it. -/
def State.inForce (s : State) (a : Nat) : Word := if 0x10000 ≤ a ∧ a ≤ 0x1FFFF then s.evt.rd a else s.rd a

/-- A field a write can reach. -/
def FieldSpec.takes (f : FieldSpec) : Bool := f.acc != .ro

/-- Bits that some field holds; the others are reserved and read 0 (R10). -/
def Row.covered (r : Row) : Word := r.fields.foldl (fun w f => w ||| fieldMask f.hi f.lo) 0

/-- Bits of a register that read a constant: HOSTCTL of the choppers' LVS_CFG reads 0 (R270) and CANDEN bit 0 of CE_ARBCFG reads 1
(R216). -/
def fixBits (r : Row) (i : Nat) (v : Word) : Word :=
  if r.base = R.LVS_CFG.base ∧ 16 ≤ i then v &&& ~~~ fieldMask F.LVS_CFG_HOSTCTL.hi F.LVS_CFG_HOSTCTL.lo
  else if r.base = R.CE_ARBCFG.base then v ||| fieldMask F.CE_ARBCFG_CANDEN.lo F.CE_ARBCFG_CANDEN.lo
  else v

/-- The register file as it would be with the RW fields of a register written. -/
def State.loadRw (s : State) (a : Nat) (v : Word) : State :=
  match findRow a with
  | some (r, i, _) => s.load a ((s.inForce a &&& ~~~ r.rwMask) ||| (fixBits r i v &&& r.rwMask))
  | none => s

/-- The copy of a register that the head holds elsewhere follows a value put in force: CMP_AONCFGa and SEC_BOOTSEL in the always-on
domain (R135, R313), the shadow of LVS_CMPn (R66). -/
def State.loadCopy (s : State) (r : Row) (i : Nat) (v : Word) : State :=
  if r.base = R.CMP_AONCFG.base then s.setAonCfg i (v &&& r.rwMask)
  else if r.base = R.SEC_BOOTSEL.base then { s with aon := { s.aon with oneshot := v.getLsbD 1, slot := fieldGet v 0 0 } }
  else if r.base = R.LVS_CMP.base then s.setChan i { s.chan i with shCmp := fieldGet v 19 0 }
  else s

/-- The loader writes only the RW fields of a REGINIT pair, in force (R104, R109). -/
def State.loadInit (s : State) (a : Nat) (v : Word) : State :=
  match findRow a with
  | some (r, i, _) => (s.loadRw a v).loadCopy r i v
  | none => s

/-- The loader puts a register of another section in force; its reserved bits stay 0 (R10, R109). -/
def State.loadReg (s : State) (a : Nat) (v : Word) : State :=
  match findRow a with
  | some (r, i, _) => (s.load a (fixBits r i v &&& r.covered)).loadCopy r i v
  | none => s

/-- A cell table entry: the cell is ABSENT (R185). -/
def State.loadCell (s : State) (ws : List Word) : State :=
  let c := fieldGet (ws.headD 0) 8 0
  (ws.zipIdx.foldl (fun (t : State) y => t.wr (0xB0000 + 0x100 * c + 4 * y.2) y.1) s).setCState c csAbsent

/-- An event setting (R461). -/
def State.loadEvent (s : State) (x : Word × Word) : State :=
  let ev := fieldGet x.1 9 0
  let e := s.evt.put F.EVT_CFG_REACT (fieldGet x.1 12 10) ev
  let e := (e.put F.EVT_CFG_IRQSEL (fieldGet x.1 14 13) ev).put F.EVT_CFG_SQBURST (fieldGet x.2 7 0) ev
  let e := e.put F.EVT_CFG_SQINT (fieldGet x.2 15 8) ev
  { s with evt := e.put F.EVT_EN_EN (setBit (e.get F.EVT_EN_EN (ev / 32)) (ev % 32) (fieldGet x.1 15 15 == 1)) (ev / 32) }

/-- Registers that PLANT, PERIOD and STRINGS give their values (R27, R137, R189, R216, R294, R318); the crosslink is gen 2 (R163). -/
def State.loadPlant (s : State) (d : ImgData) : State :=
  let s1 := (s.put F.GDI_PUCFG_PPM1 (d.plant.poles - 1)).put F.GDI_PUVLIM0_OVLIM d.plant.ovlim
  let s2 := (s1.put F.GDI_PUVLIM1_BRKON (d.plant.ovlim - 20)).put F.GDI_PUVLIM1_BRKOFF (d.plant.ovlim - 40)
  let s3 := ((s2.put F.RED_MODE_MODE d.per.mode).putB F.CE_CFG_SMODE d.per.perf).putB F.NET_PLCFG_LOCKEN d.per.lock
  let s3 := s3.putBit F.CE_ARBCFG_CANDEN 0 true
  let s3 := (s3.put F.CLK_CFG_REFSEL d.plant.refsel).put F.CLK_CFG_REFMUL d.plant.refmul
  let s4 := d.strings.lanes.zipIdx.foldl (fun (t : State) x =>
    (t.putB F.DML_STAT_GEN x.1.gen2 x.2).putB F.DML_STAT_FAREND x.1.farHead x.2) s3
  if d.per.mode % 2 = 1 then (s4.put F.DML_STAT_GEN 1 24).put F.DML_STAT_GEN 1 25 else s4

/-- The instances and coefficients (R200). -/
def State.loadGraph (s : State) (d : ImgData) : State :=
  let s1 := d.graph.zipIdx.foldl (fun (t : State) x =>
    x.1.zipIdx.foldl (fun (u : State) y => u.wr (0x48000 + 0x30 * x.2 + 4 * y.2) y.1) t) (s.put F.CE_CFG_NINST d.graph.length)
  d.coefs.zipIdx.foldl (fun (t : State) x => t.wr (F.CE_COEF_WORD.addr x.2) x.1) s1

/-- PU16 of a voltage in 0.1 V on VBUS_NOM. -/
def State.vbPu16 (s : State) (v : Nat) : Nat := (roundHalfAway (mkRat (v * 16384) s.img.plant.vbusNom)).toNat

/-- The limits of the channel that LVS_GCFG.VBSRC names are held at VBUS_MIN and VBUS_MAX (R299). -/
def State.holdVbLim (s : State) : State :=
  let n := s.vbChan
  (s.put F.ADC_FLIM_MIN (s.vbPu16 s.img.plant.vbusMin) n).put F.ADC_FLIM_MAX (s.vbPu16 s.img.plant.vbusMax) n

/-- The counts of the groups: NREF starts at N + k (R238). -/
def State.loadGroups (s : State) : State :=
  (List.range 6).foldl (fun t g => t.put F.MVS_GCFG_NREF (t.groupCells g).length g) s

/-- A diode whose THM_EXTCFGx the image does not write takes its throttle threshold as substitute (R424, R435). -/
def State.diodeSubs (s : State) (d : ImgData) : State :=
  (List.range 4).foldl (fun t x =>
    if (d.regs ++ d.init).any fun y => y.1 == F.THM_EXTCFG_SUB.addr x then t
    else t.put F.THM_EXTCFG_SUB (t.get F.THM_EXTTHR_THROT x) x) s

/-- What follows from the loaded registers: the instants of a period, the placement, the schedule, and the LV offsets and delays
(R296, R202, R37, R256, R261). -/
def State.derive (s : State) : State :=
  let p := s.place
  let s1 : State := { s with img := { s.img with sched := s.schedule }, ce := { s.ce with order := p.order } }
  let c := s1.img.sched
  let s2 := (((s1.put F.ADC_STAT_NS (s1.img.per.p / 120)).put F.CE_SCHED_WNEED p.wNeed).put F.CE_SCHED_W c.w).put F.CE_SPATH_STOT p.sTot
  let s3 := ((s2.put F.CE_SPATH_SB p.sB).put F.RED_XSCHED_TCUT c.tCut).put F.RED_XSCHED_XLAT c.xlat
  let s4 := (List.range 24).foldl (fun (t : State) l =>
    if (t.img.strings.lanes.getD l {}).used then t.put F.DML_RTT_LIMIT (t.gatherCT l - 6) l else t) s3
  let b := s4.get F.THM_STAT_BAND
  let s4 := (List.range 26).foldl (fun (t : State) l =>
    if t.laneUsed l then (t.put F.DML_EQ_BAND b l).put F.DML_EQ_ROW (fieldGet (t.rd (F.DML_EQTB_SWING.addr l b)) 20 0) l else t) s4
  (List.range 16).foldl (fun (t : State) n =>
    ((t.put F.LVS_OFS_OFS (t.legOfs n) n).put F.LVS_DT_DR (t.get F.LVS_DTB_DR b n) n).put F.LVS_DT_DF (t.get F.LVS_DTB_DF b n) n) s4

/-- The state of a connection follows its enable (R359). -/
def State.connApply (s : State) (t : Nat) : State :=
  let st := s.get F.SAF_TGSTAT_STATE t
  if !s.flag F.SAF_TGCFG_EN t then ((s.put F.SAF_TGSTAT_STATE 0 t).put F.SAF_TGSTAT_PEND 0 t).setTgConn t {}
  else if st = 0 then s.put F.SAF_TGSTAT_STATE 1 t else s

/-- What follows from the enables that an image puts in force (R109): a telegram connection waits (R359), a window is preset (R309), and a
domain shows its role (R391). -/
def State.imageFollow (s : State) : State :=
  let s1 := (List.range 4).foldl State.connApply s
  let s2 := (List.range 16).foldl (fun (t : State) w => if t.flag F.CMP_CFG_EN w then t.presetWindow w else t) s1
  [0, 1].foldl State.showDom s2

/-- Apply a decoded image (R109): sections in ascending type, REGINIT last; network time starts with the steering domain of NET_PTPCFG
(R372). -/
def State.applyImage (s : State) (d : ImgData) : State :=
  let s0 : State := { s with img := { s.img with
    plant := d.plant, per := d.per, strings := d.strings, budget := d.start.1, pumpCost := d.start.2, safety := d.safety
    netKeys := d.netKeys, mcast := d.mcast, pubs := d.pubs, applied := true } }
  let s1 := (d.cells.foldl State.loadCell (s0.loadPlant d)).loadGroups
  let s2 := (s1.loadGraph d)
  let s3 := d.events.foldl State.loadEvent s2
  let s4 := d.regs.foldl (fun (t : State) x => t.loadReg x.1 x.2) s3
  let s5 := d.init.foldl (fun (t : State) x => t.loadInit x.1 x.2) s4
  let s6 : State := { s5 with
    evt := { s5.evt with buckets := [], filledAt := s5.ct }, boot := { s5.boot with cfgref := d.cfgref, aonWas := some s.aon }
    thm := { s5.thm with seen := [] } }
  let s7 := (s6.diodeSubs d).derive.holdVbLim
  (s7.put F.NET_PTPSTAT_STEERING (s7.get F.NET_PTPCFG_STEER)).imageFollow

/-! ### Content checks (R106 step 10) -/

/-- A value lies within a range. -/
def within (lo hi v : Nat) : Bool := decide (lo ≤ v) && decide (v ≤ hi)

/-- One cell table entry (R14). -/
def State.cellRanges (s : State) (c : Nat) : Bool :=
  s.cLane c ≤ 23 && s.cGroup c < (if s.img.plant.topo = 2 then 6 else 3) && s.cHash c != 0 && s.cHash c != 2 ^ 64 - 1 &&
  within 1000 40000 (s.vnom c) && decide (s.vnom c ≤ s.vmax c) && decide (2 * s.vmax c ≤ 3 * s.vnom c) &&
  within 50 50000 (s.ccap c) && within 10 20000 (s.iarmRat c) && decide (s.iarmRat c ≤ s.iarmMax c) &&
  decide (s.iarmMax c ≤ 3 * s.iarmRat c) && within 10 5000 (s.pdab c) && within 64 4096 (s.ndab c) &&
  within 10 60000 (s.ldab c) && within 40 150 (s.thsMax c)

/-- String length limit of R23. -/
def stringLimit (p : Nat) (gen2 : Bool) : Nat :=
  if p < 3000 then (if gen2 then 12 else 8) else if p < 3600 then (if gen2 then 16 else 10)
  else if p < 4800 then (if gen2 then 16 else 12) else 16

/-- The whole cell table (R15, R20, R22). -/
def State.tableOk (s : State) : Bool :=
  let gs := s.groupsUsed
  let red := fun g => (s.groupCells g).length - s.nMain g
  let g0 := gs.headD 0
  let places := s.cellList.map fun c => 16 * s.cLane c + s.cPos c
  gs.length == (if s.img.plant.topo = 2 then 6 else 3) &&
  places.eraseDups.length == places.length &&
  ((List.range 24).all fun l =>
    let x := s.img.strings.lanes.getD l {}
    let n := s.laneLen l
    ((List.range n).all fun i => (s.cellAt l i).isSome) && (x.used || n == 0) && n ≤ stringLimit s.img.per.p x.gen2) &&
  (gs.all fun g =>
    let n := (s.groupCells g).length
    n ≤ (if s.img.plant.topo = 2 then 48 else 96) &&
    ((List.range n).all fun i => (s.groupCells g).any fun c => s.cSlot c == i) &&
    1 ≤ s.nMain g && red g ≤ 8 && s.nMain g == s.nMain g0 && red g == red g0 && s.img.plant.kstart ≤ red g &&
    ((s.groupCells g).all fun c => s.vnom c == s.vnom ((s.groupCells g).headD 0)))

/-- PLANT (R12, R25 to R27, R462). DESIGN CHOICE (log entry 65): a pair list that does not hold 16 entries or a chopper list that does not
hold 2 is not refused for that, since R25 and R26 give the payload no layout; a pair or chopper without an entry is unused or absent.
CHOP_EJ of a channel declared absent (RES_OHM = 0) is not asked to lie in its range. -/
def Plant.ok (p : Plant) : Bool :=
  let legs := fun u => (p.pairs.filter (· == u)).length
  p.topo < 3 && p.pairs.all (· ≤ 5) && legs 1 == legs 2 && legs 1 == legs 3 && legs 1 == legs 4 && legs 1 ≤ 4 &&
  legs 5 + 4 * legs 1 ≤ 16 && 1 ≤ legs 1 + legs 5 &&
  within 2000 15000 p.vbusNom && decide (p.vbusNom ≤ p.vbusMax) && decide (10 * p.vbusMax ≤ 13 * p.vbusNom) &&
  decide (p.vbusNom ≤ 2 * p.vbusMin) && decide (p.vbusMin ≤ p.vbusNom) && within 100 100000 p.cbus &&
  (p.chops.all fun c => c.res == 0 || (within 100 100000 c.res && within 1000 10000000 c.ej)) &&
  within 1 16 p.poles && within 10 1000 p.ratedI && within 500 600 p.ovlim && within 1000 1000000 p.fbase &&
  p.refsel ≤ 1 && p.refmul < 256 && (List.range 4).all fun i => p.refmul / 4 ^ i % 4 != 3

/-- PERIOD (R28, R29, R32, R318). -/
def PeriodCfg.ok (p : PeriodCfg) : Bool :=
  within 2400 60000 p.p && within 120 1200 p.tadv && 2 * p.tadv ≤ p.p && (!p.lock || 600000000 % p.p == 0) &&
  p.mode < 4 && (p.perf == (p.mode < 2 : Bool))

/-- Bits of word `j` of the parameters of instance `n` outside a mask are zero. -/
def State.parZero (s : State) (n j mask : Nat) : Bool := (s.instP n j).toNat &&& mask == (s.instP n j).toNat

/-- Parameter `j` as a signed value lies in a range. -/
def State.parIn (s : State) (n j : Nat) (lo hi : Int) : Bool := decide (lo ≤ s.instPS n j) && decide (s.instPS n j ≤ hi)

/-- Ranges of the parameters by block type (R194, R219, R220, R222, R244, R247): 1.0 is 2³⁰ as a PU32 or Q2.30 and 16.0 is 2²⁸ as
a Q8.24. -/
def State.paramsOk (s : State) (n : Nat) : Bool :=
  let t := s.instType n
  let p := s.instP n
  let src := srcDefined s.ninst
  let tail := fun k => (List.range 5).all fun j => j < k || s.parZero n j 0
  if t = tPI then tail 4
  else if t = tPR then
    within 1 50 (fieldGet (p 1) 7 0) && s.parZero n 1 0x0FFF00FF && src (fieldGet (p 1) 27 16) && s.parZero n 4 0x10FFF &&
      (!(p 4).getLsbD 16 || src (fieldGet (p 4) 11 0))
  else if t = tNOTCH then tail 4
  else if t = tLIMIT then tail 3
  else if t = tRAMP then s.parZero n 1 0x1F0FFF && src (fieldGet (p 1) 11 0) && tail 2
  else if t = tMINSEL then tail 1
  else if t = tOBS then
    let k := fieldGet (p 0) 1 0 + 1
    s.parZero n 0 0x0FFF0003 && s.parZero n 1 3 && fieldGet (p 1) 1 0 < k && fieldGet (p 0) 27 16 + k * k + 3 * k ≤ 4096 && tail 2
  else if t = tALLOCIF then
    s.parZero n 0 3 && fieldGet (p 0) 1 0 < 3 && s.parIn n 1 0 107374182 && s.parZero n 2 0xFFFF &&
      s.parIn n 3 (2 ^ 29) (2 ^ 30) && s.parIn n 4 0 (2 ^ 28)
  else if t = tTRACE then tail 0
  else if t = tCAPOBS then s.parIn n 0 1 (2 ^ 30) && s.parZero n 1 1 && tail 2
  else if t = tFLUXOBS then
    s.parIn n 0 1 (2 ^ 30) && s.parIn n 1 0 (2 ^ 28) && s.parZero n 2 0xFFFF && within 1 1820 (p 2).toNat &&
      s.parIn n 3 0 107374182 && s.parZero n 4 0xFF && within 1 255 (p 4).toNat
  else if t = tHSHARE then
    s.parIn n 0 0 (2 ^ 28) && s.parIn n 1 0 (2 ^ 28) && s.parIn n 2 0 214748364 && s.parZero n 3 1 && s.parZero n 4 0
  else if t = tDABOPT then
    s.parIn n 0 0 (2 ^ 28) && s.parIn n 1 0 (2 ^ 28) && s.parIn n 2 53687091 (2 ^ 30) && s.parZero n 3 0xFFFF &&
      (p 3).toNat ≤ 0x8000 && s.parZero n 4 1
  else false

/-- IN0 of DABOPT has weight 1.0 (R243), and words 5 and 6 of a MINSEL are zero (R198). -/
def State.weightOk (s : State) (n : Nat) : Bool :=
  (s.instType n != tDABOPT || s.instGain n 0 == 2 ^ 24) && (s.instType n != tMINSEL || (s.instW n 5 == 0 && s.instW n 6 == 0))

/-- The bits that R198 has zero in words 0 to 2, and in words 3 and 4 of a MINSEL, are; the code of R14 in GROUP is a group or plant level. -/
def State.structOk (s : State) (n : Nat) : Bool :=
  let pair := fun w => (s.instW n w &&& 0xF000F000) == 0
  (s.instW n 0 &&& 0xFF008000) == 0 && pair 1 && pair 2 && (s.instType n != tMINSEL || (pair 3 && pair 4)) && s.instGroup n != 6

/-- What a V block or an ALLOCIF asks of its inputs (R219, R220, R222, R243, R247). -/
def State.inputsOk (s : State) (n : Nat) : Bool :=
  let t := s.instType n
  let twin := s.vInst tALLOCIF (s.instGroup n)
  if t = tALLOCIF then s.instIns n == 2 && [0, 1].all fun j => 0x800 ≤ s.instSrc n j || !isV (s.instType (s.instSrc n j))
  else if t = tCAPOBS then s.instIns n == 1 && s.instDly n 0
  else if t = tFLUXOBS then s.instIns n == 1 && s.instSrc n 0 < 0x800 && !isV (s.instType (s.instSrc n 0))
  else if t = tHSHARE then
    s.instIns n == 2 && match twin with
      | some a => [0, 1].all fun j => s.instSrc a j == s.instSrc n j && s.instGain a j == s.instGain n j
      | none => false
  else if t = tDABOPT then
    s.instIns n == 2 && s.instArb (s.instSrc n 0) && s.instType (s.instSrc n 0) == tMINSEL && [0, 1].all fun j => s.bset.contains (s.instSrc n j)
  else true

/-- The source codes of an instance's inputs; a source outside the graph has none. -/
def State.inSrcs (s : State) (c : Nat) : List Nat := if c < s.ninst then (List.range (s.instIns c)).map (s.instSrc c) else []

/-- The sources that a list of sources reaches through inputs; `fuel` bounds the rounds. -/
def State.reach (s : State) : Nat → List Nat → List Nat
  | 0, l => l
  | k + 1, l =>
    let more := (l.flatMap s.inSrcs).eraseDups.filter fun d => !l.contains d
    if more.isEmpty then l else s.reach k (l ++ more)

/-- The required sources of the arbiter's roles (R205): SAFE is 0x921 or a LIMIT fed from it, THERM a chain from 0x920. -/
def State.rolesOk (s : State) (n : Nat) : Bool :=
  let c := s.instSrc n 0
  (c == 0x921 || (c < 0x800 && s.instType c == tLIMIT && s.instSrc c 0 == 0x921)) && (s.reach (s.ninst + 1) [s.instSrc n 2]).contains 0x920

/-- The loop graph (R199, R205). -/
def State.graphOk (s : State) : Bool :=
  let all := List.range s.ninst
  let p := s.place
  let arbs := all.filter fun n => s.instType n == tMINSEL && s.instArb n
  p.acyclic && decide (p.wNeed ≤ s.img.sched.w) && arbs.length == 1 && (arbs.all fun n => s.instIns n == 6 && s.rolesOk n) &&
  (s.groupsUsed.all fun g => [tALLOCIF, tCAPOBS, tFLUXOBS, tHSHARE, tDABOPT].all fun t =>
    (all.filter fun n => s.instType n == t && s.instGroup n == g).length == 1) &&
  (all.all fun n =>
    let t := s.instType n
    ((1 ≤ t && t ≤ 9) || (0x10 ≤ t && t ≤ 0x13)) && s.structOk n && s.paramsOk n && s.weightOk n && s.inputsOk n && (s.instIns n ≤ 4 || t == tMINSEL) &&
    (t != tMINSEL || 2 ≤ s.instIns n) && (!(isV t || t == tALLOCIF) || s.groupsUsed.contains (s.instGroup n)) &&
    ((List.range (s.instIns n)).all fun j =>
      let c := s.instSrc n j
      srcDefined s.ninst c &&
        (s.instDly n j || (if c ≥ 0x800 then !isV t else !isV (s.instType c)))))

/-- A trip source exists (R265). -/
def tripSrcOk (c : Nat) : Bool := c ≤ 0x31

/-- The dead-time rows of every pair leave a DTMIN of `dt` (R261). -/
def State.rowsLeave (s : State) (dt : Nat) : Bool :=
  (List.range 16).all fun n => (List.range 3).all fun b => decide (s.get F.LVS_DTB_DF b n + dt ≤ s.get F.LVS_DTB_DR b n)

/-- The dead-time rows of every pair (R261). -/
def State.dtOk (s : State) : Bool := s.rowsLeave (s.get F.LVS_GCFG_DTMIN)

/-- PER of R255. -/
def perOk (p per : Nat) : Bool := 120 ≤ per && (if per ≤ p then p % per == 0 else per % p == 0)

/-- The LV stage (R255, R256, R261, R267, R275, R290). -/
def State.lvOk (s : State) : Bool :=
  let used := (List.range 16).filter fun n => s.pairUse n != 0
  let vb := s.get F.LVS_GCFG_VBSRC
  ((List.range 18).all fun n => perOk s.img.per.p (s.get F.LVS_PER_PER n) ||
    (s.get F.LVS_PER_PER n == 0 && !(if isPair n then s.pairUse n != 0 else s.chopMode (n - 16) == 2))) &&
  (used.all fun n => s.get F.LVS_PER_PER n == s.get F.LVS_PER_PER ((s.usePairs (s.pairUse n)).headD 0)) &&
  s.dtOk && ((List.range 8).all fun t => tripSrcOk (s.get F.LVS_TRIPCFG_SRC t)) &&
  within 0x800 0x817 vb &&
  ([0, 1].all fun c => s.chopMode c == 0 ||
    (s.get F.CMP_CFG_CHAN (s.get F.LVS_CHOPCFG_WIN c) == vb - 0x800 && s.chopMode c != 3)) &&
  s.get F.CMP_CFG_CHAN (s.get F.GDI_CFG_IBUSWIN) == s.get F.GDI_CFG_IBUSCH &&
  s.get F.GDI_CFG_IBUSCH != vb - 0x800 &&
  s.get F.LVS_TRIPCFG_SRC (s.get F.GDI_CFG_IBUSLINE) == 0x11 + s.get F.GDI_CFG_IBUSWIN &&
  s.flag F.LVS_TRIPCFG_EN (s.get F.GDI_CFG_IBUSLINE) &&
  (used.all (s.get F.LVS_TRIPSCOPE_SCOPE (s.get F.GDI_CFG_IBUSLINE)).testBit) &&
  decide (s.get F.GDI_PUVLIM1_BRKOFF < s.get F.GDI_PUVLIM1_BRKON) &&
  decide (s.get F.GDI_PUVLIM1_BRKON < s.get F.GDI_PUVLIM0_OVLIM)

/-- The duration D of a housekeeping scan in units of 100 ns (R301). -/
def State.hkDuration (s : State) : Nat :=
  let n := s.get F.ADC_HKCFG_NENT
  20 + 10 * n + (List.range n).foldl (fun a e => a + s.get F.ADC_HKENT_SETTLE e) 0

/-- The scan timeout is at least D (R316). -/
def State.hkTimeOk (s : State) : Bool := decide (s.hkDuration ≤ 10 * s.get F.ADC_HKCFG_SCANTO)

/-- The housekeeping scan ends within its interval (R301). -/
def State.hkFits (s : State) : Bool := decide (60 * (s.hkDuration + 2) ≤ s.get F.ADC_HKCFG_SCANDIV * s.img.per.p)

/-- The hysteresis bands of a window are apart (R306). -/
def State.windowApart (s : State) (w : Nat) : Bool :=
  decide (s.get F.CMP_THR_LTH w + 2 * hystCodes (s.get F.CMP_CFG_HYST w) ≤ s.get F.CMP_THR_UTH w)

/-- Every enabled window of an image meets R306. -/
def State.windowsOk (s : State) : Bool := (List.range 16).all fun w => !s.flag F.CMP_CFG_EN w || s.windowApart w

/-- Ranges of CELL_PRMn for a cell (R183, R184, R331). -/
def State.prmOk (s : State) (c n : Nat) (v : Nat) : Bool :=
  if n = 0 then within (if s.duplex then 2 else 1) 15 v
  else if n = 1 then v ≤ 2 && (s.cByp c != 0 || v == 0)
  else if n = 2 then within 20000 200000 v
  else if n = 3 then within 10 2000 v
  else if n = 4 then within 60 6000 v
  else if n = 5 then decide (v ≤ 0x8000)
  else if n = 6 then within (s.prm c 5) 0x8000 v
  else if n = 7 then decide (s.vmax c ≤ v) && decide (10 * v ≤ 11 * s.vmax c)
  else if n = 8 then decide (s.iarmMax c ≤ v) && decide (10 * v ≤ 12 * s.iarmMax c)
  else within (s.thsMax c) (s.thsMax c + 20) v

/-- A register value within the ranges of its fields. -/
def inRanges (a : Nat) (v : Word) : Bool :=
  match findRow a with
  | some (r, _) => r.fields.all fun f => f.acc != .rw || within f.min f.max (fieldGet v f.hi f.lo)
  | none => false

/-- Every writable field lies within its stated range and no reserved bit is 1. -/
def rowRange (r : Row) (v : Word) : Bool :=
  v &&& ~~~ r.covered == 0 &&
  r.fields.all fun f => !f.takes || f.acc == .w1c || within f.min f.max (fieldGet v f.hi f.lo)

/-- Event settings refused under R49, with EV_EVT_CFG_REJ. -/
def evtBelow (r : Row) (i : Nat) (v : Word) : Bool :=
  if r.base = R.EVT_CFG.base then reactRefused i (fieldGet v 2 0)
  else r.base == R.EVT_EN.base &&
    (v.toNat &&& evBankFloors i != evBankFloors i || v.toNat &&& evBankEnables i != v.toNat)

/-- Bits outside a mask are zero. -/
def inMask (v : Word) (m : Nat) : Bool := v.toNat &&& m == v.toNat

/-- Layouts of the network windows and of the virtual channels (R385, R386, R391, R393). -/
def windowRange (r : Row) (i j : Nat) (v : Word) : Bool :=
  if r.base = R.NET_GSUBW.base then
    if j = 0 then inMask v 0xF0FFFFFF && 1 ≤ fieldGet v 7 0 else true
  else if r.base = R.NET_SVSUBW.base then
    if j = 0 then within 1 24 (fieldGet v 7 0) && fieldGet v 26 24 ≤ 4
    else if j = 5 then inMask v 0xFF && 1 ≤ fieldGet v 7 0 else true
  else if r.base = R.NET_MAPW.base then
    if j = 0 then fieldGet v 15 12 ≤ 5 && fieldGet v 6 4 == 0 && 1 ≤ fieldGet v 3 0 else true
  else if r.base = R.NET_MAP3.base then fieldGet v 30 16 == 0
  else if r.base = R.NET_GPEL.base then i % 2 == 1 || inMask v 0xC0000FFF
  else if r.base = R.ACQ_VCH.base then
    let kind := fieldGet v 30 29
    kind ≤ 1 && fieldGet v 28 25 == 0 && !v.getLsbD 15 && fieldGet v 24 16 < 288 && (kind == 1 || fieldGet v 10 0 == 0)
  else true

/-- The limits of a channel are those of the bus voltage (R299). -/
def State.vbLimHeld (s : State) (n : Nat) : Bool :=
  s.rd (F.ADC_FLIM_MAX.addr n) == s.holdVbLim.rd (F.ADC_FLIM_MAX.addr s.vbChan)

/-- Rising thresholds (R423). -/
def State.thmOk (s : State) : Bool :=
  decide (s.get F.THM_DIECFG0_WARN < s.get F.THM_DIECFG0_THROT) && decide (s.get F.THM_DIECFG0_THROT < s.get F.THM_DIECFG1_SHUT) &&
  decide (0 < s.get F.THM_CELLCFG_TOFS) && decide (s.get F.THM_CELLCFG_TOFS < s.get F.THM_CELLCFG_WOFS) &&
  ((List.range 4).all fun x => !s.flag F.THM_EXTCFG_EN x ||
    (decide (s.get F.THM_EXTTHR_WARN x < s.get F.THM_EXTTHR_THROT x) &&
     decide (s.get F.THM_EXTTHR_THROT x < s.get F.THM_EXTSH_SHUT x)))

/-- The bus-current path of R275 is whole. -/
def State.ibusOk (s : State) : Bool :=
  let w := s.get F.GDI_CFG_IBUSWIN
  let l := s.get F.GDI_CFG_IBUSLINE
  s.get F.CMP_CFG_CHAN w == s.get F.GDI_CFG_IBUSCH && s.get F.GDI_CFG_IBUSCH != s.vbChan &&
  s.get F.LVS_TRIPCFG_SRC l == 0x11 + w && s.flag F.LVS_TRIPCFG_EN l &&
  ((List.range 16).all fun n => s.pairUse n == 0 || (s.get F.LVS_TRIPSCOPE_SCOPE l).testBit n)

/-- The windows of the choppers lie on the bus voltage (R267). -/
def State.chopWinOk (s : State) : Bool :=
  [0, 1].all fun c => s.chopMode c != 3 && ((s.chopMode c != 1 && s.chopMode c != 2) ||
    s.get F.CMP_CFG_CHAN (s.get F.LVS_CHOPCFG_WIN c) == s.vbChan)

/-- Ranges of MVS_GCFGg (R221, R238): VTMAX from 1.0 to VCAP_MAX on VCAP_NOM, NREF from N to N + k. -/
def State.gcfgOk (s : State) (g : Nat) : Bool :=
  let v := s.get F.MVS_GCFG_VTMAX g
  within (s.nMain g) (s.groupCells g).length (s.get F.MVS_GCFG_NREF g) && decide (16384 ≤ v) &&
  ((s.groupCells g).all fun c => decide (v * s.vnom c ≤ 16384 * s.vmax c))

/-- The ranges other chapters state, on the state `t` in which the write has been loaded; `s` is the state in force. -/
def State.specialOk (s t : State) (r : Row) (i j : Nat) : Bool :=
  let b := r.base
  if b = R.SYS_TXNCFG.base then t.cellList.all fun c => decide (t.prm c 0 + 1 ≤ t.get F.SYS_TXNCFG_ACTLEAD)
  else if b = R.CELL_PRM.base then
    t.prmOk i j (t.prm i j) && (j != 0 || decide (t.prm i 0 + 1 ≤ t.get F.SYS_TXNCFG_ACTLEAD))
  else if b = R.CELL_ENTRYW.base then t.cHash i != 0 && t.cHash i != 2 ^ 64 - 1
  else if b = R.THM_DIECFG0.base ∨ b = R.THM_DIECFG1.base ∨ b = R.THM_CELLCFG.base ∨ b = R.THM_EXTCFG.base ∨
      b = R.THM_EXTTHR.base ∨ b = R.THM_EXTSH.base then t.thmOk
  else if b = R.CLK_OUTCFG.base then
    decide (([25, 600, 125, 250].getD (t.get F.CLK_OUTCFG_SRC i) 0) ≤ 200 * t.get F.CLK_OUTCFG_DIV i)
  else if b = R.ADC_HKCFG.base then t.hkTimeOk
  else if b = R.ADC_FCFG.base then t.get F.ADC_FCFG_FSR i != 3
  else if b = R.ADC_FLIM.base then (i != s.vbChan && i != t.vbChan) || t.vbLimHeld i
  else if b = R.CMP_CFG.base then t.get F.CMP_CFG_LATCH i != 3 && t.windowApart i && t.ibusOk && t.chopWinOk
  else if b = R.CMP_THR.base then t.windowApart i
  else if b = R.LVS_GCFG.base then 
    within 0x800 0x817 (t.get F.LVS_GCFG_VBSRC) && s.rowsLeave (t.get F.LVS_GCFG_DTMIN) && t.dtOk && t.ibusOk && t.chopWinOk
  else if b = R.LVS_DTB.base then
    decide (t.get F.LVS_DTB_DF i j + t.get F.LVS_GCFG_DTMIN ≤ t.get F.LVS_DTB_DR i j)
  else if b = R.LVS_PER.base then perOk t.img.per.p (t.get F.LVS_PER_PER i)
  else if b = R.LVS_TRIPCFG.base then tripSrcOk (t.get F.LVS_TRIPCFG_SRC i) && t.ibusOk
  else if b = R.LVS_TRIPSCOPE.base ∨ b = R.GDI_CFG.base then t.ibusOk
  else if b = R.LVS_CHOPCFG.base then
    t.chopWinOk && srcDefined t.ninst (t.get F.LVS_CHOPCFG_SRC i) &&
      (t.chopMode i != 2 || perOk t.img.per.p (t.get F.LVS_PER_PER (16 + i)))
  else if b = R.LVS_USE.base then srcDefined t.ninst (t.get F.LVS_USE_SRC i)
  else if b = R.LVS_CFG.base then t.get F.LVS_CFG_TRIMSRC i == 0xFFF || srcDefined t.ninst (t.get F.LVS_CFG_TRIMSRC i)
  else if b = R.GDI_PUSRC.base then srcDefined t.ninst (t.get F.GDI_PUSRC_SRC)
  else if b = R.GDI_PUVLIM0.base ∨ b = R.GDI_PUVLIM1.base then
    decide (t.get F.GDI_PUVLIM1_BRKOFF < t.get F.GDI_PUVLIM1_BRKON) &&
    decide (t.get F.GDI_PUVLIM1_BRKON < t.get F.GDI_PUVLIM0_OVLIM)
  else if b = R.MVS_NETOFS.base then decide (t.get F.MVS_NETOFS_OFS < t.img.per.p)
  else if b = R.MVS_CFG.base then !t.flag F.MVS_CFG_NETPH || t.img.per.lock
  else if b = R.MVS_GCFG.base then t.gcfgOk i
  else if b = R.CE_ARBCFG.base then
    let en := t.get F.CE_ARBCFG_CANDEN
    en.testBit 0 && en.testBit (4 + t.get F.CE_ARBCFG_LEAD)
  else if b = R.CE_INSTW.base then t.paramsOk i && t.weightOk i
  else if b = R.RED_MODE.base then
    let m := t.get F.RED_MODE_MODE
    (s.get F.RED_MODE_MODE == 1 && m == 0) || (s.get F.RED_MODE_MODE == 3 && m == 2)
  else if b = R.SAF_INCFG.base then
    t.get F.SAF_INCFG_MODE i != 1 || t.get F.SAF_INCFG_SRCA i != t.get F.SAF_INCFG_SRCB i
  else if b = R.SAF_TGCFG.base then decide (20 * t.get F.SAF_TGCFG_TWIN i < 1000 * t.get F.SAF_TGCFG_WDT i)
  else if b = R.NET_DCFG.base then t.get F.NET_DCFG_PROFILE i ≤ 1
  else if b = R.NET_TOUTPER.base ∨ b = R.NET_TOUTW.base then
    8 ≤ t.get F.NET_TOUTW_W i && decide (t.get F.NET_TOUTW_W i + 8 ≤ t.get F.NET_TOUTPER_PER i)
  else if b = R.NET_GPTIM.base then
    decide (1 ≤ t.get F.NET_GPTIM_TMIN i) && decide (t.get F.NET_GPTIM_TMIN i ≤ t.get F.NET_GPTIM_TMAX i)
  else if b = R.ACQ_RVCH.base then decide (t.get F.ACQ_RVCH_VFIRST i + t.get F.ACQ_RVCH_VCNT i ≤ 1024)
  else if b = R.ACQ_MCFG.base then t.get F.ACQ_MCFG_TEST i ≤ 1 && t.get F.ACQ_MCFG_ACTION i ≤ 2
  else if b = R.ACQ_RTRG0.base then t.get F.ACQ_RTRG0_KIND i j ≤ 8 && t.get F.ACQ_RTRG0_EDGE i j ≤ 2
  else true

/-- What another chapter asks of a register that the image names, on the values it leaves in force (R106). The redundancy mode and the
limits of the VBSRC channel come from PERIOD and PLANT. -/
def State.namedOk (s : State) (a : Nat) : Bool :=
  match findRow a with
  | some (r, i, j) =>
    let v := s.inForce a
    windowRange r i j v && !evtBelow r i v && (r.base == R.RED_MODE.base || s.specialOk s r i j)
  | none => false

/-- The sources that the loop graph reads: the inputs of its instances, and the sources that PR and RAMP name as parameters. -/
def State.graphSources (s : State) : List Nat :=
  (List.range s.ninst).flatMap fun n =>
    let p := fun j => s.instP n j
    (List.range (s.instIns n)).map (s.instSrc n) ++
      (if s.instType n = tPR then fieldGet (p 1) 27 16 :: (if (p 4).getLsbD 16 then [fieldGet (p 4) 11 0] else [])
       else if s.instType n = tRAMP then [fieldGet (p 1) 11 0] else [])

/-- An input has a range and a timeout (R43). The limits whose reset value is the image's are there only where the image names their
register; the limits of the bus voltage come from PLANT (R299), and every other source has its own from the device. -/
def State.declared (s : State) (named : Nat → Bool) (c : Nat) : Bool :=
  if 0x800 ≤ c ∧ c ≤ 0x817 then
    (c == s.get F.LVS_GCFG_VBSRC || named (F.ADC_FLIM_MIN.addr (c - 0x800))) && 1 ≤ s.get F.ADC_FCFG_TO (c - 0x800)
  else if 0x900 ≤ c ∧ c ≤ 0x91F then
    named (F.ADC_HLIM_MIN.addr (c - 0x900)) && named R.ADC_HKCFG.base && 1 ≤ s.get F.ADC_HCFG_TO (c - 0x900)
  else if 0x880 ≤ c ∧ c ≤ 0x8FF then
    let a := 0xE2000 + 16 * (c - 0x880)
    named a && named (a + 8) && 1 ≤ fieldGet (s.rd a) 3 0
  else true

/-- The sources that the LV stage and the pump read: of each use with a pair, of the pairs' trims, of a proportional chopper, of the pump's
duty (R258, R267, R285). -/
def State.lvSources (s : State) : List Nat :=
  ((List.range 5).filter fun u => (List.range 16).any fun n => s.pairUse n == u + 1).map (fun u => s.get F.LVS_USE_SRC u) ++
    (((List.range 16).filter fun n => s.pairUse n != 0).map (fun n => s.get F.LVS_CFG_TRIMSRC n)).filter (· != 0xFFF) ++
    ([0, 1].filter fun c => s.chopMode c == 2).map (fun c => s.get F.LVS_CHOPCFG_SRC c) ++ [s.get F.GDI_PUSRC_SRC]

/-- Every input read by the graph, the isolation stage, the LV loops or the pump has a defined source, so declared (R43, R197). -/
def State.inputsDeclared (s : State) (d : ImgData) : Bool :=
  let named := fun a => (d.regs ++ d.init).any fun x => x.1 == a
  s.lvSources.all (srcDefined s.ninst) && (s.get F.LVS_GCFG_VBSRC :: (s.graphSources ++ s.lvSources)).all (s.declared named)

/-- The rail voltage comes from a fast channel or a Sampled Values dataset, with a timeout of one period at most (R218). -/
def State.railOk (s : State) (d : ImgData) : Bool :=
  match d.rail with
  | none => true
  | some none => false
  | some (some c) =>
    if 0x800 ≤ c ∧ c ≤ 0x817 then s.get F.ADC_FCFG_TO (c - 0x800) ≤ 1
    else if 0x880 ≤ c ∧ c ≤ 0x8FF then
      let w := s.rd (0xE2000 + 16 * (c - 0x880))
      w.getLsbD 31 && w.getLsbD 30 && fieldGet w 3 0 ≤ 1
    else false

/-- Every content check of step 10 on an applied image. -/
def State.contentOk (s : State) (d : ImgData) : Bool :=
  s.inputsDeclared d && s.railOk d && s.img.plant.ok && s.img.per.ok && s.cellList.all s.cellRanges && s.hkFits && s.hkTimeOk &&
  s.windowsOk && s.tableOk && s.graphOk && s.lvOk && (d.regs ++ d.init).any (fun x => x.1 == R.GDI_CFG.base) &&
  (d.regs ++ d.init).all (fun x => inRanges x.1 x.2 && s.namedOk x.1) && s.thmOk && s.groupsUsed.all s.gcfgOk &&
  (s.cellList.all fun c => ((List.range 10).all fun n => s.prmOk c n (s.prm c n)) &&
    decide (s.prm c 0 + 1 ≤ s.get F.SYS_TXNCFG_ACTLEAD)) &&
  (!s.duplex || s.img.strings.lanes.all fun x => !x.used || x.farHead) && (!s.img.safety || s.img.sched.cMax ≤ 3000)

/-! ### Steps 6 to 11 (R106, R110, R111) -/

/-- Registers whose RO fields show what goes on beside the image, and keep their value when it is dropped: boot, clocks, temperature
and the fabric's counts and states (R111). CLK_CFG shows what the image declares. -/
def keptReg (a : Nat) : Bool := (0xFC000 ≤ a || (0x10000 ≤ a && a ≤ 0x2FFFF) || a == R.RED_STAT.base) && a != R.CLK_CFG.base

/-- What is left of a register: its RO fields as they are if it shows such a state, every other bit at reset. -/
def dropWord (a : Nat) (v : Word) : Word :=
  match findRow a with
  | some (r, _, _) =>
    let ro := r.fields.foldl (fun w f => if f.acc = .ro then w ||| fieldMask f.hi f.lo else w) (0 : Word)
    if keptReg a then (v &&& ro) ||| (resetWord a &&& ~~~ ro) else resetWord a
  | none => resetWord a

/-- A register file with every register so. -/
def dropRegs (m : Sparse Word) : Sparse Word := m.foldl (fun l x => Sparse.set resetWord l x.1 (dropWord x.1 x.2)) []

/-- The always-on domain without the registers that a dropped image set in it. -/
def State.aonBack (s : State) : Aon :=
  match s.boot.aonWas with
  | some x => { s.aon with cmpCfg := x.cmpCfg, oneshot := x.oneshot, slot := x.slot }
  | none => s.aon

/-- Every register back to its reset value, and the staging region to be wiped (R111). -/
def State.dropImage (s : State) : State :=
  { s with
    aon := s.aonBack
    saf := { s.saf with conns := [] }
    adc := { s.adc with winReady := 0 }
    regs := dropRegs s.regs
    evt := { s.evt with regs := dropRegs s.evt.regs }
    boot := { s.boot with mustWipe := true, stagingDone := false, aonWas := none }
    sec := { s.sec with imgDigest := [], okSlot := none }
    img := {}, groups := [], cells := [], chans := [], lanes := [], ce := {} }

/-- A slot fails after its apply began (R111). -/
def State.lateFail (s : State) (k code : Nat) : State := (s.dropImage.slotFail k code).nextSlot

/-- Steps 6 to 10 and the apply. -/
def State.verifyRest (s : State) : State :=
  match s.boot.slot with
  | none => s
  | some k =>
    let h := s.hdr k
    let n := s.ctLen k
    let ik := leAt h 0xB 1
    let key := Sparse.get (fun _ => []) s.otp.image ik
    if !Config.ed25519phOk (s.imgBytes k 0x100 32) s.boot.digest (s.imgBytes k (0x8D0 + n) 64) then (s.slotFail k 6).nextSlot
    else if !Config.mlDsaOk (s.imgBytes k 0x120 1952) s.boot.digest (s.imgBytes k (0x910 + n) 3309) then
      (s.slotFail k 7).nextSlot
    else if ik ≥ 2 ∨ key.isEmpty ∨ s.otp.imageRev.contains ik then (s.slotFail k 9).nextSlot
    else match Config.gcmOpen key (s.imgBytes k 0x1C 12) (s.imgBytes k 0 0x8C0) (s.imgBytes k 0x8C0 n)
        (s.imgBytes k (0x8C0 + n) 16) with
      | none => (s.slotFail k 9).nextSlot
      | some bs =>
        let a := s.put F.SEC_STATE_HSTATE 1
        match parseImage bs with
        | none => a.lateFail k 0xA
        | some l =>
          match decodeImage l with
          | none => a.lateFail k 0xB
          | some d =>
            let t := a.applyImage d
            if t.contentOk d then
              { t with
                boot := { t.boot with stage := .applied }
                sec := { t.sec with imgDigest := s.boot.digest, okSlot := some (leAt h 0xA 1) } }
            else a.lateFail k 0xB

/-- Instances of a register family in ascending address order. -/
def Row.addrs (r : Row) : List Nat :=
  (List.range (max r.n1 1)).flatMap fun i => (List.range (max r.n2 1)).map fun j => r.addr i j

/-- All blocks in address order. -/
def allBlocks : List Block :=
  [.sys, .evt, .clk, .thm, .adc, .cmp, .ce, .mvs, .iso, .lvs, .gdi, .dml, .cell, .red, .saf, .net, .acq, .sec]

/-- Insert an address in ascending order. -/
def mergeAddrs : Nat → List Nat → List Nat → List Nat
  | 0, a, b => a ++ b
  | _, [], b => b
  | _, a, [] => a
  | k + 1, x :: a, y :: b => if x ≤ y then x :: mergeAddrs k a (y :: b) else y :: mergeAddrs k (x :: a) b

/-- Addresses of the registers tagged as configuration, ascending (R83). -/
def cfgAddrs : List Nat :=
  allBlocks.foldl (fun acc b =>
    let l := ((rowsOf b).filter (·.cfg)).foldl (fun m r => mergeAddrs (m.length + r.addrs.length) m r.addrs) []
    acc ++ l) []

/-- A configuration register that exists in this image: instances at or above NINST do not (R216). -/
def State.cfgThere (s : State) (a : Nat) : Bool := !(0x48000 ≤ a && a ≤ 0x5FFFF && s.ninst ≤ (a - 0x48000) / 0x30) &&
  !(0x48000 ≤ a && a ≤ 0x5FFFF && s.instType ((a - 0x48000) / 0x30) == tMINSEL && ((a - 0x48000) % 0x30 / 4 == 3 || (a - 0x48000) % 0x30 / 4 == 4))

/-- The configuration CRC of R83: address and value in force, four little-endian bytes each. -/
def State.configCrc (s : State) : Nat :=
  crc32c ((cfgAddrs.filter s.cfgThere).flatMap fun a => leBytes 4 a ++ leBytes 4 (s.inForce a).toNat)

/-- Step 11 (R110): the first pass is compared with END.CFGREF. DESIGN CHOICE (log entry 24): SEC_STATE.SLOT, SEC_IMGSEQ and SEC_SVN.IMAGE, which
R135 gives to the running image, take its values here, before its first boundary. -/
def State.checkPass (s : State) : State :=
  match s.boot.slot with
  | none => s
  | some k =>
    if s.boot.stage ≠ .applied then s
    else
      let crc := s.configCrc
      let t := s.put F.SYS_CFGCRC_CRC crc
      if crc = s.boot.cfgref then
        let h := s.hdr k
        let u := ((t.put F.SYS_CFGREF_REF crc).bootResult k 1).put F.SEC_STATE_SLOT k
        let u := (u.put F.SEC_IMGSEQ_SEQ (leAt h 0xC 4)).put F.SEC_SVN_IMAGE (leAt h 0x10 4)
        let u := u.wrapInc F.SYS_CFGSTAT_PASSES
        let u : State := { u with boot := { u.boot with stage := .accepted } }
        if s.boot.fellBack then u.pulse Ev.IMG_FALLBACK k else u
      else t.lateFail k 0xC

/-- The four system PLLs are locked (R414, R417). -/
def State.clocksUp (s : State) : Bool := s.get F.CLK_STAT_LOCKED % 16 == 15

/-- SLOT_VERIFY: boot starts, the next slot is tried, once the staging region is wiped after a late failure (R111), or a slot whose
digest is ready is verified and applied. -/
def State.slotVerify (s : State) : State :=
  if s.get F.SEC_STATE_HSTATE ≠ 0 ∨ !s.clocksUp then s
  else if s.boot.stage = .digest then s.verifyRest
  else if s.boot.stage ≠ .idle ∨ s.boot.mustWipe then s
  else
    let t := if s.boot.ordered then s else s.bootStart
    if t.get F.SEC_STATE_HSTATE = 0 then t.trySlot else t

/-! ### The first boundary (R112, R323, R348, R395) -/

/-- The first boundary in RUN, after the final wipe of the staging region (R112): the role is taken, the ports start, the channels whose
reload it is reload (R255), and an image with a SAFETY section starts in whiteout,
the safe inputs are looked at for the first time (R351), a wake that came before RUN is reported (R313), a CAL starts (R395), maps that the
image enables take their pages (R410), and window latches meet their boundary (R310). -/
def State.firstBoundary (s : State) : State :=
  if s.get F.SEC_STATE_HSTATE = 1 ∧ s.boot.stage = .accepted ∧ s.boot.sramDone ∧ s.boot.dramDone ∧ s.boot.stagingDone then
    let s1 := (s.put F.SEC_STATE_HSTATE 2).setRole (if s.duplex then roleElect else roleNone)
    let s2 : State := { s1 with
      bnd := s1.ct, period := s1.period + 1, red := { s1.red with pad := !s1.duplex, drivenAt := s1.ct }
      bus := { s1.bus with mon := { s1.bus.mon with running := true, armed := true } } }
    let s3 := s2.reloadAll s2.reloadList
    let s3 := if s3.duplex ∧ ¬s3.flag F.RED_STAT_RESIGNI then s3.toAlign else s3
    let s4 := if s3.aon.wake then
        ({ s3 with aon := { s3.aon with wake := false } } : State).pulse Ev.AON_WAKE (Nat.log2 s3.aon.cause)
      else s3
    let s5 := s4.calStart 1
    let s6 := (List.range 8).foldl (fun t n => t.safeFollow n 2 false) (if s5.img.safety then s5.setWhiteout 1 0 else s5)
    (if s6.flag F.ACQ_MAPCFG_EN then s6.mapEnable true else s6).windowBoundary
  else s

end Sys2Proof.Machine
end

