-- ==== Sys2Proof/Machine/BusCmds.lean ====
section
/-! DEFINITION. What the command fields of registers do: cell and group commands (R22, R185 to R187, R234), clears of protection
latches (R280), forces (R263), the whiteout reset (R349), flash, attestation and key operations (R119 to R135). -/

namespace Sys2Proof.Machine

/-! ### Cell commands (R187) -/

/-- An open or committing transaction holds a staged IDHASH write for a cell that passes the test (R19). -/
def State.stagedHash (s : State) (p : Nat → Bool) : Bool :=
  decide (1 ≤ s.txState) && decide (s.txState ≤ 3) && s.bus.txn.staged.any fun x =>
    match R.CELL_ENTRYW.indexOf x.1 with
    | some (c, _) => p c
    | none => false

/-- A CELL_CTRL command is valid in the cell's present state (R187); START is refused in whiteout (R348) and while a new IDHASH
is staged (R19). -/
def State.cellCmdOk (s : State) (c cmd : Nat) : Bool :=
  let st := s.cState c
  if cmd = 1 then
    ((st == csBlocked && s.flag F.CELL_STAT_PRMOK c) || st == csQueued || st == csPrecharge) &&
      !s.whiteout && !s.stagedHash (· == c)
  else if cmd = 2 then st == csQueued || st == csPrecharge || st == csReady || st == csSpare
  else if cmd = 3 then (st == csRun || st == csReady || st == csSpare || st == csBlocked) && s.cByp c != 0
  else if cmd = 4 then st == csBypassed || st == csFailed
  else false

/-- STOP of a cell: to BLOCKED, returning any unit. A BYPASS that took effect at the same boundary still removes it at T_OPEN (R187). -/
def State.cellStopNow (s : State) (c : Nat) : State :=
  let t := (s.leaveTo c csBlocked).enterBlocked c
  t.setCell c { t.cell c with bypassDue := (s.cell c).bypassDue }

/-- A CELL_CTRL command at its boundary: one that is no longer valid is dropped with EV_CELL_CFG_REJ (R187). -/
def State.cellCmdNow (s : State) (c cmd : Nat) : State :=
  if !s.cellCmdOk c cmd then s.pulse Ev.CELL_CFG_REJ c cmd
  else if cmd = 1 then (if s.cState c = csBlocked then s.queueCell c else s)
  else if cmd = 2 then s.cellStopNow c
  else if cmd = 3 then s.setCell c { s.cell c with bypassDue := true }
  else s.setCell c { s.cell c with release := true }

/-- The start test of R22 over every group. -/
def State.startTest (s : State) : Bool := s.groupsUsed.all fun g => s.nMain g + s.img.plant.kstart ≤ s.nAvail g

/-- The first cell with a staged IDHASH write. -/
def State.hashCell (s : State) : Nat :=
  (s.bus.txn.staged.findSome? fun x => (R.CELL_ENTRYW.indexOf x.1).map Prod.fst).getD 0

/-- Group START at its boundary (R22, R187). DESIGN CHOICE (log entry 72): one that meets a transaction begun since its write with a staged
IDHASH write is dropped as R187 drops a CELL_CTRL command, with the cell of that write in CTX0. -/
def State.groupStartNow (s : State) : State :=
  let cs := s.cellList.filter fun c => s.cState c == csBlocked
  if s.stagedHash (fun _ => true) then s.pulse Ev.CELL_CFG_REJ s.hashCell 1
  else if s.whiteout || !s.startTest || cs.any (fun c => !s.flag F.CELL_STAT_PRMOK c) then s.pulse Ev.START_REFUSED
  else cs.foldl State.queueCell s

/-- Group STOP at its boundary (R187, R234): cells that can stop do, and RUN cells begin the controlled stop. -/
def State.groupStopNow (s : State) : State :=
  let s1 := (s.cellList.filter fun c => s.cellCmdOk c 2).foldl State.cellStopNow s
  let s2 := { s1 with ce := { s1.ce with stopDue := false } }
  if s2.cellList.any fun c => s2.cState c == csRun then s2.put F.MVS_STAT_STOPPING 1 else s2

/-- The boundary at which the blocks of a controlled stop apply (R234). -/
def State.stopBoundary (s : State) : State :=
  if s.ce.stopBlk then
    let s1 := (s.cellList.filter fun c => s.cState c == csRun).foldl State.cellStopNow s
    let s2 := (s1.put F.CE_LOOPEN_CONV 0).put F.MVS_STAT_STOPPING 0
    { s2 with ce := { s2.ce with stopBlk := false, stopDue := false } }
  else s

/-! ### Clears of protection latches (R280, R281) -/

/-- A latch was set in this control tick: a clear of it loses (R281). -/
def State.justSet (s : State) (x : Nat × Nat) : Bool := s.gdi.nowAct.contains x

/-- Clear of trip line `t`. -/
def State.clearTrip (s : State) (t : Nat) : State :=
  if !(s.get F.LVS_TRIPSTAT_LATCHED).testBit t then s
  else if (s.get F.LVS_TRIPSTAT_ACTIVE).testBit t || s.justSet (1, t) then s.clearRefused F.LVS_TRIPSTAT_TRIP_CLR_REJ t
  else
    let s1 := (s.putBit F.LVS_TRIPSTAT_LATCHED t false).noteClear (1, t)
    s.released (if s1.get F.LVS_TRIPSTAT_LATCHED = 0 then s1.clearAct Ev.LV_TRIP else s1)

/-- Clear of SHOOT_REJ of channel `n`: a SHOOTN trip ends with it. -/
def State.clearShoot (s : State) (n : Nat) : State :=
  if (s.chan n).shoot then
    if s.forceH n = 2 ∨ s.forceL n = 2 ∨ s.justSet (2, n) then s.clearRefused F.GDI_CLRSTAT_SHOOT n
    else
      let s1 := ((s.put F.LVS_PWM_STAT_SHOOT_REJ 0 n).setChan n { s.chan n with shoot := false }).noteClear (2, n)
      let s2 := if (List.range 16).any fun m => (s1.chan m).shoot then s1 else s1.clearAct Ev.LV_SHOOT
      s.released (s2.put F.LVS_PWM_STAT_SHOOTCNT 0 n)
  else s.put F.LVS_PWM_STAT_SHOOT_REJ 0 n

/-- Clear of FAULT latch `n`. -/
def State.clearFault (s : State) (n : Nat) : State :=
  if !(s.get F.GDI_FLT_LATCHED).testBit n then s
  else if s.gdi.fltAct.testBit n || (s.get F.GDI_FLT_READYLOW).testBit n || s.flag F.GDI_HOLD_ACTIVE || s.justSet (0, n) then
    s.clearRefused F.GDI_CLRSTAT_FAULT n
  else
    let s1 := (s.putBit F.GDI_FLT_LATCHED n false).noteClear (0, n)
    s.released (if s1.get F.GDI_FLT_LATCHED = 0 then s1.clearAct Ev.GD_FAULT else s1)

/-- Apply a clear to each bit of a mask. -/
def State.eachBit (s : State) (n mask : Nat) (f : State → Nat → State) : State :=
  ((List.range n).filter mask.testBit).foldl f s

/-! ### Forces (R263) -/

/-- Force fields held for channel `n`: H in bits 1 and 0, L in bits 3 and 2. -/
def State.heldForce (s : State) (n : Nat) : Nat :=
  if n < 8 then bitsOf (s.rd 0x80010).toNat (4 * n + 3) (4 * n)
  else if n < 16 then bitsOf (s.rd 0x80014).toNat (4 * (n - 8) + 3) (4 * (n - 8))
  else bitsOf (s.rd 0x80018).toNat (2 * (n - 16) + 1) (2 * (n - 16))

/-- All forces take the given values in one CT. -/
def State.setForces (s : State) (f : Nat → Nat) : State :=
  let s1 := (List.range 18).foldl (fun (t : State) n => t.put F.LVS_PWM_STAT_FORCE (f n) n) s
  (s1.putB F.LVS_STAT_FORCED ((List.range 18).any fun n => f n != 0)).refreshAll

def State.forceGo (s : State) : State := s.setForces s.heldForce
def State.forceRelease (s : State) : State := s.setForces fun _ => 0

/-! ### The whiteout reset (R349) -/

/-- The conditions of R349. -/
def State.resetAllowed (s : State) : Bool :=
  s.get F.SEC_STATE_HSTATE == 2 && s.flag F.SAF_STAT_LOGICOK &&
  ((List.range 8).all fun n =>
    let x := s.safeIn n
    !(s.safeMode n != 0 && s.safeLevel n) &&
    (!(s.get F.SAF_INSTAT_AFLT).testBit n || 2 ≤ x.passA) && (!(s.get F.SAF_INSTAT_BFLT).testBit n || 2 ≤ x.passB) &&
    (!(s.get F.SAF_INSTAT_DISC).testBit n || x.discEnded)) &&
  ((List.range 4).all fun t => !s.flag F.SAF_TGCFG_EN t ||
    (s.get F.SAF_TGSTAT_STATE t == 2 && !s.flag F.SAF_TGSTAT_TRIP t && s.flag F.SAF_TGSTAT_PERMIT t)) &&
  ((List.range 1024).all fun e => !(s.evActive e && s.evt.get F.EVT_CFG_REACT e == 5))

/-- RESET of SAF_CTRL. A demand of the same control tick wins (R349). The active of a pair clears with the standby, which learns of the
reset from the next REG segment (R350). -/
def State.safReset (s : State) : State :=
  if s.resetAllowed ∧ s.saf.demandAt ≠ some s.ct then
    { s with saf := { s.saf with
      resetAt := true, resetCt := s.ct
      resetHold := s.get F.RED_MODE_MODE % 2 == 1 && s.get F.RED_STAT_ROLE == 2 && s.red.regSent } }
  else (s.put F.SAF_STAT_RST_REJ 1).pulse Ev.SAF_RST_REJ

/-- The latches of the safe inputs end with an accepted reset (R353, R355); the runs of pulse checks go on. -/
def State.clearSafeIn (s : State) (n : Nat) : State :=
  let v := ((s.putBit F.SAF_INSTAT_AFLT n false).putBit F.SAF_INSTAT_BFLT n false).putBit F.SAF_INSTAT_DISC n false
  v.setSafeIn n { v.safeIn n with bothDown := false, discEnded := false }

/-- The boundary at which an accepted reset clears the latch, and the latches of inputs that set none. -/
def State.resetBoundary (s : State) : State :=
  if s.saf.resetAt then
    if s.saf.resetHold then { s with saf := { s.saf with resetHold := false } }
    else
      let t := (List.range 8).foldl State.clearSafeIn s
      let t := (List.range 8).foldl (fun (u : State) n => u.safeFollow n 2 false) t
      let t := ({ t with saf := { t.saf with resetAt := false, blkSent := false } } : State)
      s.released (((t.put F.SAF_STAT_WO 0).put F.SAF_STAT_CAUSES 0).clearAct Ev.SAF_WHITEOUT)
  else s

/-! ### Stopped (R319, R120) -/

/-- A cell on its way into service or in it. -/
def cellActive (st : Nat) : Bool := csQueued ≤ st && st ≤ csSpare

/-- The converter is stopped, as R319 asks for a change of mode. -/
def State.stopped (s : State) : Bool :=
  !s.flag F.CE_LOOPEN_CONV && (s.cellList.all fun c => !cellActive (s.cState c)) &&
  ((List.range 16).all fun n => s.pairUse n == 0 || !s.useLoop n) && s.puState == pumpOff

/-- A cell, an LV output or the pump is enabled (R120). -/
def State.anyEnabled (s : State) : Bool :=
  (s.cellList.any fun c => cellActive (s.cState c)) || ((List.range 18).any fun n => (s.chan n).running) ||
  (s.puState != pumpOff && s.puState != pumpLatched)

/-! ### Security commands (R119 to R135) -/

/-- Life-cycle requests that exist (R120). -/
def State.lcAllowed (s : State) (target : Nat) : Bool :=
  let l := s.otp.lcs
  (l == 0 && target == 1 && !s.otp.owner.isEmpty && !s.otp.image.isEmpty) || (l == 1 && target == 2) ||
  ((l == 1 || l == 2) && target == 3) ||
  (l == 3 && target == 4 && Config.tokenOk (s.regBytes F.SEC_KEYBUF_WORD.base 32))

/-- A life-cycle request (R120); one over the network is refused (R390). -/
def State.lcRequest (s : State) (path target : Nat) : State × Code :=
  if path ≠ 0 || !s.lcAllowed target || (s.get F.SEC_STATE_HSTATE = 2 && s.anyEnabled) || s.get F.SEC_STATE_HSTATE = 3 then (s, .state)
  else ({ s with sec := { s.sec with lcTarget := some target } }, .ok)

/-- The number of a key slot exists for an operation: four owner slots, two image and two network slots (R135). -/
def keySlotOk (op slot : Nat) : Bool := (op == 1 || op == 4) && slot < 4 || (op == 2 || op == 3 || op == 5) && slot < 2 || op ≥ 6

/-- A key operation is allowed (R119, R122, R123). -/
def State.keyopOk (s : State) (op slot : Nat) : Bool :=
  let l := s.otp.lcs
  let own := Sparse.get (fun _ => []) s.otp.owner slot
  let img := Sparse.get (fun _ => []) s.otp.image slot
  let net := Sparse.get (fun _ => []) s.nv.netKeys slot
  let live := (List.range 4).filter fun n => !(Sparse.get (fun _ => []) s.otp.owner n).isEmpty && !s.otp.ownerRev.contains n
  keySlotOk op slot &&
  (if op = 1 then l ≤ 1 && own.isEmpty else if op = 2 then l ≤ 1 && img.isEmpty else if op = 3 then l ≤ 1 && net.isEmpty
   else if op = 4 then (l == 1 || l == 2) && !own.isEmpty && !s.otp.ownerRev.contains slot && live != [slot]
   else if op = 5 then (l == 1 || l == 2) && !img.isEmpty && !s.otp.imageRev.contains slot
   else if op = 6 then (l == 1 || l == 2) && s.get F.SEC_STATE_HSTATE == 2
   else op == 7)

/-- A key operation begins (R122, R135). DESIGN CHOICE (log entry 67): the spec does not say what an operation returns while another runs,
it returns STATE; nor when the rejection of R122 shows: the write of a rejected operation returns OK, and FAIL shows it when the
operation completes. -/
def State.keyopGo (s : State) (path op slot : Nat) : State × Code :=
  if path ≠ 0 ∨ s.flag F.SEC_KEYSTAT_BUSY then (s, .state)
  else if op = 0 ∨ 7 < op then (s, .range)
  else
    let t := s.put F.SEC_KEYSTAT_BUSY 1
    ({ t with sec := { t.sec with keyop := some (op, slot, !s.keyopOk op slot) } }, .ok)

/-- What a key operation does. -/
def State.keyopDo (s : State) (op slot : Nat) : State :=
  let buf := s.regBytes F.SEC_KEYBUF_WORD.base
  if op = 1 then { s with otp := { s.otp with owner := Sparse.set (fun _ => []) s.otp.owner slot (buf 24) } }
  else if op = 2 then { s with otp := { s.otp with image := Sparse.set (fun _ => []) s.otp.image slot (buf 8) } }
  else if op = 3 then { s with nv := { s.nv with netKeys := Sparse.set (fun _ => []) s.nv.netKeys slot (buf 8) } }
  else if op = 4 then { s with otp := { s.otp with ownerRev := slot :: s.otp.ownerRev } }
  else if op = 5 then { s with otp := { s.otp with imageRev := slot :: s.otp.imageRev } }
  else if op = 6 then { s with otp := { s.otp with svn := max s.otp.svn (s.get F.SEC_SVN_IMAGE) } }
  else s

/-- SEC_KEYBUF is cleared. -/
def State.clearKeybuf (s : State) : State := (List.range 32).foldl (fun (t : State) i => t.wr (F.SEC_KEYBUF_WORD.addr i) 0) s

/-- The key operation ends (R122). -/
def State.keyopEnd (s : State) : State :=
  match s.sec.keyop with
  | some (op, slot, bad) =>
    let t := (if bad then s else s.keyopDo op slot).clearKeybuf
    let t := (t.put F.SEC_KEYSTAT_BUSY 0).putB F.SEC_KEYSTAT_FAIL bad
    { t with sec := { t.sec with keyop := none } }
  | none => s

/-- GO of the attestation (R130). -/
def State.attestGo (s : State) : State :=
  if s.flag F.SEC_ATTSTAT_BUSY then s else (s.put F.SEC_ATTSTAT_BUSY 1).put F.SEC_ATTSTAT_DONE 0

/-- The running slot in a report: 0xFF where no image runs. -/
def State.runSlot (s : State) : Nat :=
  if s.get F.SEC_STATE_HSTATE = 2 ∨ s.get F.SEC_STATE_HSTATE = 3 then s.get F.SEC_STATE_SLOT else 0xFF

/-- Bytes 0x000 to 0x0FF of the report (R131). DESIGN CHOICE (log entry 68): flag [1], "tamper since boot", is SEC_TAMPER not 0, since a
tamper resets the head and so is recorded before any boot; where no image runs the digest and the owner key hashes are zeros. -/
def State.attReport (s : State) : List Byte :=
  let head : List Byte := [0x4C, 0x59, 0x41, 0x54]
  let flags := (if s.servoLocked then 1 else 0) + (if s.aon.tamper = 0 then 0 else 2) +
    (if s.fsumWord.getLsbD 31 then 4 else 0)
  head ++ leBytes 2 1 ++ leBytes 2 0x7640 ++ leBytes 1 Config.siliconStep ++ leBytes 1 s.otp.lcs ++
    leBytes 1 (s.get F.SEC_STATE_HSTATE) ++ leBytes 1 s.runSlot ++ leBytes 4 (s.get F.SEC_IMGSEQ_SEQ) ++
    leBytes 4 (s.get F.SEC_SVN_IMAGE) ++ leBytes 4 s.otp.svn ++ leBytes 4 s.nv.bootCnt ++ leBytes 4 (s.get F.SEC_RSTCAUSE_CAUSE) ++
    s.regBytes F.SEC_ATTNONCE_NONCE.base 8 ++ padTo 64 s.sec.imgDigest ++
    padTo 96 ((s.sec.okSlot.map (Sparse.get (fun _ => []) s.otp.owner)).getD []) ++
    leBytes 4 (s.get F.SYS_CFGREF_REF) ++ leBytes 4 (s.get F.SYS_CFGCRC_CRC) ++ leBytes 8 s.period ++ leBytes 8 s.netNow ++
    leBytes 4 flags ++ leBytes 4 0

/-- The report is complete in SEC_ATT (R131). -/
def State.attestDone (s : State) : State :=
  if s.flag F.SEC_ATTSTAT_BUSY then
    let r := s.attReport
    let bs := r ++ padTo 64 (Config.ed25519Sign r) ++ padTo 3309 (Config.mlDsaSign r)
    let t := (wordsOf bs).zipIdx.foldl (fun (u : State) x => u.wr (F.SEC_ATT_WORD.addr x.2) x.1) s
    (t.put F.SEC_ATTSTAT_BUSY 0).put F.SEC_ATTSTAT_DONE 1
  else s

/-- An address lies in the slot from which the running image came. -/
def State.inRunSlot (s : State) (a : Nat) : Bool :=
  (s.get F.SEC_STATE_HSTATE == 2 || s.get F.SEC_STATE_HSTATE == 3) && s.slotSize != 0 && a / s.slotSize == s.get F.SEC_STATE_SLOT

/-- A flash operation begins (R134): 1 erases a sector, 2 programs a page, 3 reads one. DESIGN CHOICE (log entry 69): where the spec is
silent, a command while one runs returns STATE, and an address at or beyond the flash density returns RANGE. -/
def State.nvmGo (s : State) (cmd a : Nat) : State × Code :=
  if s.flag F.SEC_NVMSTAT_BUSY then (s, .state)
  else if cmd = 0 then (s, .ok)
  else if a % (if cmd = 1 then 4096 else 256) ≠ 0 ∨ s.pins.density ≤ a then (s, .range)
  else if cmd ≠ 3 ∧ s.inRunSlot a then (s, .state)
  else
    let t := s.put F.SEC_NVMSTAT_BUSY 1
    ({ t with sec := { t.sec with nvm := some (cmd, a) } }, .ok)

/-- A flash operation ends; ERR shows whether it failed. DESIGN CHOICE (log entry 69): programming a page that is not erased leaves the AND
of old and new bytes, a failed operation leaves the flash as it was, and a program command takes SEC_NVMBUF as it stands at the end of
the operation; the spec says none of these. -/
def State.nvmEnd (s : State) (ok : Bool) : State :=
  match s.sec.nvm with
  | some (cmd, a) =>
    let t := if !ok then s
      else if cmd = 1 then s.flashPut a (List.replicate 4096 0xFF)
      else if cmd = 2 then s.flashPut a (List.zipWith (· &&& ·) (s.flashGet a 256) (s.regBytes F.SEC_NVMBUF_WORD.base 64))
      else (wordsOf (s.flashGet a 256)).zipIdx.foldl (fun (u : State) x => u.wr (F.SEC_NVMBUF_WORD.addr x.2) x.1) s
    let t := (t.put F.SEC_NVMSTAT_BUSY 0).putB F.SEC_NVMSTAT_ERR (!ok)
    { t with sec := { t.sec with nvm := none } }
  | none => s

/-- SEC_RESET.GO (R127, R135): a reset from RUN first writes the fault summary. -/
def State.resetGo (s : State) : State := (if s.get F.SEC_STATE_HSTATE = 2 then s.writeSummary 3 else s).hardReset 3

/-- The life-cycle change 1 ms after its request (R121). -/
def State.lcChange (s : State) : State :=
  match s.sec.lcTarget with
  | some l =>
    let s1 := if s.get F.SEC_STATE_HSTATE = 2 then s.writeSummary 6 else s
    ((((s1.wipeFlag (some l)).lcSteps l).wipeFlag none)).hardReset 6
  | none => s

end Sys2Proof.Machine
end

