-- ==== Sys2Proof/Machine/BusCheck.lean ====
section
/-! DEFINITION. What a register write must satisfy before it is taken: where it may go in the head's present state (R108, R119, R125,
R329), the ranges of its fields and the ranges that other chapters state (RANGE of R60), the states that refuse it (STATE of R60),
and what COMMIT asks of a whole transaction. -/

namespace Sys2Proof.Machine

/-! ### Rows -/

/-- The register has a writable field. -/
def Row.writable (r : Row) : Bool := r.fields.any FieldSpec.takes

/-- A writable field is guarded by `g`. -/
def Row.guarded (r : Row) (g : Guard) : Bool := r.fields.any fun f => f.takes && f.guard == g

/-- Every writable field has the apply point immediate (R65). -/
def Row.immediate (r : Row) : Bool := r.fields.all fun f => !f.takes || f.apply == .immediate

/-- Bits of the fields that pass a test. -/
def Row.maskOf (r : Row) (p : FieldSpec → Bool) : Word :=
  r.fields.foldl (fun w f => if p f then w ||| fieldMask f.hi f.lo else w) 0

/-- The register of which `a` is the complement word (R69). -/
def complOf (a : Nat) : Option (Row × Nat × Nat) :=
  if a < 4 then none
  else match findRow (a - 4) with
    | some x => if x.1.guarded .g2 then some x else none
    | none => none

/-! ### Where an access may go -/

/-- The life cycle or NOIMAGE closes an address (R108, R119); SEC_DEVID is open in every state (R129). -/
def State.shut (s : State) (a : Nat) : Bool :=
  match blockOf a with
  | none => false
  | some b =>
    if R.SEC_DEVID.base ≤ a ∧ a < R.SEC_DEVID.base + 0x1000 then false
    else if s.otp.lcs = 4 then true
    else if s.otp.lcs = 3 then a != R.SYS_ID.base && a != R.SYS_THAW.base && b != .sec
    else s.get F.SEC_STATE_HSTATE == 4 && b != .sys && b != .evt && b != .sec

/-- Writes of the SEC block that RETIRED leaves open (R119, R120). -/
def retiredOpen (r : Row) : Bool :=
  [R.SYS_THAW.base, R.SEC_ATTCMD.base, R.SEC_ATTNONCE.base, R.SEC_KEYBUF.base, R.SEC_LCREQ.base].contains r.base

/-- Writes that RESIGNED leaves open (R125). -/
def resignedOpen (r : Row) : Bool :=
  (r.writable && r.fields.all fun f => !f.takes || f.acc == .w1c) ||
  [R.SYS_THAW.base, R.SYS_FREEZE.base, R.SEC_ATTCMD.base, R.SEC_ATTNONCE.base, R.ACQ_WMAP.base, R.SEC_RELEASE.base].contains r.base

/-- Writes that a standby refuses from its own paths (R329). -/
def standbyShut (r : Row) : Bool :=
  r.cfg || [R.CELL_CTRL.base, R.CELL_GCTRL.base, R.CE_LOOPEN.base, R.LVS_FORCEGO.base].contains r.base

/-- The head's state refuses a write to a register. -/
def State.writeShut (s : State) (r : Row) : Bool :=
  (s.otp.lcs == 3 && !retiredOpen r) || (s.get F.SEC_STATE_HSTATE == 3 && !resignedOpen r) || (s.isStandby && standbyShut r)

/-- An instance of the loop graph that the image does not have (R216). -/
def State.noInst (s : State) (a : Nat) : Bool := 0x48000 ≤ a && a ≤ 0x5FFFF && s.ninst ≤ (a - 0x48000) / 0x30

/-- The register at an address. -/
def State.rowAt (s : State) (a : Nat) : Option (Row × Nat × Nat) := if s.noInst a then none else findRow a

/-- The input words of a MINSEL are fixed (R201). -/
def State.fixedWord (s : State) (a : Nat) : Bool :=
  0x48000 ≤ a && a ≤ 0x5FFFF && s.instType ((a - 0x48000) / 0x30) == tMINSEL &&
  ((a - 0x48000) % 0x30 / 4 == 3 || (a - 0x48000) % 0x30 / 4 == 4)

/-! ### The view of a write -/

/-- A path owns the open transaction. -/
def State.ownsOpen (s : State) (path : Nat) : Bool := s.txState == txOpen && s.get F.SYS_TXNSTAT_OWNER == path

/-- The register file as the open transaction would leave it. -/
def State.withStaged (s : State) : State := s.bus.txn.staged.foldl (fun (t : State) x => t.loadRw x.1 x.2) s

/-- The register file as a write would leave it, over the writer's staged writes. -/
def State.view (s : State) (path a : Nat) (v : Word) : State :=
  (if s.ownsOpen path then s.withStaged else s).loadRw a v

/-- The range checks on a write: what refuses it, if anything does. `some true` is a setting refused under R49. -/
def State.rangeFault (s : State) (path a : Nat) (v : Word) (r : Row) (i j : Nat) : Option Bool :=
  if evtBelow r i v then some true
  else if !rowRange r v || !windowRange r i j v then some false
  else if r.maskOf (fun f => f.acc == .rw) != 0 && !s.specialOk (s.view path a v) r i j then some false
  else none

/-! ### States that refuse a write -/

/-- Setup registers of a recorder (R400). -/
def recSetup (r : Row) : Bool :=
  [R.ACQ_RCFG.base, R.ACQ_RCH.base, R.ACQ_RVCH.base, R.ACQ_RPRE.base, R.ACQ_RPOST.base, R.ACQ_RRED.base, R.ACQ_RCOMB.base,
    R.ACQ_RHOLD.base, R.ACQ_RTRG0.base, R.ACQ_RTRG1.base].contains r.base

/-- The present state admits a write to a register with an apply point (R19, R187, R258, R288, R319, R348, R393, R400). -/
def State.stateOk (s : State) (r : Row) (i : Nat) (v : Word) : Bool :=
  let b := r.base
  if b = R.LVS_CMP.base then isPair i && s.flag F.LVS_CFG_HOSTCTL i
  else if b = R.CELL_CTRL.base then s.cState i != csEmpty && s.cellCmdOk i (fieldGet v 2 0)
  else if b = R.CELL_GCTRL.base then
    fieldGet v 1 0 != 1 || (!s.whiteout && !s.stagedHash fun _ => true)
  else if b = R.GDI_PUCTRL.base then fieldGet v 1 0 != 1 || s.puState != pumpLatched
  else if b = R.CE_LOOPEN.base then !(v.getLsbD 0 && s.whiteout)
  else if b = R.CELL_ENTRYW.base then hashWritable (s.cState i)
  else if b = R.CELL_PRM.base then s.cState i != csEmpty
  else if b = R.RED_MODE.base then s.stopped
  else if b = R.ACQ_VCH.base then (List.range 8).all fun k => s.rState k == 0 || !(s.rVirt k).contains i
  else !recSetup r || s.rState i == 0

/-! ### What COMMIT asks (R256, R301, R312, R362) -/

/-- A register of a family is staged. -/
def State.stages (s : State) (r : Row) : Bool := s.bus.txn.staged.any fun x => (r.indexOf x.1).isSome

/-- The legs of one use share one PER (R256). -/
def State.perShared (s : State) : Bool :=
  (List.range 16).all fun n => s.pairUse n == 0 ||
    s.get F.LVS_PER_PER n == s.get F.LVS_PER_PER ((s.usePairs (s.pairUse n)).headD 0)

/-- What a transaction may not do to a window in use (R312); `t` is the register file after it. -/
def State.windowsKept (s t : State) : Bool :=
  (List.range 16).all fun w =>
    (t.get F.CMP_CFG_CHAN w == s.get F.CMP_CFG_CHAN w ||
      ((w != t.get F.GDI_CFG_IBUSWIN || t.get F.CMP_CFG_CHAN w == t.get F.GDI_CFG_IBUSCH) &&
       ([0, 1].all fun c => t.chopMode c == 0 || t.get F.LVS_CHOPCFG_WIN c != w || t.get F.CMP_CFG_CHAN w == t.vbChan))) &&
    (!s.flag F.CMP_CFG_EN w || t.flag F.CMP_CFG_EN w || !t.windowNamed w) &&
    (!s.flag F.CMP_CFG_EN w ||
      t.get F.ADC_FCFG_FSR (s.get F.CMP_CFG_CHAN w) == s.get F.ADC_FCFG_FSR (s.get F.CMP_CFG_CHAN w))

/-- What refuses a COMMIT, if anything does. -/
def State.commitFault (s : State) : Option Code :=
  let t := s.withStaged
  if (s.stages R.SAF_TPCFG || s.stages R.SAF_TGGLOB || s.stages R.SAF_INCFG || s.stages R.SAF_TGCFG) && !s.whiteout then
    some .state
  else if (s.stages R.LVS_PER && !t.perShared) || ((s.stages R.ADC_HKCFG || s.stages R.ADC_HKENT) && !t.hkFits) ||
      !s.windowsKept t then some .range
  else none

end Sys2Proof.Machine
end

