-- ==== Sys2Proof/Machine/BusApply.lean ====
section
/-! DEFINITION. How a write takes effect: the value in force and what follows from it, the block buffers and their apply points
(R9, R62 to R66), forwarding to a standby (R82, R325, R329), and the transaction from BEGIN to DONE (R71 to R82). -/

namespace Sys2Proof.Machine

/-! ### A value comes into force -/

/-- Put the bits of `mask` of a value in force. -/
def State.putBits (s : State) (a : Nat) (v mask : Word) : State := s.load a ((s.inForce a &&& ~~~ mask) ||| (v &&& mask))

/-- The arming of R21 follows CONV and the cells in RUN. -/
def State.armGroups (s : State) : State :=
  let conv := s.flag F.CE_LOOPEN_CONV
  s.groupsUsed.foldl (fun (t : State) g =>
    let x := t.group g
    t.setGroup g { x with armed := conv && (x.armed || t.nMain g ≤ t.nSvc g) }) s

/-- The setting of a window has changed (R309, R310, R312); `was` is its old EN. -/
def State.windowApply (s : State) (w : Nat) (was : Bool) : State :=
  let s1 := if s.flag F.CMP_CFG_EN w == was then s.evalWindow w else if was then s.closeWindow w else s.presetWindow w
  if s1.get F.CMP_CFG_LATCH w = 0 then
    (s1.put F.CMP_STAT_LATU (s1.get F.CMP_STAT_OUTU w) w).put F.CMP_STAT_LATL (s1.get F.CMP_STAT_OUTL w) w
  else s1

/-- A bucket keeps the lower of its tokens and a new SQBURST (R52). DESIGN CHOICE (log entry 63): at a change of SQBURST or SQINT it is first
brought up to date under the old values, and the new ones hold from then on; the spec does not say what a new SQINT does to the time
already elapsed. -/
def State.bucketApply (s : State) (ev : Nat) : State :=
  { s with evt := s.evt.setBucket ev (s.evt.refill ev s.ct) }

/-- A pass in progress is discarded and counted (R86). -/
def State.discardPass (s : State) : State :=
  if s.bus.mon.running && !s.bus.mon.discard then
    let t := s.errInc F.SYS_CFGSTAT_SKIP 1514
    { t with bus := { t.bus with mon := { t.bus.mon with discard := true } } }
  else s

/-- The mode has left DUPLEX (R319): the active drives alone, and the crosslink is powered down (R163). A standby stays in its role,
and so drives nothing. -/
def State.duplexLeft (s : State) : State :=
  let t := ((([24, 25].foldl State.laneOff s).put F.DML_QSTAT_POWERED 0 6).put F.DML_QSTAT_LOCKED 0 6).putBit F.CLK_STAT_LLOCKED 6 false
  if t.role = roleActive then t.setRole roleNone else t

/-- What a value in force brings with it: `s` is the state before it, `t` the state with the value in place. -/
def State.followUp (s t : State) (r : Row) (i : Nat) (v : Word) : State :=
  let b := r.base
  if b = R.LVS_CMP.base then
    t.setChan i { t.chan i with shCmp := if isPair i && t.pairUse i != 0 && !t.useLoop i then 0 else fieldGet v 19 0 }
  else if b = R.CELL_CTRL.base then t.cellCmdNow i (fieldGet v 2 0)
  else if b = R.RED_MODE.base then (if s.duplex && !t.duplex then t.duplexLeft else t)
  else if b = R.CELL_GCTRL.base then
    if fieldGet v 1 0 = 1 then t.groupStartNow else if fieldGet v 1 0 = 2 then t.groupStopNow else t
  else if b = R.GDI_PUCTRL.base then
    if fieldGet v 1 0 = 1 then t.pumpStartNow else if fieldGet v 1 0 = 2 then t.pumpStopNow else t
  else if b = R.LVS_CHOPCFG.base then
    if t.chopMode i == s.chopMode i && t.get F.LVS_CHOPCFG_WIN i == s.get F.LVS_CHOPCFG_WIN i then t else t.chopApply i
  else if b = R.CE_LOOPEN.base then t.armGroups.refreshAll
  else if b = R.ACQ_MAPCFG.base then
    if t.flag F.ACQ_MAPCFG_EN == s.flag F.ACQ_MAPCFG_EN then t else t.mapEnable (t.flag F.ACQ_MAPCFG_EN)
  else if b = R.CELL_ENTRYW.base then t.setCell i { t.cell i with fresh := true, loSeen := false, hiSeen := false }
  else if b = R.SAF_INCFG.base then t.safeFollow i 2 (t.safeLevel i && !s.safeLevel i)
  else if b = R.SAF_TGCFG.base then t.connApply i
  else if b = R.SYS_CFGREF.base then t.discardPass
  else if b = R.CMP_AONCFG.base then t.setAonCfg i (v &&& r.rwMask)
  else if b = R.CMP_CFG.base then t.windowApply i (s.flag F.CMP_CFG_EN i)
  else if b = R.CMP_THR.base then t.evalWindow i
  else if b = R.LVS_GCFG.base ∨ b = R.ADC_FLIM.base then t.holdVbLim
  else if b = R.NET_DCFG.base then t.showDom i
  else if b = R.NET_CTRL.base then t.linksDown
  else if b = R.LVS_TRIPSCOPE.base ∨ b = R.GDI_FSCOPE.base then s.released t
  else t

/-- The bits of `mask` of an accepted write take effect. -/
def State.applyBits (s : State) (a : Nat) (v mask : Word) : State :=
  match s.rowAt a with
  | some (r, i, _) =>
    let v := fixBits r i v
    let s1 := if r.base = R.EVT_CFG.base then s.bucketApply i else s
    s1.followUp (s1.putBits a v (mask &&& r.rwMask)) r i v
  | none => s

/-! ### Forwarding (R82, R325, R329) -/

/-- The active of a duplex pair passes a write or a transaction step on. -/
def State.forward (s : State) (e : RegEntry) : State :=
  if s.duplex ∧ s.role = roleActive then { s with red := { s.red with regOut := s.red.regOut ++ [e] } } else s

/-- A REG segment is full: further accesses wait until its entries have been sent (R325). -/
def State.regFull (s : State) : Bool := s.duplex && s.role == roleActive && 64 ≤ s.red.regOut.length

/-! ### Buffers (R62 to R66) -/

/-- LV channel of a register with apply point pwm. -/
def pwmChan (r : Row) (i j : Nat) : Nat := if r.base = R.LVS_DTB.base then j else i

/-- Registers that belong to one network port. -/
def portRow (r : Row) : Bool :=
  [R.NET_PCFG.base, R.NET_MACLO.base, R.NET_MACHI.base, R.NET_IP.base, R.NET_TXCOR.base, R.NET_RXCOR.base,
    R.NET_ASYM.base].contains r.base

/-- The ports whose packets a register concerns: its own; PM for EVT_CTRL, whose NETNOTIFY sends on PM (R57); every port for NET_CTRL and
NET_RAPCFG; PA and PB for the telegrams, PTP, GOOSE and Sampled Values, which PM does not carry (R367). -/
def packetPorts (r : Row) (i : Nat) : List Nat :=
  if portRow r then [i] else if r.base = R.EVT_CTRL.base then [2]
  else if r.base = R.NET_CTRL.base ∨ r.base = R.NET_RAPCFG.base then [0, 1, 2] else [0, 1]

/-- The lowest of the bits of a register that stand for one port each: NET_CTRL.EN, NET_RAPCFG.PORTS, NET_DCFG.PORTS, NET_GPCFG.PORTS. -/
def portBits (r : Row) : Option Nat :=
  if r.base = R.NET_CTRL.base ∨ r.base = R.NET_RAPCFG.base then some 0
  else if r.base = R.NET_DCFG.base then some 26 else if r.base = R.NET_GPCFG.base then some 29 else none

/-- The bits of a register that stand for a port other than `p`. -/
def otherPorts (r : Row) (i p : Nat) : Word :=
  match portBits r with
  | some b => (packetPorts r i).foldl (fun w q => if q = p then w else w ||| (1#32 <<< (b + q))) 0
  | none => 0

/-- Bits of a register that an apply point reaches (R9). A bit that stands for one port waits for that port's packet. DESIGN CHOICE (log
entry 64): a field that serves several ports comes into force at the first packet on one of them; each later packet on another port is
itself an apply point, so that no port handles a packet under the old value (R76). -/
def dueMask (r : Row) (i j : Nat) : ApplyTarget → Word
  | .period => r.maskOf fun f => f.takes && f.apply == .period
  | .frame l => if i = l.val then r.maskOf fun f => f.takes && f.apply == .frame else 0
  | .pwm n => if pwmChan r i j = n.val then r.maskOf fun f => f.takes && f.apply == .pwm else 0
  | .packet p =>
    if (packetPorts r i).contains p.val then (r.maskOf fun f => f.takes && f.apply == .packet) &&& ~~~ otherPorts r i p.val else 0

/-- Bits of a buffered write that an apply point reaches; a reload passes over a write whose commit fell in its control tick (R66), and a
write that has yet to leave in a REG segment waits for it (R329). -/
def State.dueBits (s : State) (w : BufWrite) (p : ApplyTarget) : Word :=
  match s.rowAt w.addr with
  | some (r, i, j) => if w.wait ∨ w.notAt = some s.ct then 0 else w.mask &&& dueMask r i j p
  | none => 0

/-- Writes that a block's buffer holds. -/
def State.bufCount (s : State) (a : Nat) : Nat := (s.bus.buf.filter fun w => blockOf w.addr == blockOf a).length

/-- Put a write in its block's buffer: it replaces earlier writes of the same register, which keep their places until an apply point
drains them (R62, R64), and what of the register is left in the apply stage. -/
def State.pushBuf (s : State) (w : BufWrite) : State :=
  { s with bus := { s.bus with
    buf := (s.bus.buf.map fun x => if x.addr = w.addr then { x with old := true } else x) ++ [w]
    stage := s.bus.stage.filter fun x => x.addr != w.addr } }

/-- Put what is left of a staged write in the apply stage (R76). -/
def State.pushStage (s : State) (w : BufWrite) : State :=
  { s with bus := { s.bus with stage := (s.bus.stage.filter fun x => x.addr != w.addr) ++ [w] } }

/-- The REG segment of this period has left: what the active accepts now reaches the standby in the next period (R325). -/
def State.regGone (s : State) : Bool := s.duplex && s.role == roleActive && s.red.regSent

/-- Offer a write to its block's buffer: 64 writes fill it, and the next is held (R64), as it is behind a full REG segment (R325). A
write that enters is forwarded to a standby. DEDUCED (log entry 39): both heads apply it at the same apply point (R329), so one that the REG
segment of this period cannot carry waits until the next has left; a host compare alone keeps its deadline (R66). -/
def State.offerBuf (s : State) (w : BufWrite) : State :=
  if s.regFull || 64 ≤ s.bufCount w.addr ||
      s.bus.held.any (fun x => blockOf x.addr == blockOf w.addr) then
    { s with bus := { s.bus with held := s.bus.held ++ [w] } }
  else (s.pushBuf { w with wait := s.regGone && (R.LVS_CMP.indexOf w.addr).isNone }).forward ⟨w.addr, w.val, w.path, .write⟩

/-- Held writes enter the buffers that have drained, in their order. -/
def State.takeHeld (s : State) : State :=
  s.bus.held.foldl State.offerBuf { s with bus := { s.bus with held := [] } }

/-- What an apply point leaves of a list of writes. -/
def State.restOf (s : State) (ws : List BufWrite) (p : ApplyTarget) : List BufWrite :=
  (ws.map fun w => { w with mask := w.mask &&& ~~~ s.dueBits w p }).filter fun w => w.mask != 0

/-- An apply point: the writes it reaches take effect in the order of their acceptance (R62), those of the apply stage last (R90). -/
def State.drain (s : State) (p : ApplyTarget) : State :=
  let s1 := (s.bus.buf.filter (!·.old) ++ s.bus.stage).foldl (fun (t : State) w =>
    let due := s.dueBits w p
    if due = 0 then t else t.applyBits w.addr w.val due)
    ({ s with bus := { s.bus with buf := s.restOf s.bus.buf p, stage := s.restOf s.bus.stage p } } : State)
  s1.takeHeld

/-! ### Transactions (R71 to R82) -/

/-- Change the transaction's engine state. -/
def State.setTxn (s : State) (x : Txn) : State := { s with bus := { s.bus with txn := x } }

/-- BEGIN (R71). -/
def State.txBegin (s : State) (path : Nat) : State × Code :=
  if s.get F.SEC_STATE_HSTATE ≠ 2 then (s, .state)
  else if s.txBusy then (s, .busy)
  else
    let t := ((s.put F.SYS_TXNSTAT_STATE txOpen).put F.SYS_TXNSTAT_OWNER path).put F.SYS_TXNSTAT_COUNT 0
    ((t.put F.SYS_TXNSTAT_POISON 0).setTxn {}, .ok)

/-- Stage a write (R72, R74). -/
def State.txStage (s : State) (path a : Nat) (v : Word) : State × Code :=
  if 8192 ≤ s.get F.SYS_TXNSTAT_COUNT then (s.put F.SYS_TXNSTAT_POISON 1, .full)
  else
    let t := s.setTxn { s.bus.txn with staged := s.bus.txn.staged ++ [(a, v)] }
    ((t.put F.SYS_TXNSTAT_COUNT (t.get F.SYS_TXNSTAT_COUNT + 1)).forward ⟨a, v, path, .staged⟩, .ok)

/-- A cell that can be affected by a transaction, by its state at COMMIT (R76). -/
def affectable (st : Nat) : Bool :=
  st != csEmpty && st != csAbsent && st != csRefused && st != csLost

/-- Staged settings of a cell: parameter and value, the last write of each. -/
def State.stagedPrm (s : State) (c : Nat) : List (Nat × Word) :=
  s.bus.txn.staged.foldl (fun acc x =>
    match R.CELL_PRM.indexOf x.1 with
    | some (d, n) => if d = c then (acc.filter fun y => y.1 != n) ++ [(n, x.2)] else acc
    | none => acc) []

/-- Name k_act (R76, R77). -/
def State.nameAct (s : State) (k path : Nat) : State :=
  let t := (s.put F.SYS_TXNSTAT_STATE txActivate).put F.SYS_TXNACT_KACT (k % 2 ^ 32)
  (t.setTxn { t.bus.txn with kact := some k }).forward ⟨R.SYS_TXNACT.base, BitVec.ofNat 32 k, path, .activation⟩

/-- COMMIT (R71, R74, R76, R77). -/
def State.txCommit (s : State) (path : Nat) (upd : Bool) : State × Code :=
  if s.get F.SEC_STATE_HSTATE ≠ 2 ∨ !s.txBusy then (s, .state)
  else if s.get F.SYS_TXNSTAT_OWNER ≠ path ∨ s.txState ≠ txOpen then (s, .busy)
  else if s.flag F.SYS_TXNSTAT_POISON then
    ((s.forward ⟨R.SYS_TXN.base, 3, path, .rollback⟩).txAbort 4, .full)
  else match s.commitFault with
    | some c => (s, c)
    | none =>
      let cs := s.cellList.filter fun c => affectable (s.cState c) && !(s.stagedPrm c).isEmpty
      let t := s.setTxn { s.bus.txn with affected := cs, acked := [], nak := none, updateRef := upd, restage := [] }
      let t := (t.put F.SYS_TXNCELL_ACKS 0).forward ⟨R.SYS_TXN.base, if upd then 0x102 else 2, path, .commit⟩
      if cs.isEmpty then (t.nameAct (s.period + 2) path, .ok)
      else (cs.foldl (fun (u : State) c => u.stage c .txn (s.stagedPrm c)) (t.put F.SYS_TXNSTAT_STATE txPrepare), .ok)

/-- ROLLBACK (R71, R74, R81). -/
def State.txRollback (s : State) (path : Nat) : State × Code :=
  if s.get F.SEC_STATE_HSTATE ≠ 2 ∨ !s.txBusy then (s, .state)
  else if s.get F.SYS_TXNSTAT_OWNER ≠ path then (s, .busy)
  else if s.txState = txRef ∨ s.bus.txn.passed then (s, .abortLate)
  else
    let t := s.forward ⟨R.SYS_TXN.base, 3, path, .rollback⟩
    (t.txAbort (if s.flag F.SYS_TXNSTAT_POISON then 4 else 1), .ok)

/-- An open transaction ends with no further access of its owner (R75). One that a standby was forwarded follows the active's (R329), here
and at the two checks below. -/
def State.txIdleEnd (s : State) : State :=
  if s.txState = txOpen ∧ ¬s.bus.txn.peer then
    let t := s.forward ⟨R.SYS_TXN.base, 3, s.get F.SYS_TXNSTAT_OWNER, .rollback⟩
    (t.txAbort (if s.flag F.SYS_TXNSTAT_POISON then 4 else 3)).pulse Ev.TXN_TIMEOUT (s.get F.SYS_TXNSTAT_OWNER)
  else s

/-- A cell did not acknowledge, or reported a staging error (R79). -/
def State.txNoAck (s : State) (c : Nat) : State :=
  let t := s.forward ⟨R.SYS_TXN.base, 3, s.get F.SYS_TXNSTAT_OWNER, .rollback⟩
  ((t.put F.SYS_TXNCELL_FAILCELL c).txAbort 2).pulse Ev.TXN_NOACK c

/-- The lowest affected cell that has not acknowledged. -/
def State.txFirstMissing (s : State) : Option Nat :=
  (s.bus.txn.affected.filter fun c => !s.bus.txn.acked.contains c).foldl (fun m c =>
    match m with
    | some x => some (min x c)
    | none => some c) none

/-- ACKTO expires (R79). -/
def State.txAckTimeout (s : State) : State :=
  if s.txState = txPrepare ∧ ¬s.bus.txn.peer then
    match s.txFirstMissing with
    | some c => s.txNoAck c
    | none => s
  else s

/-- The check at T_OPEN of a transaction in its prepare phase (R77, R79). -/
def State.txOpenCheck (s : State) : State :=
  if s.txState ≠ txPrepare ∨ s.bus.txn.peer then s
  else match s.bus.txn.nak with
    | some c => s.txNoAck c
    | none =>
      if s.txFirstMissing.isNone then s.nameAct (s.period + s.get F.SYS_TXNCFG_ACTLEAD) (s.get F.SYS_TXNSTAT_OWNER) else s

/-- The first activation words leave (R80). -/
def State.txLaunched (s : State) : State :=
  if s.txState = txActivate ∧ s.bus.txn.affected ≠ [] then s.setTxn { s.bus.txn with passed := true } else s

/-- One staged write at k_act: what applies at a boundary, with a gather frame or at the reload of a channel in `rl` takes effect; the
rest waits in the apply stage for its reload or packet (R76). -/
def State.applyStaged (rl : List Nat) (s : State) (x : Nat × Word) : State :=
  match s.rowAt x.1 with
  | some (r, i, j) =>
    let reload := rl.contains (pwmChan r i j)
    let now := r.maskOf fun f => f.takes && (f.apply == .period || f.apply == .frame || (f.apply == .pwm && reload))
    let later := r.maskOf fun f => f.takes && (f.apply == .packet || (f.apply == .pwm && !reload))
    let t := if now = 0 then s else s.applyBits x.1 x.2 now
    if later = 0 then t else t.pushStage ⟨0, x.1, x.2, later, false, none, false⟩
  | none => s

/-- A cell that went to BLOCKED between its acknowledgement and k_act is staged its whole set again, from the values now in force (R80,
R183). -/
def State.restageCell (s : State) (c : Nat) : State :=
  if s.cState c = csBlocked then
    (s.setCell c { s.cell c with sets := (s.cell c).sets.filter fun y => y.kind != .params }).enterBlocked c
  else s

/-- k_act (R76, R77, R80, R86). -/
def State.txActivate (s : State) (rl : List Nat) : State :=
  let x := s.bus.txn
  let t := x.affected.foldl (fun (u : State) c =>
    u.setCell c { u.cell c with sets := (u.cell c).sets.filter fun y => y.kind != .txn }) s
  let t := (x.staged.foldl (State.applyStaged rl) t).discardPass
  let t := x.restage.foldl State.restageCell (t.setTxn { passed := true })
  if x.updateRef then
    let u := t.put F.SYS_TXNSTAT_STATE txRef
    { u with bus := { u.bus with mon := { u.bus.mon with refDue := true } } }
  else t.put F.SYS_TXNSTAT_STATE txDone

/-- The transaction at a boundary at which the channels in `rl` reload: the point of no return of R76, and k_act. -/
def State.txBoundary (s : State) (rl : List Nat) : State :=
  match s.bus.txn.kact with
  | some k =>
    if s.period = k then s.txActivate rl
    else if s.period + 1 = k ∧ s.bus.txn.affected = [] then s.setTxn { s.bus.txn with passed := true }
    else s
  | none => s

/-! ### The configuration monitor (R84 to R86) -/

/-- A pass starts. -/
def State.passStart (s : State) : State :=
  if s.bus.mon.armed then
    let t : State := { s with bus := { s.bus with mon := { s.bus.mon with running := true, discard := false } } }
    t.putB F.SYS_CFGSTAT_REFPASS t.bus.mon.refDue
  else s

/-- A pass ends: a reference pass writes SYS_CFGREF, any other is compared with it. -/
def State.passEnd (s : State) : State :=
  let m := s.bus.mon
  let t : State := { s with bus := { s.bus with mon := { m with running := false, discard := false } } }
  if !m.running then s
  else if m.discard then t.put F.SYS_CFGSTAT_REFPASS 0
  else
    let crc := s.configCrc
    let t := (t.put F.SYS_CFGCRC_CRC crc).wrapInc F.SYS_CFGSTAT_PASSES
    if s.flag F.SYS_CFGSTAT_REFPASS then
      let u := (t.put F.SYS_CFGREF_REF crc).put F.SYS_CFGSTAT_REFPASS 0
      let u : State := { u with bus := { u.bus with mon := { u.bus.mon with refDue := false } } }
      if u.txState = txRef then u.put F.SYS_TXNSTAT_STATE txDone else u
    else if s.get F.SYS_CFGREF_REF = crc then t
    else (t.put F.SYS_CFGSTAT_MISMATCH 1).pulse Ev.CFG_CRC

end Sys2Proof.Machine
end

