-- ==== Sys2Proof/Machine/ClkThmOps.lean ====
section
/-! DEFINITION. Clock monitors, their recovery and the clock outputs (R417 to R420), and the temperatures: levels, derating,
shedding and bands (R422 to R429). -/

namespace Sys2Proof.Machine

/-! ### Clocks -/

/-- The PLL whose recovery a clock of CLK_ALARM belongs to: NPLL 3, APLL 4, DPLL 5 (R418, R419). -/
def recoverPll (c : Nat) : Option Nat :=
  if c = 3 ∨ c = 6 then some 3 else if c = 4 ∨ c = 7 then some 4 else if c = 5 then some 5 else none

/-- Bit of CLK_ALARM of a clock output's source. -/
def State.outClock (s : State) (src : Nat) : Nat := if src = 0 then s.get F.CLK_CFG_REFSEL else src + 1

/-- CLKOUT o runs with the setting in force unless its source is in alarm (R420) or comes from a PLL that is not yet locked (R417). -/
def State.outRun (s : State) (o : Nat) : State :=
  let w := Sparse.get (fun _ => 0) s.clk.outNow o
  let c := s.outClock (fieldGet w 17 16)
  let bad := (s.get F.CLK_ALARM_ALARM).testBit c || (decide (2 ≤ c) && !s.pllOn (c - 2))
  s.putBit F.CLK_OUTSTAT_RUNNING o (w.getLsbD 31 && !bad)

/-- The setting of CLKOUT o takes effect (R420). -/
def State.outApply (s : State) (o : Nat) : State :=
  let w := s.rd (F.CLK_OUTCFG_EN.addr o)
  { s with clk := { s.clk with outNow := Sparse.set (fun _ => 0) s.clk.outNow o w } }.outRun o

/-- A PLL is declared locked 150 µs after its enable (R417). -/
def State.pllLocked (s : State) : PllId → State
  | .cpll => s.putBit F.CLK_STAT_LOCKED 0 true
  | .npll => s.putBit F.CLK_STAT_LOCKED 1 true
  | .apll => s.putBit F.CLK_STAT_LOCKED 2 true
  | .dpll => s.putBit F.CLK_STAT_LOCKED 3 true
  | .link q =>
    if s.flag F.DML_QSTAT_POWERED q.val then
      (s.putBit F.CLK_STAT_LLOCKED q.val true).put F.DML_QSTAT_LOCKED 1 q.val
    else s

/-- Recovery of NPLL, APLL or DPLL begins, or a second alarm latches (R419, R433). -/
def State.recoverStart (s : State) (c p : Nat) : State :=
  let again := s.clk.recovering.testBit p || match Sparse.get (fun _ => none) s.clk.lastAlarm p with
    | some t => s.ct ≤ t + 6000000000
    | none => false
  let s1 := { s with clk := { s.clk with
    lastAlarm := Sparse.set (fun _ => none) s.clk.lastAlarm p (some s.ct)
    recovering := setBit s.clk.recovering p (!again) } }
  let s2 := s1.putBit F.CLK_STAT_LOCKED (p - 2) false
  if again then (s2.putBit F.CLK_ALARM_LATCHED c true).raise Ev.CLK_LATCH c else s2

/-- Open capture records close as truncated with cause OVERRUN (R418). -/
def State.dramLost (s : State) : State :=
  let s1 := (List.range 8).foldl (fun t k =>
    if t.rState k = 3 ∨ t.rState k = 4 then t.finishRec k 5 true else t) s
  (List.range 16).foldl (fun t n => t.spillClose n 5) s1

/-- A clock monitor alarms (R418, R419). `dev` is the deviation in 0.01 %. -/
def State.clockAlarm (s : State) (c dev : Nat) : State :=
  let s1 := (s.putBit F.CLK_ALARM_ALARM c true).raise Ev.CLK_ALARM c dev
  let s2 := (s1.outRun 0).outRun 1
  if c < 3 then { s2 with evt := { s2.evt with resignReq := some (s2.evt.resignReq.getD (0x83, Ev.CLK_ALARM)) } }
  else if c ≥ 8 then
    let q := c - 8
    ((List.range 26).filter fun l => quadOf l == q).foldl (fun t l => t.enterLost l 3) (s2.put F.DML_QSTAT_CLKALARM 1 q)
  else match recoverPll c with
    | some p => (if p = 5 then s2.dramLost else s2).recoverStart c p
    | none => s2

/-- The clock has stayed within TOL for 1 ms after its PLL came back: the alarm clears and a recovery CAL runs (R395, R419). -/
def State.recoverDone (s : State) (c : Nat) : State :=
  match recoverPll c with
  | some p =>
    if s.clk.recovering.testBit p then
      let s0 := { s with clk := { s.clk with recovering := setBit s.clk.recovering p false } }
      let bits := (List.range 16).filter fun b => recoverPll b == some p
      let s1 := bits.foldl (fun (t : State) b => t.putBit F.CLK_ALARM_ALARM b false) s0
      let s2 := s1.putBit F.CLK_STAT_LOCKED (p - 2) true
      let s3 := if s2.get F.CLK_ALARM_ALARM = 0 then s2.clearAct Ev.CLK_ALARM else s2
      ((s3.outRun 0).outRun 1).calStart 4
    else s
  | none => s

/-- W1C of CLK_ALARM: a clock still in recovery, or latched, is outside TOL and keeps its bit (R434). -/
def State.alarmClear (s : State) (mask : Nat) : State :=
  let keep := fun b => match recoverPll b with
    | some p => s.clk.recovering.testBit p || (s.get F.CLK_ALARM_LATCHED).testBit b
    | none => false
  let s1 := ((List.range 16).filter fun b => mask.testBit b && !keep b).foldl (fun (t : State) b =>
    let u := t.putBit F.CLK_ALARM_ALARM b false
    if b ≥ 8 then u.put F.DML_QSTAT_CLKALARM 0 (b - 8) else u) s
  let s2 := if s1.get F.CLK_ALARM_ALARM = 0 then s1.clearAct Ev.CLK_ALARM else s1
  (s2.outRun 0).outRun 1

/-! ### Levels (R423, R426) -/

/-- A level after a reading: asserted at its threshold, deasserted at the threshold less `h` K, kept between; the first
reading between them asserts it. -/
def levelOf (first was : Bool) (t thr h : Int) : Bool :=
  if thr ≤ t then true else if t ≤ thr - 10 * h then false else was || first

/-- Thresholds and hysteresis of a source, warning first, in the coding of R422 and in K. -/
structure Limits where
  thr : List Int
  hys : List Int
  deriving DecidableEq, Repr

/-- The three levels of a source after a reading. -/
def levels3 (first : Bool) (was : Nat) (t : Int) (l : Limits) : Nat :=
  (List.range 3).foldl (fun w i =>
    if levelOf first (was.testBit i) t (l.thr.getD i 0) (l.hys.getD i 0) then w + 2 ^ i else w) 0

def State.dieLimits (s : State) : Limits :=
  ⟨[s.get F.THM_DIECFG0_WARN, s.get F.THM_DIECFG0_THROT, s.get F.THM_DIECFG1_SHUT],
   [s.get F.THM_DIECFG1_HYSW, s.get F.THM_DIECFG1_HYST, s.get F.THM_DIECFG1_HYSS]⟩

def State.extLimits (s : State) (x : Nat) : Limits :=
  ⟨[s.get F.THM_EXTTHR_WARN x, s.get F.THM_EXTTHR_THROT x, s.get F.THM_EXTSH_SHUT x],
   [s.get F.THM_EXTSH_HYSW x, s.get F.THM_EXTSH_HYST x, s.get F.THM_EXTSH_HYSS x]⟩

/-- A temperature in °C in the coding of R422. -/
def tempCode (c : Int) : Int := (c + 50) * 10

def State.cellLimits (s : State) (c : Nat) : Limits :=
  let m : Int := s.thsMax c
  ⟨[tempCode (m - s.get F.THM_CELLCFG_WOFS), tempCode (m - s.get F.THM_CELLCFG_TOFS), tempCode m],
   List.replicate 3 (s.get F.THM_CELLCFG_HYS : Int)⟩

/-- Levels of a source in the registers: index 0 is the die, 8 to 11 the diodes, 0x100 + c a cell. -/
def State.levelsAt (s : State) (idx : Nat) : Nat :=
  if idx ≥ 0x100 then s.get F.THM_CELLLVL_LVL (idx - 0x100)
  else bitsOf (s.get F.THM_SRCSTAT_LVL) (3 * (if idx = 0 then 0 else idx - 7) + 2) (3 * (if idx = 0 then 0 else idx - 7))

def State.setLevels (s : State) (idx v : Nat) : State :=
  if idx ≥ 0x100 then s.put F.THM_CELLLVL_LVL v (idx - 0x100)
  else
    let k := if idx = 0 then 0 else idx - 7
    (List.range 3).foldl (fun t i => t.putBit F.THM_SRCSTAT_LVL (3 * k + i) (v.testBit i)) s

/-- The event of a level of a source (R426). -/
def levelEvent (idx i : Nat) : Nat :=
  if i = 0 then Ev.THM_WARN else if i = 1 then Ev.THM_THROTTLE
  else if idx < 8 then Ev.THM_DIE_SHUT else if idx < 0x100 then Ev.THM_EXT_SHUT else Ev.THM_CELL_SHUT

/-- Evaluate a source's levels on a reading; each level that asserts raises its event, with the source index `src` of R422. -/
def State.evalLevels (s : State) (idx : Nat) (t : Int) (l : Limits) (src : Nat := idx) : State :=
  let was := s.levelsAt idx
  let now := levels3 (!s.thm.seen.contains idx) was t l
  let s0 := if s.thm.seen.contains idx then s else { s with thm := { s.thm with seen := s.thm.seen ++ [idx] } }
  let s1 := if now = was then s0 else s0.setLevels idx now
  (List.range 3).foldl (fun u i =>
    if now.testBit i && !was.testBit i then u.raise (levelEvent idx i) src (ofSigned 32 t) else u) s1

/-- Sources that have levels. -/
def State.thmSources (s : State) : List Nat := [0, 8, 9, 10, 11] ++ s.cellList.map (0x100 + ·)

/-- A thermal event is over once no source has its level. -/
def State.thmQuiet (s : State) : State :=
  let on := fun (p : Nat → Bool) i => s.thmSources.any fun x => p x && (s.levelsAt x).testBit i
  [(Ev.THM_WARN, on (fun _ => true) 0), (Ev.THM_THROTTLE, on (fun _ => true) 1), (Ev.THM_DIE_SHUT, on (· < 8) 2),
    (Ev.THM_EXT_SHUT, on (fun x => 8 ≤ x && x < 0x100) 2), (Ev.THM_CELL_SHUT, on (0x100 ≤ ·) 2)].foldl
    (fun t x => if x.2 || !t.evActive x.1 then t else t.clearAct x.1) s

/-! ### The die (R422 to R424, R428, R429) -/

/-- The readings within −55 °C to +150 °C; a code has no value below −50 °C. -/
def dieInRange (r : Option (BitVec 12)) : Option Nat := r.bind fun t => if t.toNat ≤ 2000 then some t.toNat else none

/-- Insert into an ascending list. -/
def insertAsc (x : Nat) : List Nat → List Nat
  | [] => [x]
  | y :: l => if x < y then x :: y :: l else y :: insertAsc x l

/-- Twice the median of a list; the mean of the middle two for an even count. -/
def median2 (l : List Nat) : Nat :=
  let m := l.foldl (fun a x => insertAsc x a) []
  m.getD ((m.length - 1) / 2) 0 + m.getD (m.length / 2) 0

/-- Within 10 K of the median. -/
def nearMedian (m2 t : Nat) : Bool := decide (((2 * t : Nat) : Int) - m2 ≤ 200) && decide ((m2 : Int) - (2 * t : Nat) ≤ 200)

/-- The band after a reading of the die temperature (R429). -/
def bandOf (b t : Nat) : Nat :=
  if t > 1550 then 2
  else if b = 2 ∧ t > 1520 then 2
  else if t > 1350 then 1
  else if b ≥ 1 ∧ t > 1320 then 1
  else 0

/-- A source's validity: becoming invalid raises EV_THM_SENSOR (R424). -/
def State.sensorState (s : State) (idx : Nat) (ok : Bool) : State :=
  let was := s.thm.bad.contains idx
  if ok then
    if was then
      let t := { s with thm := { s.thm with bad := s.thm.bad.filter (· != idx) } }
      if t.thm.bad.isEmpty then t.clearAct Ev.THM_SENSOR else t
    else s
  else if was then s
  else ({ s with thm := { s.thm with bad := s.thm.bad ++ [idx] } }).raise Ev.THM_SENSOR idx

/-- Shedding follows the die throttle level (R428). -/
def State.shedFollow (s : State) : State :=
  let on := (s.levelsAt 0).testBit 1
  if s.flag F.THM_STAT_SHED = on then s
  else
    let s1 := (s.putB F.THM_STAT_SHED on).acqShed on
    if on then (List.range 26).foldl (fun t l => t.haloAbort l 3) s1 else s1

/-- The band follows the die temperature (R429); its CAL is not started while the head sheds (R433). -/
def State.bandFollow (s : State) : State :=
  let was := s.get F.THM_STAT_BAND
  let now := bandOf was (s.get F.THM_STAT_DIE)
  if now = was then s
  else
    let s1 := (s.put F.THM_STAT_BAND now).pulse Ev.THM_BAND 0 now
    { s1 with thm := { s1.thm with eqNext := some 0 } }

/-- What the words of a list of readings bring: those that fail parity are discarded (R35), and so bring what `last` gives. -/
def readingsOf (ws : List TempWord) (last : Nat → Option (BitVec 12)) : List (Option (BitVec 12)) :=
  ws.zipIdx.map fun x => if x.1.parity then last x.2 else x.1.code

/-- EV_XING_PAR for each word that fails parity (R35). -/
def State.parityWords (s : State) (ws : List TempWord) : State := ws.foldl (fun t w => if w.parity then t.xingBad else t) s

/-- The last reading of a die sensor, if it was valid. -/
def State.lastDie (s : State) (i : Nat) : Option (BitVec 12) :=
  if s.flag F.THM_DIERD_VALID i then some (BitVec.ofNat 12 (s.get F.THM_DIERD_T i)) else none

/-- The eight die sensors are read (R422 to R424, R426, R428, R429). The events of the die carry the index of its hottest valid sensor, the
lowest of equals, 0 where none is valid (DEDUCED from R422 and R426, log 53). -/
def State.dieRead (s : State) (readings : List (Option (BitVec 12))) : State :=
  let val := fun i => dieInRange (readings.getD i none)
  let m2 := median2 ((List.range 8).filterMap val)
  let ok := fun i => match val i with
    | some t => nearMedian m2 t
    | none => false
  let s1 := (List.range 8).foldl (fun t i =>
    let u := t.putB F.THM_DIERD_VALID (ok i) i
    let v := match readings.getD i none with
      | some x => u.put F.THM_DIERD_T x.toNat i
      | none => u
    v.sensorState i (ok i)) s
  let n := ((List.range 8).filter ok).length
  let die := ((List.range 8).filter ok).filterMap val
  let s2 := s1.put F.THM_STAT_NVALID n
  let s3 := if die.isEmpty then s2 else s2.put F.THM_STAT_DIE (die.foldl max 0)
  let shut : Int := s3.get F.THM_DIECFG1_SHUT
  let t : Int := if n < 3 then max shut (s3.get F.THM_STAT_DIE : Nat) else (s3.get F.THM_STAT_DIE : Nat)
  let band := s3.get F.THM_STAT_BAND
  let hot := ((List.range 8).find? fun i => ok i && val i == some (die.foldl max 0)).getD 0
  let s4 := ((s3.evalLevels 0 t s3.dieLimits hot).shedFollow.bandFollow).thmQuiet
  if s4.get F.THM_STAT_BAND ≠ band ∧ s4.flag F.ACQ_CFG_CALBAND then s4.calStart 3 else s4

/-! ### External diodes and cells (R424, R425) -/

def State.extQ (s : State) (x : Nat) : Quant := Sparse.get (fun _ => {}) s.thm.ext x

/-- One diode is read: its reading, or SUB after three invalid ones (R424). -/
def State.extOne (s : State) (x : Nat) (r : Option (BitVec 12)) : State :=
  if s.flag F.THM_EXTCFG_EN x then
    let v : Option Int := r.bind fun t => if t.toNat ≤ 2500 then some (t.toNat : Int) else none
    let q := (s.extQ x).feed v (s.get F.THM_EXTCFG_SUB x) 3
    let s1 := { s with thm := { s.thm with ext := Sparse.set (fun _ => {}) s.thm.ext x q } }
    let s2 := ((s1.putB F.THM_EXTRD_VALID q.ok x).put F.THM_EXTRD_T (q.val.toNat) x).sensorState (8 + x) q.ok
    s2.evalLevels (8 + x) q.val (s2.extLimits x)
  else s

/-- The four diodes are read. -/
def State.extRead (s : State) (readings : List (Option (BitVec 12))) : State :=
  ((List.range 4).foldl (fun t x => t.extOne x (readings.getD x none)) s).thmQuiet

/-- The words of the die sensors reach the control island, unless the clock of the analogue sequencer is out (R35, R417, R418). A sensor whose
word was discarded keeps its last reading (DEDUCED from R42, log 85). -/
def State.dieIn (s : State) (ws : List TempWord) : State :=
  if s.netStopped then s else (s.parityWords ws).dieRead (readingsOf ws s.lastDie)

/-- The words of the diodes reach the control island (R35, R417, R418). A diode whose word was discarded goes without a reading (R42, R424). -/
def State.extIn (s : State) (ws : List TempWord) : State :=
  if s.netStopped then s else (s.parityWords ws).extRead (readingsOf ws fun _ => none)

/-- THS of a cell's last valid record. -/
def State.thsCode (s : State) (c : Nat) : Int := (bitsOf (s.rd (F.CELL_MREC_WORD.addr c 3)).toNat 11 0 : Nat)

/-- Heatsink levels of the cells whose record of this period is valid (R425). -/
def State.thmCells (s : State) : State :=
  (s.cellList.foldl (fun t c =>
    if (t.cell c).recOk then t.evalLevels (0x100 + c) (t.thsCode c) (t.cellLimits c) else t) s).thmQuiet

/-- The derating factor of a source at temperature `t` (R427). -/
def derateAt (t throt shut : Int) : Rat := clampQ 0 1 (1 - qdiv ((t - throt : Int) : Rat) ((shut - throt : Int) : Rat))

/-- The thermal derating level and its source (R427). -/
def State.thmLevel (s : State) : State :=
  let srcs := ((List.range 4).map (8 + ·)) ++ s.cellList.map (0x100 + ·)
  let r := (srcs.filter fun x => (s.levelsAt x).testBit 1).foldl (fun (a : Rat × Option Nat) x =>
    let l := if x < 0x100 then s.extLimits (x - 8) else s.cellLimits (x - 0x100)
    let t := if x < 0x100 then (s.extQ (x - 8)).val else s.thsCode (x - 0x100)
    let v := derateAt t (l.thr.getD 1 0) (l.thr.getD 2 0)
    if v < a.1 then (v, some x) else a) (q30 (2 ^ 31 - 1), none)
  let s1 := s.put F.THM_LEVEL_LEVEL ((pu32 r.1).1).toNat
  match r.2 with
  | some x => ((s1.put F.THM_LIMSRC_VALID 1).put F.THM_LIMSRC_SRC (if x < 0x100 then x else x - 0x100)).putB
      F.THM_LIMSRC_CELL (x ≥ 0x100)
  | none => ((s1.put F.THM_LIMSRC_VALID 0).put F.THM_LIMSRC_SRC 0).put F.THM_LIMSRC_CELL 0

end Sys2Proof.Machine
end

