-- ==== Sys2Proof/Machine/BusOps.lean ====
section
/-! DEFINITION. One register access: the checks in their order, what an immediate field does, and what a read returns (R58 to R70,
R72 to R75, R88, R454). Every write from a path goes through `busWrite`, every read through `busRead`. -/

namespace Sys2Proof.Machine

/-! ### Occurrence counts (R46, R57) -/

/-- Clear the count of a source; the cleared count is written through to MRAM (R47). Occurrences in the control tick of the clear count
after it (R51). -/
def Evt.clearCount (e : Evt) (ev : Nat) : Evt :=
  let e1 := e.put F.EVT_CNT_CNT (e.nowOcc.count ev) ev
  { e1 with changed := if e.changed.contains ev then e.changed else e.changed ++ [ev] }

/-- EVT_CNTCLR with ALL = 1. -/
def State.clearAllCounts (s : State) : State := { s with evt := (List.range 1024).foldl Evt.clearCount s.evt }

/-- EVT_CNTCLR with ALL = 0. -/
def State.clearOneCount (s : State) (ev : Nat) : State := { s with evt := s.evt.clearCount ev }

/-! ### What immediate fields do (R65) -/

/-- A field of a word that is being written. -/
def Fld.of (f : Fld) (v : Word) : Nat := fieldGet v f.hi f.lo

/-- The plain effect of a write on immediate fields: RW fields take the value, W1C fields are cleared by ones. -/
def State.plainWrite (s : State) (a : Nat) (v : Word) (r : Row) : State :=
  let rw := r.maskOf fun f => f.acc == .rw && f.apply == .immediate
  let w1c := r.maskOf fun f => f.acc == .w1c
  let old := s.inForce a
  if rw ||| w1c = 0 then s else s.load a (((old &&& ~~~ rw) ||| (v &&& rw)) &&& ~~~ (v &&& w1c))

/-- W1C of EVT_PENDb (R45, R51): a source that notifies in the control tick of the clear stays pending. -/
def State.pendWrite (s : State) (b : Nat) (v : Word) : State :=
  let keep := (s.evt.nowOcc.filter fun e => e / 32 == b && decide (2 ≤ s.evt.get F.EVT_CFG_REACT e)).foldl
    (fun w e => w ||| (1#32 <<< (e % 32))) (0 : Word)
  let a := F.EVT_PEND_PEND.addr b
  { s with evt := s.evt.wr a (s.evt.rd a &&& ~~~ (v &&& ~~~ keep)) }

/-- W1C of LVS_TRIPSTAT (R266, R280). -/
def State.tripstatWrite (s : State) (v : Word) : State :=
  let t := s.eachBit 8 (F.LVS_TRIPSTAT_LATCHED.of v) State.clearTrip
  let m := F.LVS_TRIPSTAT_TRIP_CLR_REJ.of v
  (List.range 8).foldl (fun (u : State) b => if m.testBit b then u.putBit F.LVS_TRIPSTAT_TRIP_CLR_REJ b false else u) t

/-- W1C of LVS_PWM_STATn (R66, R280). -/
def State.pwmstatWrite (s : State) (n : Nat) (v : Word) : State :=
  let t := if F.LVS_PWM_STAT_SHOOT_REJ.of v = 1 then s.clearShoot n else s
  if F.LVS_PWM_STAT_LATE.of v = 1 then t.put F.LVS_PWM_STAT_LATE 0 n else t

/-- W1C of CMP_STATw: a latch of an asserted output, or of a window without latching, stays as the output is (R310). -/
def State.cmpstatWrite (s : State) (w : Nat) (u l : Bool) : State :=
  if s.get F.CMP_CFG_LATCH w = 0 then s
  else
    let t := if u && !s.flag F.CMP_STAT_OUTU w then s.put F.CMP_STAT_LATU 0 w else s
    if l && !s.flag F.CMP_STAT_OUTL w then t.put F.CMP_STAT_LATL 0 w else t

/-- CMP_AONSTAT.CAUSE is cleared by ones (R313). -/
def State.aonstatWrite (s : State) (v : Word) : State :=
  { s with aon := { s.aon with cause := s.aon.cause &&& (15 - F.CMP_AONSTAT_CAUSE.of v) } }

/-- CE_CLR (R193, R212). -/
def State.ceClr (s : State) (v : Word) : State :=
  let t := if F.CE_CLR_SATLAST.of v = 1 then s.wr (F.CE_SATLAST_INST.addr 0) 0 else s
  if F.CE_CLR_MAXFIN.of v = 1 then (List.range 3).foldl (fun (u : State) n => u.put F.CE_SLSTAT_MAXFIN 0 n) t else t

/-- DML_CTRL of a lane (R151, R155): RESTART in ALIGN or SERVICE and a disable under cells in service return STATE. -/
def State.dmlCtrl (s : State) (l : Nat) (en restart : Bool) : State × Code :=
  let st := s.lnState l
  if (restart && (st == lnAlign || st == lnService)) || (!en && s.flag F.DML_CTRL_EN l && s.laneBusy l) then (s, .state)
  else
    let t := if en == s.flag F.DML_CTRL_EN l then s else s.laneEnable l en
    (if restart then t.laneRestart l else t, .ok)

/-- DML_HALOCTRL of a lane (R162, R428). -/
def State.haloCtrl (s : State) (l : Nat) (go stop : Bool) (dwell : Nat) : State × Code :=
  if go && s.flag F.THM_STAT_SHED then (s, .state)
  else
    let t := s.put F.DML_HALOCTRL_DWELL dwell l
    let t := if stop then t.haloAbort l 1 else t
    (if go then t.haloGo l else t, .ok)

/-- RED_CTRL (R328, R338). -/
def State.redCtrl (s : State) (resync swap : Bool) : State × Code :=
  if (resync && !s.inStep) || (swap && !s.swapAllowed) then (s, .state)
  else
    let t := if resync then s.toSync else s
    (if swap then { t with red := { t.red with swapAt := some t.swapPeriod } } else t, .ok)

/-- SAF_CTRL (R345, R349, R350). -/
def State.safCtrl (s : State) (path : Nat) (v : Word) : State :=
  let t := if F.SAF_CTRL_WOREQ.of v = 1 then s.setWhiteout 9 path else s
  if F.SAF_CTRL_RESET.of v = 1 then t.safReset.forward ⟨R.SAF_CTRL.base, 1, path, .write⟩ else t

/-- NET_PTPCTL (R374, R376). -/
def State.ptpCtl (s : State) (v : Word) : State × Code :=
  let sel := F.NET_PTPCTL_SELECT.of v
  let (t, c) := if sel = 0 ∨ sel = 3 then (s, .ok) else s.ptpSelect sel
  if c = .ok then (if F.NET_PTPCTL_ARMSTEP.of v = 1 then t.armStepGo else t, .ok) else (s, c)

/-- NET_TOUTCTLn (R380, R381). -/
def State.toutCtl (s : State) (n : Nat) (v : Word) : State × Code :=
  let (t, c) := if F.NET_TOUTCTL_STOP.of v = 1 then s.toutStop n else (s, .ok)
  if c = .ok then (if F.NET_TOUTCTL_ARM.of v = 1 then t.toutArm n else t, .ok) else (s, c)

/-- ADC_TESTCTL (R304, R305): a write that does not stop connects the DAC, and GO checks too. -/
def State.testCtl (s : State) (v : Word) : State × Code :=
  let hk := F.ADC_TESTCTL_HK.of v = 1
  let ch := F.ADC_TESTCTL_CHAN.of v
  let t := if F.ADC_TESTCTL_STOP.of v = 1 then s.testStop else s
  let go := F.ADC_TESTCTL_GO.of v = 1
  if F.ADC_TESTCTL_STOP.of v = 1 ∧ ¬go then (t, .ok)
  else if !hk && 24 ≤ ch then (s, .range)
  else if t.testRefused hk ch then (s, .state)
  else (if go then t.testGo hk ch (F.ADC_TESTCTL_CODE.of v) else t.testConn hk ch (F.ADC_TESTCTL_CODE.of v), .ok)

/-- ACQ_RCTLk (R399 to R401). -/
def State.recCtl (s : State) (k : Nat) (v : Word) : State × Code :=
  let (t, c) := if F.ACQ_RCTL_STOP.of v = 1 then s.recStop k else (s, .ok)
  let (t, c) := if c = .ok ∧ F.ACQ_RCTL_ARM.of v = 1 then t.recArm k else (t, c)
  if c = .ok then (if F.ACQ_RCTL_FORCE.of v = 1 then t.recForce k else t, .ok) else (s, c)

/-- ACQ_MAPCTL (R410). -/
def State.mapCtl (s : State) (v : Word) : State × Code :=
  let (t, c) := if F.ACQ_MAPCTL_SNAP.of v = 1 then s.mapSnap else (s, .ok)
  if c = .ok then (if F.ACQ_MAPCTL_CLR.of v = 1 then t.mapClr else t, .ok) else (s, c)

/-- SYS_TXN (R71). -/
def State.txCommand (s : State) (path : Nat) (v : Word) : State × Code :=
  let cmd := F.SYS_TXN_CMD.of v
  if cmd = 1 then s.txBegin path
  else if cmd = 2 then s.txCommit path (F.SYS_TXN_UPDATEREF.of v == 1)
  else if cmd = 3 then s.txRollback path
  else (s, .ok)

/-- The SEC block's commands (R120 to R135). DESIGN CHOICE (log entry 70): SEC_BOOTSEL.SLOT is kept in the always-on domain beside
ONESHOT, of which alone R135 says so. -/
def State.secWrite (s : State) (path a : Nat) (v : Word) (r : Row) : State × Code :=
  let b := r.base
  if b = R.SEC_RESET.base then (if F.SEC_RESET_GO.of v = 1 then s.resetGo else s, .ok)
  else if b = R.SEC_RELEASE.base then
    (if F.SEC_RELEASE_GO.of v = 1 ∧ s.get F.SEC_STATE_HSTATE = 3 then s.hardReset 7 else s, .ok)
  else if b = R.SEC_LCREQ.base then s.lcRequest path (F.SEC_LCREQ_TARGET.of v)
  else if b = R.SEC_KEYOP.base then
    let (t, c) := s.keyopGo path (F.SEC_KEYOP_OP.of v) (F.SEC_KEYOP_SLOT.of v)
    (if c = .ok then t.wr a v else t, c)
  else if b = R.SEC_KEYBUF.base then (s.wr a v, .ok)
  else if b = R.SEC_ATTCMD.base then (if F.SEC_ATTCMD_GO.of v = 1 then s.attestGo else s, .ok)
  else if b = R.SEC_ATTNONCE.base then ((s.wr a v).put F.SEC_ATTSTAT_DONE 0, .ok)
  else if b = R.SEC_NVMCTL.base then s.nvmGo (F.SEC_NVMCTL_CMD.of v) (F.SEC_NVMCTL_ADDR.of v)
  else if b = R.SEC_BOOTSEL.base then
    ({ s with aon := { s.aon with oneshot := v.getLsbD 1, slot := fieldGet v 0 0 } }, .ok)
  else if b = R.SEC_TAMPER.base then
    ({ s with aon := { s.aon with tamper := s.aon.tamper &&& (7 - fieldGet v 2 0) } }, .ok)
  else (s.plainWrite a v r, .ok)

/-- What a write does to the immediate fields of a register. -/
def State.immediate (s : State) (path a : Nat) (v : Word) (r : Row) (i : Nat) : State × Code :=
  let b := r.base
  if b = R.SYS_TXN.base then s.txCommand path v
  else if b = R.SYS_FREEZE.base then (if F.SYS_FREEZE_GO.of v = 1 then s.freeze else s, .ok)
  else if b = R.EVT_CNTCLR.base then
    (if F.EVT_CNTCLR_ALL.of v = 1 then s.clearAllCounts else s.clearOneCount (F.EVT_CNTCLR_SRC.of v), .ok)
  else if b = R.EVT_PEND.base then (s.pendWrite i v, .ok)
  else if b = R.CLK_ALARM.base then (s.alarmClear (F.CLK_ALARM_ALARM.of v), .ok)
  else if b = R.ADC_TESTCTL.base then s.testCtl v
  else if b = R.CMP_STAT.base then (s.cmpstatWrite i (v.getLsbD 1) (v.getLsbD 0), .ok)
  else if b = R.CMP_AONSTAT.base then (s.aonstatWrite v, .ok)
  else if b = R.CE_CLR.base then (s.ceClr v, .ok)
  else if b = R.CE_TRCTRL.base then ((s.traceStop (F.CE_TRCTRL_STOP.of v)).traceArm (F.CE_TRCTRL_ARM.of v), .ok)
  else if b = R.CE_TRTRIG.base then
    (if F.CE_TRTRIG_SW.of v = 1 then { s with ce := { s.ce with trigDue := true } } else s, .ok)
  else if b = R.LVS_FORCEGO.base then
    let t := if F.LVS_FORCEGO_GO.of v = 1 then s.forceGo else s
    ((if F.LVS_FORCEGO_RELEASE.of v = 1 then t.forceRelease else t).forward ⟨a, v, path, .write⟩, .ok)
  else if b = R.LVS_FORCE0.base ∨ b = R.LVS_FORCE1.base ∨ b = R.LVS_FORCE2.base then
    ((s.plainWrite a v r).forward ⟨a, v, path, .write⟩, .ok)
  else if b = R.LVS_TRIPSTAT.base then (s.tripstatWrite v, .ok)
  else if b = R.LVS_PWM_STAT.base then (s.pwmstatWrite i v, .ok)
  else if b = R.GDI_FLT.base then (s.eachBit 16 (F.GDI_FLT_LATCHED.of v) State.clearFault, .ok)
  else if b = R.GDI_FIRST.base then (if F.GDI_FIRST_VALID.of v = 1 then s.wr a 0 else s, .ok)
  else if b = R.GDI_RETRYCLR.base then (s.eachBit 3 (fieldGet v 2 0) State.retryClearOne, .ok)
  else if b = R.DML_CTRL.base then s.dmlCtrl i (F.DML_CTRL_EN.of v == 1) (F.DML_CTRL_RESTART.of v == 1)
  else if b = R.DML_HALOCTRL.base then
    s.haloCtrl i (F.DML_HALOCTRL_GO.of v == 1) (F.DML_HALOCTRL_STOP.of v == 1) (F.DML_HALOCTRL_DWELL.of v)
  else if b = R.RED_CTRL.base then s.redCtrl (F.RED_CTRL_RESYNC.of v == 1) (F.RED_CTRL_SWAP.of v == 1)
  else if b = R.SAF_CTRL.base then (s.safCtrl path v, .ok)
  else if b = R.NET_PTPCTL.base then s.ptpCtl v
  else if b = R.NET_TOUTCTL.base then s.toutCtl i v
  else if b = R.ACQ_CALCTRL.base then (if F.ACQ_CALCTRL_GO.of v = 1 then s.calStart 2 else s, .ok)
  else if b = R.ACQ_DIRCTL.base then (if F.ACQ_DIRCTL_CMD.of v = 0 then (s, .ok) else s.dirControl (F.ACQ_DIRCTL_CMD.of v))
  else if b = R.ACQ_WMAP.base then s.wmapWrite i (F.ACQ_WMAP_OWN.of v == 1) (F.ACQ_WMAP_PAGE.of v)
  else if b = R.ACQ_RCTL.base then s.recCtl i v
  else if b = R.ACQ_MAPCTL.base then s.mapCtl v
  else s.secWrite path a v r

/-! ### Checks and acceptance -/

/-- A refusal, with the event that R61 gives its code. -/
def State.refuse (s : State) (path a : Nat) (c : Code) : State × Code :=
  match c with
  | .range => (s.pulse Ev.REG_RANGE a path, c)
  | .guard => (s.pulse Ev.GUARD_REJ a path, c)
  | .txnReq => (s.pulse Ev.TXN_REQ a path, c)
  | _ => (s, c)

/-- The path has thawed (R67). -/
def State.thawed (s : State) (path : Nat) : Bool := s.bus.thaw.contains path

/-- The lock of a path is armed again. -/
def State.refreeze (s : State) (path : Nat) : State := { s with bus := { s.bus with thaw := s.bus.thaw.filter (· != path) } }

/-- SYS_THAW (R67, R68). -/
def State.thawWrite (s : State) (path : Nat) (v : Word) : State × Code :=
  if v = 0x7A3C then
    ({ s with bus := { s.bus with thaw := if s.thawed path then s.bus.thaw else s.bus.thaw ++ [path] } }, .ok)
  else (s.refreeze path).refuse path R.SYS_THAW.base .guard

/-- Registers written only in a transaction (R73, R85). -/
def txnOnly (r : Row) : Bool := r.cfg || r.base == R.SYS_CFGREF.base

/-- Stage or buffer the fields that do not act at once (R62, R72, R73). -/
def State.acceptLate (s : State) (path a : Nat) (v : Word) (r : Row) : State × Code :=
  let late := r.maskOf fun f => f.takes && f.apply != .immediate
  if late = 0 then (s, .ok)
  else if s.ownsOpen path then s.txStage path a v
  else if txnOnly r then (s, if s.txBusy then .busy else .txnReq)
  else (s.offerBuf ⟨path, a, v, late, false, none, false⟩, .ok)

/-- A write that has passed its guard: ranges, states, transaction, effect. A setting refused under R49 raises EV_EVT_CFG_REJ, and an
IDHASH write outside the states of R19 raises EV_CELL_CFG_REJ. -/
def State.takeWrite (s : State) (path a : Nat) (v : Word) (r : Row) (i j : Nat) : State × Code :=
  match s.rangeFault path a v r i j with
  | some true => (s.pulse Ev.EVT_CFG_REJ a path, .range)
  | some false => s.refuse path a .range
  | none =>
    if !s.stateOk r i v then
      (if r.base = R.CELL_ENTRYW.base ∧ s.cState i ≠ csEmpty then s.pulse Ev.CELL_CFG_REJ i path else s, .state)
    else
      let (t, c) := s.acceptLate path a v r
      if c ≠ .ok then t.refuse path a c
      else
        let (u, d) := t.immediate path a v r i
        if d = .ok then (u, .ok) else u.refuse path a d

/-- A guarded or plain write to a register that the head's state leaves open (R67 to R70). -/
def State.guardWrite (s : State) (path a : Nat) (v : Word) (r : Row) (i j : Nat) : State × Code :=
  if r.guarded .g2 then
    if s.bus.g2.isSome then (s, .busy)
    else ({ s with bus := { s.bus with g2 := some ⟨path, a, v⟩ } }, .ok)
  else if r.guarded .g1 then
    if s.thawed path then
      let (t, c) := s.takeWrite path a v r i j
      (if c = .ok then t.refreeze path else t, c)
    else s.refuse path a .guard
  else s.takeWrite path a v r i j

/-- The second word of a G2 pair (R69, R70): with the complement of the value held it completes the write. -/
def State.complWrite (s : State) (path a : Nat) (v : Word) (x : Row × Nat × Nat) : State × Code :=
  match s.bus.g2 with
  | some g =>
    if g.path = path then
      let t : State := { s with bus := { s.bus with g2 := none } }
      if g.addr + 4 = a ∧ v = ~~~ g.val then t.takeWrite path g.addr g.val x.1 x.2.1 x.2.2 else t.refuse path a .guard
    else (s, .busy)
  | none => s.refuse path a .guard

/-- A path exists: HSPI, or an open session while the ports are up (R58, R108). Register access pauses while the clock of the
management or of the control island is out or its PLL not yet locked (R417, R418): an access of that time has no effect here, and the
sender repeats it (log entry 71). -/
def State.pathOn (s : State) (path : Nat) : Bool :=
  !s.acqStopped && s.pllOn 0 && (path == 0 || (s.portsUp && (s.session path).open_))

/-- The owner of a poisoned transaction: every write of its own but of SYS_TXN returns FULL (R74). -/
def State.poisoned (s : State) (path : Nat) : Bool := s.ownsOpen path && s.flag F.SYS_TXNSTAT_POISON

/-- The checks of R60 in order, on a write that meets no pending G2 value of its own path. -/
def State.checkWrite (s : State) (path a : Nat) (v : Word) : State × Code :=
  if s.poisoned path && a != R.SYS_TXN.base then (s, .full)
  else if s.shut a then (s, .state)
  else if a % 4 ≠ 0 then (s, .nomap)
  else if blockOf a = some .window then (s, .ro)
  else match complOf a with
    | some x => if s.writeShut x.1 then (s, .state) else s.complWrite path a v x
    | none =>
      match s.rowAt a with
      | none => (s, .nomap)
      | some (r, i, j) =>
        if r.base = R.SYS_THAW.base then s.thawWrite path v
        else if s.writeShut r then (s, .state)
        else if !r.writable || s.fixedWord a then (s, .ro)
        else s.guardWrite path a v r i j

/-- Record the status of an access (R60). -/
def State.noteCode (s : State) (path : Nat) (c : Code) : State :=
  s.wr R.SYS_WRSTAT.base (fieldSet (s.rd R.SYS_WRSTAT.base) (4 * path + 3) (4 * path) c.num)

/-- A flash command or a key operation that is refused with STATE or RANGE shows in ERR of SEC_NVMSTAT or in FAIL of SEC_KEYSTAT, whatever
check refuses it (R135). -/
def State.noteRefused (s : State) (a : Nat) (c : Code) : State :=
  if c ≠ .state ∧ c ≠ .range then s
  else if a = R.SEC_NVMCTL.base then s.put F.SEC_NVMSTAT_ERR 1
  else if a = R.SEC_KEYOP.base ∨ a = R.SEC_KEYOP.base + 4 then s.put F.SEC_KEYSTAT_FAIL 1
  else s

/-- A write from a path (R58 to R75). A write that comes between the two words of a G2 pair is refused and ends the pair (R70). -/
def State.busWrite (s : State) (path a : Nat) (v : Word) : State × Code :=
  let (t, c) := match s.bus.g2 with
    | some g =>
      if g.path = path ∧ a ≠ g.addr + 4 then ({ s with bus := { s.bus with g2 := none } } : State).refuse path a .guard
      else s.checkWrite path a v
    | none => s.checkWrite path a v
  ((t.noteRefused a c).noteCode path c, c)

/-- A write whose effect the active passes on to a standby (R82, R329). -/
def State.forwards (s : State) (a : Nat) : Bool :=
  match s.rowAt a with
  | some (r, _, _) => (r.maskOf fun f => f.takes && f.apply != .immediate) != 0 ||
      [R.SYS_TXN.base, R.LVS_FORCE0.base, R.LVS_FORCE1.base, R.LVS_FORCE2.base, R.LVS_FORCEGO.base, R.SAF_CTRL.base].contains r.base
  | none => false

/-- The management island holds an access that a full REG segment cannot take, and what its path sends behind it (R64, R325). -/
def State.mustWait (s : State) (path a : Nat) : Bool :=
  (s.regFull && s.forwards a) || s.bus.waiting.any fun x => x.1 == path

/-- A write command from a path: nothing happens where the path does not exist. -/
def State.pathWrite (s : State) (path a : Nat) (v : Word) : State :=
  if s.pathOn path then
    if s.mustWait path a then { s with bus := { s.bus with waiting := s.bus.waiting ++ [(path, a, v)] } }
    else (s.busWrite path a v).1
  else s

/-- The accesses that waited for a REG segment complete, in their order. -/
def State.takeWaiting (s : State) : State :=
  s.bus.waiting.foldl (fun (t : State) x => t.pathWrite x.1 x.2.1 x.2.2) { s with bus := { s.bus with waiting := [] } }

/-! ### Reads -/

/-- One bit per key slot that passes a test. -/
def slotBits (n : Nat) (p : Nat → Bool) : Nat := (List.range n).foldl (fun w i => if p i then w + 2 ^ i else w) 0

/-- SEC_KEYSTAT with the slots as the fuses and MRAM have them (R135). -/
def State.keystatWord (s : State) : Word :=
  let w := s.rd R.SEC_KEYSTAT.base
  let held := fun (m : Sparse (List Byte)) i => !(Sparse.get (fun _ => []) m i).isEmpty
  let w := fieldSet w 15 12 (slotBits 4 s.otp.ownerRev.contains)
  let w := fieldSet w 11 8 (slotBits 4 (held s.otp.owner))
  let w := fieldSet w 7 6 (slotBits 2 s.otp.imageRev.contains)
  let w := fieldSet w 5 4 (slotBits 2 (held s.otp.image))
  fieldSet w 1 0 (slotBits 2 (held s.nv.netKeys))

/-- Word `i` of SEC_DEVID (R457): "LYID", FMT and PART, the identity number, two words of zeros, keys and certificates. -/
def devidWord (i : Nat) : Word :=
  if i = 0 then 0x4449594C else if i = 1 then 0x76400001 else if i = 6 ∨ i = 7 ∨ 0x220 ≤ i then 0 else Config.deviceWord i

/-- CELL_QSTAT (R189). -/
def State.qstatWord (s : State) : Word :=
  let q := s.budget.queue
  let head := match q with
    | [] => 0
    | r :: _ => if r.pump then 2 ^ 13 else r.cell
  BitVec.ofNat 32 (s.freeUnits * 2 ^ 23 + q.length * 2 ^ 14 + head)

/-- Seconds since this head last drove (R337). -/
def State.swapAge (s : State) : Nat := if s.driving then 0 else min ((s.ct - s.red.drivenAt) / 600000000) 0xFFFFFFFF

/-- Registers whose value is formed when they are read. -/
def State.liveWord (s : State) (path a : Nat) : Option Word :=
  let w := fun (n : Nat) => some (BitVec.ofNat 32 n)
  match s.rowAt a with
  | none => none
  | some (r, i, j) =>
    let b := r.base
    if b = R.SYS_ID.base then some (fieldSet (s.rd a) 15 8 Config.siliconStep)
    else if b = R.SYS_GSTAT.base then
      let g := match s.bus.g2 with
        | some g => g.path * 2 ^ 8 + 2 ^ 7
        | none => 0
      w (slotBits 5 s.thawed * 2 ^ 11 + g)
    else if b = R.SYS_PERIODLO.base then w s.period
    else if b = R.SYS_PERIODHI.base then some (Sparse.get (fun _ => 0) s.bus.periodHi path)
    else if b = R.EVT_LOGSTAT.base then w (s.evt.queue.length + if 64 ≤ s.evt.queue.length then 2 ^ 7 else 0)
    else if b = R.EVT_IRQSTAT.base then w s.irqLines
    else if b = R.CLK_RTCLO.base then w s.rtcNow
    else if b = R.CLK_RTCHI.base then some (Sparse.get (fun _ => 0) s.bus.rtcHi path)
    else if b = R.NET_TIMELO.base then w s.netNow
    else if b = R.NET_TIMEHI.base then some (Sparse.get (fun _ => 0) s.bus.timeHi path)
    else if b = R.GDI_CTCNT.base then w s.ctcnt
    else if b = R.GDI_FSCOPE.base then w (s.faultScope i)
    else if b = R.CE_ARBCFG.base then some (fixBits r i (s.rd a))
    else if b = R.CE_TRPER.base then w (s.trace (s.get F.CE_TRSEL_CHAN)).trigAt
    else if b = R.CE_TRWIN.base then
      some (Sparse.get (fun _ => (0, 0)) (s.trace (s.get F.CE_TRSEL_CHAN)).data (256 * s.get F.CE_TRSEL_BLOCK + i)).2
    else if b = R.CELL_QSTAT.base then some s.qstatWord
    else if b = R.CELL_GRP.base then w (s.nAvail i * 2 ^ 16 + s.nSvc i)
    else if b = R.CMP_AONCFG.base then some (s.aonCfg i)
    else if b = R.CMP_AONSTAT.base then w ((if s.aonWake then 2 ^ 8 else 0) + s.aon.cause * 2 ^ 4 + s.aon.out)
    else if b = R.RED_STAT.base then some (fieldSet (s.rd a) 24 23 ((s.xlUp 0).toNat + 2 * (s.xlUp 1).toNat))
    else if b = R.RED_SWAPAGE.base then w s.swapAge
    else if b = R.RED_SLSTAT.base then some (fieldSet (s.rd a) 23 16 (min 255 (s.recentNow i)))
    else if b = R.SAF_TGSTAT.base then match (s.tgConn i).accAt with
      | some c => some (fieldSet (s.rd a) 15 0 (min 0xFFFF ((s.ct - c) / 600000)))
      | none => none
    else if b = R.ACQ_STAT.base then some (fieldSet (s.rd a) 12 0 s.freePages)
    else if b = R.ACQ_POOL.base then w (s.poolPages * 2 ^ 16 + s.protPages)
    else if b = R.ACQ_WSTAT.base then
      if s.flag F.ACQ_WMAP_OWN i then w (2 ^ 31 + s.pageRecid (s.get F.ACQ_WMAP_PAGE i) % 2 ^ 31) else w 0
    else if b = R.ACQ_DIR.base then some (s.dirRead i j)
    else if b = R.SEC_SVN.base then some (fieldSet (s.rd a) 22 16 s.otp.svn)
    else if b = R.SEC_BOOTSEL.base then w (2 * s.aon.oneshot.toNat + s.aon.slot)
    else if b = R.SEC_LCREQ.base then w (s.sec.lcTarget.getD s.otp.lcs)
    else if b = R.SEC_KEYSTAT.base then some s.keystatWord
    else if b = R.SEC_RESIGN.base then
      if s.get F.SEC_STATE_HSTATE = 3 then
        some (fieldSet (s.rd a) 31 16 (s.get F.SEC_RESIGN_LEFT - (s.ct - s.sec.resignedAt) / 600000000))
      else some (s.rd a)
    else if b = R.SEC_FSUM.base then some s.fsumWord
    else if b = R.SEC_TAMPER.base then w s.aon.tamper
    else if b = R.SEC_BOOTCNT.base then w s.nv.bootCnt
    else if b = R.SEC_KEYBUF.base then w 0
    else if b = R.SEC_DEVID.base then some (devidWord i)
    else none

/-- The value a register shows (R63). -/
def State.regValue (s : State) (path a : Nat) : Word := (s.liveWord path a).getD (s.inForce a)

/-- A read of a low word latches its high word for the reading path (R88, R368, R421). -/
def State.readLatch (s : State) (path a : Nat) : State :=
  if a = R.SYS_PERIODLO.base then
    { s with bus := { s.bus with
      periodHi := Sparse.set (fun _ => 0) s.bus.periodHi path (BitVec.ofNat 32 (s.period / 2 ^ 32)) } }
  else if a = R.NET_TIMELO.base then
    { s with bus := { s.bus with timeHi := Sparse.set (fun _ => 0) s.bus.timeHi path (BitVec.ofNat 32 (s.netNow / 2 ^ 32)) } }
  else if a = R.CLK_RTCLO.base then
    { s with bus := { s.bus with rtcHi := Sparse.set (fun _ => 0) s.bus.rtcHi path (BitVec.ofNat 32 (s.rtcNow / 2 ^ 32 % 2 ^ 16)) } }
  else s

/-- What a read returns. -/
def State.readWord (s : State) (path a : Nat) : Word × Code :=
  if s.shut a then (0, .state)
  else if a % 4 ≠ 0 then (0, .nomap)
  else if blockOf a = some .window then
    match s.windowWord (a - 0x10000000) with
    | some w => (w, .ok)
    | none => (0, .nomap)
  else match complOf a with
    | some _ => (~~~ s.regValue path (a - 4), .ok)
    | none => if (s.rowAt a).isSome then (s.regValue path a, .ok) else (0, .nomap)

/-- A read from a path (R58 to R63, R454). -/
def State.busRead (s : State) (path a : Nat) : State × Word × Code :=
  let (w, c) := s.readWord path a
  let t := (if c = .ok then s.readLatch path a else s).noteCode path c
  ({ t with bus := { t.bus with lastRead := Sparse.set (fun _ => 0) t.bus.lastRead path w } }, w, c)

/-- A read command from a path. -/
def State.pathRead (s : State) (path a : Nat) : State := if s.pathOn path then (s.busRead path a).1 else s

end Sys2Proof.Machine
end

