-- ==== Sys2Proof/Machine/AcqCmds.lean ====
section
/-! DEFINITION. Commands of acquisition: recorders, masks, pages, calibration, the shared window, the directory and the maps (R392 to
R412). -/

namespace Sys2Proof.Machine

/-! ### Recorders -/

/-- ACQ_RCTL of a recorder. -/
def State.rctl (s : State) (path k : Nat) (v : Word) : State := s.pathWrite path (F.ACQ_RCTL_ARM.addr k) v

/-- RECORDER_ARM (R400). -/
def execRecorderArm (path : Path) (rec : RecId) (s : State) : Host.Outcome State Fault Refusal := (s.rctl path rec.val 1).done

/-- RECORDER_STOP (R401). -/
def execRecorderStop (path : Path) (rec : RecId) (s : State) : Host.Outcome State Fault Refusal := (s.rctl path rec.val 2).done

/-- RECORDER_FORCE (R399). -/
def execRecorderForce (path : Path) (rec : RecId) (s : State) : Host.Outcome State Fault Refusal := (s.rctl path rec.val 4).done

/-- RECORDER_TRIGGER (R397, R399, R400). -/
def execRecorderTrigger (rec : RecId) (tofs : BitVec 12) (s : State) : Host.Outcome State Fault Refusal :=
  (s.recTrigger rec.val tofs.toNat).done

/-- RECORDER_HOLDOFF_EXPIRY (R399). -/
def execRecorderHoldoffExpiry (rec : RecId) (s : State) : Host.Outcome State Fault Refusal := (s.holdPassed rec.val).done

/-- RECORDER_POST_COMPLETE (R400, R404). -/
def execRecorderPostComplete (rec : RecId) (s : State) : Host.Outcome State Fault Refusal := (s.recComplete rec.val).done

/-- MASK_VIOLATION (R402). -/
def execMaskViolation (mask : Fin 8) (row : Word) (s : State) : Host.Outcome State Fault Refusal :=
  (s.maskHit mask.val row.toNat).done

/-- PAGE_EVICTION (R406, R407). -/
def execPageEviction (rec : RecId) (s : State) : Host.Outcome State Fault Refusal := (s.needPage rec.val).done

/-- ACQ_OVERRUN (R392). -/
def execAcqOverrun (s : State) : Host.Outcome State Fault Refusal := s.overrun.done

/-! ### Calibration -/

/-- CAL_GO (R395). -/
def execCalGo (path : Path) (s : State) : Host.Outcome State Fault Refusal := (s.pathWrite path R.ACQ_CALCTRL.base 1).done

/-- CAL_COMPLETE (R394 to R396). -/
def execCalComplete (skews : List Int) (s : State) : Host.Outcome State Fault Refusal := (s.calDone skews).done

/-! ### The shared window and the directory -/

/-- WMAP_CLAIM (R411). -/
def execWmapClaim (path : Path) (slot : Fin 32) (page : BitVec 12) (s : State) : Host.Outcome State Fault Refusal :=
  (s.pathWrite path (F.ACQ_WMAP_OWN.addr slot.val) (BitVec.ofNat 32 (2 ^ 31 + page.toNat))).done

/-- WMAP_RELEASE (R411). -/
def execWmapRelease (path : Path) (slot : Fin 32) (s : State) : Host.Outcome State Fault Refusal :=
  (s.pathWrite path (F.ACQ_WMAP_OWN.addr slot.val) 0).done

/-- DIR_PROTECT (R405). -/
def execDirProtect (path : Path) (s : State) : Host.Outcome State Fault Refusal := (s.pathWrite path R.ACQ_DIRCTL.base 1).done

/-- DIR_UNPROTECT (R405). -/
def execDirUnprotect (path : Path) (s : State) : Host.Outcome State Fault Refusal := (s.pathWrite path R.ACQ_DIRCTL.base 2).done

/-- DIR_DELETE (R405). -/
def execDirDelete (path : Path) (s : State) : Host.Outcome State Fault Refusal := (s.pathWrite path R.ACQ_DIRCTL.base 3).done

/-! ### Maps -/

/-- MAP_SNAP (R410). -/
def execMapSnap (path : Path) (s : State) : Host.Outcome State Fault Refusal := (s.pathWrite path R.ACQ_MAPCTL.base 1).done

/-- MAP_SNAP_DONE (R410). -/
def execMapSnapDone (s : State) : Host.Outcome State Fault Refusal := s.mapSnapDone.done

/-- MAP_CLR (R410). -/
def execMapClr (path : Path) (s : State) : Host.Outcome State Fault Refusal := (s.pathWrite path R.ACQ_MAPCTL.base 2).done

end Sys2Proof.Machine
end

