-- ==== Sys2Proof/Machine/AnalogCmds.lean ====
section
/-! DEFINITION. Commands of the converters, the test DAC and the window comparators (R295 to R315). -/

namespace Sys2Proof.Machine

/-- Periods run: the head is in RUN or RESIGNED. -/
def State.periodsRun (s : State) : Bool := s.get F.SEC_STATE_HSTATE == 2 || s.get F.SEC_STATE_HSTATE == 3

/-! ### Fast channels -/

/-- Instant `j` of a period: the converters, then acquisition (R296, R392). Nothing comes from an island whose clock has failed (R35). -/
def State.sampleAt (s : State) (j : Nat) (codes : List Int) (ready : Nat) : State :=
  if s.periodsRun ∧ j < s.ns ∧ ¬s.netStopped then
    let t := s.fastInstant j codes ready
    if t.acqStopped then t else t.acqInstant j codes
  else s

/-- The results of an instant whose words fail parity on their way to the control island are discarded (R35). -/
def State.fastParity (s : State) (bad : BitVec 24) : State :=
  if s.periodsRun ∧ ¬s.netStopped then ((List.range 24).filter bad.getLsbD).foldl (fun t _ => t.xingBad) s else s

/-- FAST_SAMPLE (R295 to R300, R392 to R402). -/
def execFastSample (j : BitVec 9) (codes : Vector (BitVec 16) 24) (ready : FastReady) (s : State) :
    Host.Outcome State Fault Refusal :=
  ((s.fastParity ready.parity).sampleAt j.toNat (codes.toList.map (·.toInt)) (ready.ready &&& ~~~ ready.parity).toNat).done

/-- 180 CT have passed since the boundary: the channels without a result are late (R297). -/
def State.fastDeadline (s : State) : State :=
  if s.periodsRun then ((List.range 24).filter fun n => !s.adc.delivered.testBit n).foldl State.fastLate s else s

/-- FAST_RESULT_DEADLINE (R297). -/
def execFastResultDeadline (s : State) : Host.Outcome State Fault Refusal := s.fastDeadline.done

/-! ### Housekeeping -/

/-- HK_SCAN_START (R301). -/
def execHkScanStart (s : State) : Host.Outcome State Fault Refusal := (if s.periodsRun then s.hkStart else s).done

/-- HK_CONVERSION_DONE (R302, R303). -/
def execHkConversionDone (entry : Nat) (chan : BitVec 5) (code : HkWord) (s : State) : Host.Outcome State Fault Refusal :=
  (if s.netStopped then s else if code.parity then s.hkLostWord entry else s.hkConvert entry chan.toNat code.code.toNat).done

/-- HK_SCAN_TIMEOUT (R302). -/
def execHkScanTimeout (s : State) : Host.Outcome State Fault Refusal := s.hkTimeout.done

/-! ### The test DAC -/

/-- TEST_DAC_GO (R304, R305). -/
def execTestDacGo (path : Path) (hk : Bool) (chan : BitVec 5) (code : BitVec 10) (s : State) : Host.Outcome State Fault Refusal :=
  (s.pathWrite path R.ADC_TESTCTL.base
    (BitVec.ofNat 32 (2 ^ 31 + hk.toNat * 2 ^ 29 + chan.toNat * 2 ^ 24 + code.toNat))).done

/-- TEST_DAC_STOP (R305). -/
def execTestDacStop (path : Path) (s : State) : Host.Outcome State Fault Refusal :=
  (s.pathWrite path R.ADC_TESTCTL.base (BitVec.ofNat 32 (2 ^ 30))).done

/-- The word that ends a check, on its way to the control island: one that fails parity is discarded (R35). -/
def State.testEnd (s : State) (parity : Bool) : State :=
  if s.netStopped then s else if parity then s.xingBad else s.testDone

/-- TEST_DAC_CHECK_DONE (R35, R305). -/
def execTestDacCheckDone (parity : Bool) (s : State) : Host.Outcome State Fault Refusal := (s.testEnd parity).done

/-! ### Windows -/

/-- COMPARATOR_RAW_CHANGE (R307). -/
def execComparatorRawChange (win : WinId) (upper : Bool) (input : Int) (s : State) : Host.Outcome State Fault Refusal :=
  (s.rawWindow win.val upper input).done

/-- A filtered output on its way to the control island (R35). -/
def State.windowChange (s : State) (w : Nat) (upper level parity : Bool) : State :=
  if s.netStopped then s else if parity then s.xingBad else s.filtWindow w upper level

/-- WINDOW_OUTPUT_CHANGE (R35, R267, R308, R310, R311). -/
def execWindowOutputChange (win : WinId) (upper : Bool) (level : WindowWord) (s : State) : Host.Outcome State Fault Refusal :=
  (s.windowChange win.val upper level.level level.parity).done

/-- WINDOW_ENABLE (R309): the settling of an enabled window ends. -/
def execWindowEnable (win : WinId) (s : State) : Host.Outcome State Fault Refusal := (s.settleWindow win.val).done

/-- WINDOW_LATCH_CLEAR (R310). -/
def execWindowLatchClear (path : Path) (win : WinId) (latu latl : Bool) (s : State) : Host.Outcome State Fault Refusal :=
  (s.pathWrite path (F.CMP_STAT_LATU.addr win.val) (BitVec.ofNat 32 (latu.toNat * 2 + latl.toNat))).done

/-- AON_COMPARATOR_CHANGE (R313). -/
def execAonComparatorChange (comp : Fin 4) (strobes : Vector Nat 3) (s : State) : Host.Outcome State Fault Refusal :=
  (s.aonChange comp.val strobes.toList).done

end Sys2Proof.Machine
end

