-- ==== Sys2Proof/Machine/BootCmds.lean ====
section
/-! DEFINITION. Commands of start-up, life cycle and the SEC block: resets, wipes, boot, keys, attestation, flash (R92 to R135, R417,
R431). -/

namespace Sys2Proof.Machine

/-! ### Resets -/

/-- A reset with its cause. -/
def State.resetWith (s : State) (cause : Nat) (headsel : Bool) : State :=
  ({ s with pins := { s.pins with headsel := headsel, coreGood := true } } : State).hardReset cause

/-- POWER_ON (R93). -/
def execPowerOn (headsel : Bool) (s : State) : Host.Outcome State Fault Refusal := (s.resetWith 1 headsel).done

/-- RESET_N_LOW (R93). -/
def execResetNLow (headsel : Bool) (s : State) : Host.Outcome State Fault Refusal := (s.resetWith 2 headsel).done

/-- SEC_RESET_GO (R127, R135). -/
def execSecResetGo (path : Path) (val : Word) (s : State) : Host.Outcome State Fault Refusal :=
  (s.pathWrite path R.SEC_RESET.base val).done

/-- BOOT_WATCHDOG_EXPIRY (R93): it acts while boot or apply runs. -/
def execBootWatchdogExpiry (s : State) : Host.Outcome State Fault Refusal :=
  (if s.get F.SEC_STATE_HSTATE ≤ 1 then s.hardReset 4 else s).done

/-- The tampers the monitor watches for: the core supply's only from the first boundary in RUN on (R443). -/
def State.tamperSeen (s : State) (causes : BitVec 3) : BitVec 3 :=
  if s.get F.SEC_STATE_HSTATE = 2 ∨ s.get F.SEC_STATE_HSTATE = 3 then causes else causes &&& 6

/-- TAMPER_DETECT (R132): the record stays in the always-on domain and is reported at the next boot. -/
def execTamperDetect (causes : BitVec 3) (s : State) : Host.Outcome State Fault Refusal :=
  (if s.tamperSeen causes = 0 then s
   else ({ s with aon := { s.aon with tamper := s.aon.tamper ||| (s.tamperSeen causes).toNat, tamperNew := true } } : State).hardReset 5).done

/-- VDD_CORE is below power-good (R431, R444): every output is low, the pump gates are off and RESIGN_O is released. -/
def State.corePowerLost (s : State) : State :=
  let t : State := { s with
    pins := { s.pins with coreGood := false }, red := { s.red with pad := false }, saf := { s.saf with tp := 0 }
    net := { s.net with touts := (List.range 8).foldl (fun m n =>
      Sparse.set (fun _ => {}) m n { Sparse.get (fun _ => {}) m n with high := false }) s.net.touts } }
  t.resignOutputs

/-- CORE_POWER_GOOD_LOSS (R431). -/
def execCorePowerGoodLoss (s : State) : Host.Outcome State Fault Refusal := s.corePowerLost.done

/-! ### Wipes and clocks -/

/-- Failing DRAM pages are retired and counted; more than 16 end the boot (R118), and an image that was applied is dropped (R111). -/
def State.retirePages (s : State) (failed : List Nat) : State :=
  let ps := (failed.filter (· < 4096)).eraseDups
  let t := ps.foldl (fun (u : State) p => (u.setPage p { u.page p with retired := true }).pulse Ev.WIPE_FAULT p) s
  let n := ((List.range 4096).filter fun p => (t.page p).retired).length
  let t := t.put F.SEC_WIPE_RETIRED (min n 16)
  if 16 < n ∧ t.get F.SEC_STATE_HSTATE ≤ 1 then (if t.img.applied then t.dropImage else t).noImage else t

/-- A wipe ends (R112, R116, R118). That of the staging region is the final one where an image has been accepted (R112). -/
def State.wipeDone (s : State) (failed : List Nat) : WipeKind → State
  | .sram => { s with boot := { s.boot with sramDone := true } }
  | .dram => ({ s with boot := { s.boot with dramDone := true } } : State).put F.SEC_WIPE_DONE 1 |>.retirePages failed
  | .staging => ({ s with boot := { s.boot with
      stagingDone := s.boot.stage == .accepted, mustWipe := false } } : State).retirePages failed

/-- WIPE_COMPLETE (R116, R118). -/
def execWipeComplete (kind : WipeKind) (failed : List Nat) (s : State) : Host.Outcome State Fault Refusal :=
  (if s.get F.SEC_STATE_HSTATE = 2 ∨ s.get F.SEC_STATE_HSTATE = 3 then s else s.wipeDone failed kind).done

/-- PLL_LOCK_EXPIRY (R417). -/
def execPllLockExpiry (pll : PllId) (s : State) : Host.Outcome State Fault Refusal := (s.pllLocked pll).done

/-! ### Boot -/

/-- SLOT_VERIFY (R97, R106 to R111). -/
def execSlotVerify (s : State) : Host.Outcome State Fault Refusal := s.slotVerify.done

/-- IMAGE_READ_COMPLETE (R106 step 5). -/
def execImageReadComplete (ok : Bool) (s : State) : Host.Outcome State Fault Refusal := (s.readDone ok).done

/-- IMAGE_CHECK_PASS (R110). -/
def execImageCheckPass (s : State) : Host.Outcome State Fault Refusal := s.checkPass.done

/-- FIRST_BOUNDARY (R112). -/
def execFirstBoundary (s : State) : Host.Outcome State Fault Refusal := s.firstBoundary.done

/-- QUAD_POWER_UP (R112): a quad with no lane in use stays off. -/
def execQuadPowerUp (quad : Fin 7) (s : State) : Host.Outcome State Fault Refusal :=
  (if s.get F.SEC_STATE_HSTATE = 2 then s.quadUp quad.val else s).done

/-! ### Life cycle and keys -/

/-- Both words of a G2 pair from one path. -/
def State.pairWrite (s : State) (path a : Nat) (v c : Word) : State := (s.pathWrite path a v).pathWrite path (a + 4) c

/-- LC_REQUEST (R120). -/
def execLcRequest (path : Path) (val compl : Word) (s : State) : Host.Outcome State Fault Refusal :=
  (s.pairWrite path R.SEC_LCREQ.base val compl).done

/-- LC_CHANGE_RESET (R121). -/
def execLcChangeReset (s : State) : Host.Outcome State Fault Refusal := s.lcChange.done

/-- A key operation written with its complement (R122, R135). -/
def State.keyopWrite (s : State) (path op slot : Nat) : State :=
  let v := BitVec.ofNat 32 (op * 2 ^ 28 + slot)
  s.pairWrite path R.SEC_KEYOP.base v (~~~ v)

/-- KEYOP_PROVISION_OWNER (R122). -/
def execKeyopProvisionOwner (path : Path) (slot : BitVec 2) (s : State) : Host.Outcome State Fault Refusal :=
  (s.keyopWrite path 1 slot.toNat).done

/-- KEYOP_PROVISION_IMAGE (R122). -/
def execKeyopProvisionImage (path : Path) (slot : BitVec 2) (s : State) : Host.Outcome State Fault Refusal :=
  (s.keyopWrite path 2 slot.toNat).done

/-- KEYOP_PROVISION_NETWORK (R122). -/
def execKeyopProvisionNetwork (path : Path) (slot : BitVec 2) (s : State) : Host.Outcome State Fault Refusal :=
  (s.keyopWrite path 3 slot.toNat).done

/-- KEYOP_REVOKE_OWNER (R122). -/
def execKeyopRevokeOwner (path : Path) (slot : BitVec 2) (s : State) : Host.Outcome State Fault Refusal :=
  (s.keyopWrite path 4 slot.toNat).done

/-- KEYOP_REVOKE_IMAGE (R122). -/
def execKeyopRevokeImage (path : Path) (slot : BitVec 2) (s : State) : Host.Outcome State Fault Refusal :=
  (s.keyopWrite path 5 slot.toNat).done

/-- KEYOP_RAISE_SVN (R123). -/
def execKeyopRaiseSvn (path : Path) (s : State) : Host.Outcome State Fault Refusal := (s.keyopWrite path 6 0).done

/-- KEYOP_CLEAR_KEYBUF (R135). -/
def execKeyopClearKeybuf (path : Path) (s : State) : Host.Outcome State Fault Refusal := (s.keyopWrite path 7 0).done

/-- KEYOP_COMPLETE (R122). -/
def execKeyopComplete (s : State) : Host.Outcome State Fault Refusal := s.keyopEnd.done

/-! ### Attestation and flash -/

/-- ATTEST_GO (R130). -/
def execAttestGo (path : Path) (s : State) : Host.Outcome State Fault Refusal := (s.pathWrite path R.SEC_ATTCMD.base 1).done

/-- ATTEST_DONE (R131). -/
def execAttestDone (s : State) : Host.Outcome State Fault Refusal := s.attestDone.done

/-- SEC_NVMCTL with a command and an address (R134). -/
def State.nvmWrite (s : State) (path cmd : Nat) (addr : BitVec 26) : State :=
  s.pathWrite path R.SEC_NVMCTL.base (BitVec.ofNat 32 (cmd * 2 ^ 30 + addr.toNat))

/-- NVM_ERASE (R134). -/
def execNvmErase (path : Path) (addr : BitVec 26) (s : State) : Host.Outcome State Fault Refusal := (s.nvmWrite path 1 addr).done

/-- NVM_PROGRAM (R134). -/
def execNvmProgram (path : Path) (addr : BitVec 26) (s : State) : Host.Outcome State Fault Refusal := (s.nvmWrite path 2 addr).done

/-- NVM_READ (R134). -/
def execNvmRead (path : Path) (addr : BitVec 26) (s : State) : Host.Outcome State Fault Refusal := (s.nvmWrite path 3 addr).done

/-- NVM_OPERATION_DONE (R134). -/
def execNvmOperationDone (ok : Bool) (s : State) : Host.Outcome State Fault Refusal := (s.nvmEnd ok).done

/-! ### RESIGNED -/

/-- SEC_RELEASE_GO (R126). -/
def execSecReleaseGo (path : Path) (val : Word) (s : State) : Host.Outcome State Fault Refusal :=
  (s.pathWrite path R.SEC_RELEASE.base val).done

/-- RESIGN_HOLD_TIMEOUT (R126): a hold with SEC_RESIGNTO.SEC = 0 has no end. -/
def execResignHoldTimeout (s : State) : Host.Outcome State Fault Refusal :=
  (if s.get F.SEC_STATE_HSTATE = 3 ∧ s.get F.SEC_RESIGN_NOTO = 0 then s.hardReset 7 else s).done

end Sys2Proof.Machine
end

