-- ==== Sys2Proof/Machine/CeCmds.lean ====
section
/-! DEFINITION. Commands of the control engine that come at any time: CE_CLR and the trace channels (R193, R212 to R216). -/

namespace Sys2Proof.Machine

/-- CE_CLR_SATLAST (R216). -/
def execCeClrSatlast (path : Path) (s : State) : Host.Outcome State Fault Refusal := (s.pathWrite path R.CE_CLR.base 2).done

/-- CE_CLR_MAXFIN (R216). -/
def execCeClrMaxfin (path : Path) (s : State) : Host.Outcome State Fault Refusal := (s.pathWrite path R.CE_CLR.base 1).done

/-- TRACE_ARM (R214). -/
def execTraceArm (path : Path) (mask : BitVec 16) (s : State) : Host.Outcome State Fault Refusal :=
  (s.pathWrite path R.CE_TRCTRL.base (BitVec.ofNat 32 mask.toNat)).done

/-- TRACE_STOP (R214). -/
def execTraceStop (path : Path) (mask : BitVec 16) (s : State) : Host.Outcome State Fault Refusal :=
  (s.pathWrite path R.CE_TRCTRL.base (BitVec.ofNat 32 (mask.toNat * 2 ^ 16))).done

/-- TRACE_SW_TRIGGER (R214): the write of CE_TRTRIG that carries SW. -/
def execTraceSwTrigger (path : Path) (val : Word) (s : State) : Host.Outcome State Fault Refusal :=
  (s.pathWrite path R.CE_TRTRIG.base val).done

/-- TRACE_HALF_SPILL (R214, R408). -/
def execTraceHalfSpill (chan : Fin 16) (accepted : Bool) (s : State) : Host.Outcome State Fault Refusal :=
  (s.halfSpill chan.val accepted).done

end Sys2Proof.Machine
end

