-- ==== Sys2Proof/Machine/CellCmds.lean ====
section
/-! DEFINITION. Commands of the cells: CELL_CTRL and CELL_GCTRL, which wait for the next boundary, and the timers of precharge and
staging (R180 to R188). -/

namespace Sys2Proof.Machine

/-- CELL_CTRL of a cell with a command code (R187). -/
def State.cellCtrl (s : State) (path c cmd : Nat) : State := s.pathWrite path (F.CELL_CTRL_CMD.addr c) (BitVec.ofNat 32 cmd)

/-- CELL_START (R115, R187). -/
def execCellStart (path : Path) (cell : CellId) (s : State) : Host.Outcome State Fault Refusal :=
  (s.cellCtrl path cell.val 1).done

/-- CELL_STOP (R187). -/
def execCellStop (path : Path) (cell : CellId) (s : State) : Host.Outcome State Fault Refusal :=
  (s.cellCtrl path cell.val 2).done

/-- CELL_BYPASS (R187). -/
def execCellBypass (path : Path) (cell : CellId) (s : State) : Host.Outcome State Fault Refusal :=
  (s.cellCtrl path cell.val 3).done

/-- CELL_RELEASE (R185, R187). -/
def execCellRelease (path : Path) (cell : CellId) (s : State) : Host.Outcome State Fault Refusal :=
  (s.cellCtrl path cell.val 4).done

/-- GROUP_START (R22, R187). -/
def execGroupStart (path : Path) (s : State) : Host.Outcome State Fault Refusal :=
  (s.pathWrite path R.CELL_GCTRL.base 1).done

/-- GROUP_STOP (R187, R234). -/
def execGroupStop (path : Path) (s : State) : Host.Outcome State Fault Refusal :=
  (s.pathWrite path R.CELL_GCTRL.base 2).done

/-- PRECHTO expires: a cell still in PRECHARGE fails (R185). -/
def State.prechargeFail (s : State) (c : Nat) : State :=
  if s.cState c = csPrecharge then (s.leaveTo c csFailed).pulse Ev.CELL_PRECHG c else s

/-- PRECHARGE_TIMEOUT (R185, R186). -/
def execPrechargeTimeout (cell : CellId) (s : State) : Host.Outcome State Fault Refusal := (s.prechargeFail cell.val).done

/-- STAGING_RESEND_TIMEOUT (R182). -/
def execStagingResendTimeout (cell : CellId) (s : State) : Host.Outcome State Fault Refusal := (s.stageTimeout cell.val).done

end Sys2Proof.Machine
end

