-- ==== Sys2Proof/Machine/ClkCmds.lean ====
section
/-! DEFINITION. Commands of the clocks and of temperature (R417 to R429). -/

namespace Sys2Proof.Machine

/-- CLOCK_ALARM (R418, R419). -/
def execClockAlarm (clk : ClockId) (dev : BitVec 16) (s : State) : Host.Outcome State Fault Refusal :=
  (s.clockAlarm clk.val dev.toNat).done

/-- PLL_RECOVERY_DONE (R419). -/
def execPllRecoveryDone (clk : ClockId) (s : State) : Host.Outcome State Fault Refusal := (s.recoverDone clk.val).done

/-- CLKOUT_CONFIG_APPLY (R420). -/
def execClkoutConfigApply (out : Fin 2) (s : State) : Host.Outcome State Fault Refusal := (s.outApply out.val).done

/-- DIE_SENSOR_READ (R422 to R429). -/
def execDieSensorRead (readings : List TempWord) (s : State) : Host.Outcome State Fault Refusal :=
  (s.dieIn readings).done

/-- EXT_DIODE_READ (R422 to R426). -/
def execExtDiodeRead (readings : List TempWord) (s : State) : Host.Outcome State Fault Refusal :=
  (s.extIn readings).done

end Sys2Proof.Machine
end

