-- ==== Sys2Proof/Machine/EventCmds.lean ====
section
/-! DEFINITION. Commands of the event fabric: counts and log entries on their way to MRAM, the squall summary, the derate hold,
and the clearing of counts (R45 to R57). -/

namespace Sys2Proof.Machine

/-- The changed counts reach MRAM (R47, R53). -/
def State.countWriteback (s : State) : State :=
  let t := s.evt.changed.foldl (fun (u : State) e => u.mramPut (0x1000 + 4 * e) (leBytes 4 (s.evt.get F.EVT_CNT_CNT e))) s
  { t with evt := { t.evt with changed := [] } }

/-- COUNT_WRITEBACK (R47). -/
def execCountWriteback (s : State) : Host.Outcome State Fault Refusal := s.countWriteback.done

/-- The 32 bytes of a log entry (R54). -/
def LogEntry.bytes (x : LogEntry) : List Byte :=
  let w3 := x.ev % 1024 * 2 ^ 22 + x.react % 8 * 2 ^ 19 + x.typ % 4 * 2 ^ 17 + x.tvalid.toNat * 2 ^ 16 + x.suppressed % 2 ^ 16
  let body := leBytes 8 x.time ++ leBytes 4 x.period ++ leBytes 4 w3 ++ leBytes 4 x.seq ++ leBytes 4 x.ctx0.toNat ++
    leBytes 4 x.ctx1.toNat
  body ++ leBytes 4 (crc32c body)

/-- Entries of the log ring and its start in MRAM (R53). -/
def logRing : Nat := 126976
def logBase : Nat := 0x20000

/-- The oldest queued entry goes into the ring (R55). -/
def State.logWrite (s : State) : State :=
  match s.evt.queue with
  | [] => s
  | x :: q =>
    let wp := s.evt.get F.EVT_LOGWP_IDX
    let next := (wp + 1) % logRing
    let t := s.mramPut (logBase + 32 * wp) x.bytes
    { t with
      evt := ({ t.evt with queue := q } : Evt).put F.EVT_LOGWP_IDX next
      nv := { t.nv with logWp := next, logSeq := (x.seq + 1) % 2 ^ 32 } }

/-- LOG_ENTRY_WRITE (R55). -/
def execLogEntryWrite (s : State) : Host.Outcome State Fault Refusal := s.logWrite.done

/-- The summary of one source (R52): with a token left, its suppressed occurrences become one entry that carries the context of the
last of them. -/
def Evt.summaryOne (e : Evt) (st : Stamp) (ev : Nat) : Evt :=
  let b := e.refill ev st.ct
  if b.suppressed = 0 then e
  else if b.tokens = 0 then e.setBucket ev b
  else
    let (e1, drop) := (e.setBucket ev { b with tokens := b.tokens - 1, suppressed := 0 }).pushLog st ev
      (e.get F.EVT_CFG_REACT ev) 1 b.suppressed b.ctx0 b.ctx1
    if drop then e1.logDrop st else e1

/-- The summaries of one millisecond, in ascending order of source. -/
def State.squallTick (s : State) : State :=
  { s with evt := (s.evt.buckets.map (·.1)).foldl (fun e ev => e.summaryOne s.stamp ev) s.evt }

/-- SQUALL_SUMMARY_TICK (R52). -/
def execSquallSummaryTick (s : State) : Host.Outcome State Fault Refusal := s.squallTick.done

/-- The holds that started first are over (R48); the others run on, and a source that is active goes on derating. -/
def State.holdExpiry (s : State) : State :=
  match s.evt.derateHold with
  | [] => s
  | x :: l => { s with evt := { s.evt with derateHold := l.filter fun y => y.2 != x.2 } }

/-- DERATE_HOLD_EXPIRY (R48). -/
def execDerateHoldExpiry (s : State) : Host.Outcome State Fault Refusal := s.holdExpiry.done

/-- EVT_CNTCLR_ALL (R57). -/
def execEvtCntclrAll (path : Path) (s : State) : Host.Outcome State Fault Refusal :=
  (s.pathWrite path R.EVT_CNTCLR.base (BitVec.ofNat 32 (2 ^ 31))).done

/-- EVT_CNTCLR_SRC (R57). -/
def execEvtCntclrSrc (path : Path) (src : BitVec 10) (s : State) : Host.Outcome State Fault Refusal :=
  (s.pathWrite path R.EVT_CNTCLR.base (BitVec.ofNat 32 src.toNat)).done

end Sys2Proof.Machine
end

