-- ==== Sys2Proof/Machine/LaneCmds.lean ====
section
/-! DEFINITION. Commands of the Damond lanes: enable and restart, the timers of the lane states, block lock, what returns on a lane,
and the eye scan (R136 to R164). -/

namespace Sys2Proof.Machine

/-- The receiver of a lane runs: the head is in RUN or RESIGNED and the lane is neither OFF nor in WAIT (R151). -/
def State.laneHears (s : State) (l : Nat) : Bool :=
  (s.get F.SEC_STATE_HSTATE == 2 || s.get F.SEC_STATE_HSTATE == 3) && s.lnState l != lnOff && s.lnState l != lnWait

/-! ### Control -/

/-- DML_EN_WRITE (R151, R164). -/
def execDmlEnWrite (path : Path) (lane : LaneId) (en : Bool) (s : State) : Host.Outcome State Fault Refusal :=
  (s.pathWrite path (F.DML_CTRL_EN.addr lane.val) (BitVec.ofNat 32 en.toNat)).done

/-- DML_RESTART (R155, R164). -/
def execDmlRestart (path : Path) (lane : LaneId) (en : Bool) (s : State) : Host.Outcome State Fault Refusal :=
  (s.pathWrite path (F.DML_CTRL_EN.addr lane.val) (BitVec.ofNat 32 (2 + en.toNat))).done

/-! ### Timers of the lane states -/

/-- LANE_WAIT_EXPIRY (R151). -/
def execLaneWaitExpiry (lane : LaneId) (s : State) : Host.Outcome State Fault Refusal :=
  (if s.lnState lane.val = lnWait then s.enterLink lane.val else s).done

/-- LANE_LINKTO_EXPIRY (R151): the count stops once R152 is met. -/
def execLaneLinktoExpiry (lane : LaneId) (s : State) : Host.Outcome State Fault Refusal :=
  (if s.lnState lane.val = lnLink ∧ (s.lane lane.val).idleOk = false then s.enterLost lane.val 4 else s).done

/-- LANE_RETRY_WAIT_EXPIRY (R151, R155). -/
def execLaneRetryWaitExpiry (lane : LaneId) (s : State) : Host.Outcome State Fault Refusal := (s.laneRetry lane.val).done

/-- RETRY_CLEAR_EXPIRY (R155): 60 s in SERVICE. -/
def execRetryClearExpiry (lane : LaneId) (s : State) : Host.Outcome State Fault Refusal :=
  (if s.lnState lane.val = lnService then s.put F.DML_STAT_RETRIES 0 lane.val else s).done

/-! ### What the receiver sees -/

/-- BLOCK_LOCK_ACQUIRED (R156). -/
def execBlockLockAcquired (lane : LaneId) (errors : Nat) (s : State) : Host.Outcome State Fault Refusal :=
  (if s.laneHears lane.val then (s.codeErrors lane.val errors).lockGot lane.val else s).done

/-- BLOCK_LOCK_LOST (R154, R156). -/
def execBlockLockLost (lane : LaneId) (errors : Nat) (s : State) : Host.Outcome State Fault Refusal :=
  (if s.laneHears lane.val ∧ s.flag F.DML_STAT_BLOCKLOCK lane.val then (s.codeErrors lane.val errors).lockGone lane.val
   else s).done

/-- OWN_IDLE_RETURN (R152). -/
def execOwnIdleReturn (lane : LaneId) (origin : BitVec 2) (num : BitVec 5) (gen : Bool) (s : State) :
    Host.Outcome State Fault Refusal :=
  (s.idleBack lane.val origin.toNat num.toNat gen).done

/-- FLAKE blocks received with a frame: those of the runs before it, and those inside it. -/
def flakesOf (f : GatherRx) : Nat := f.runs.sum + f.inFrame

/-- Code errors received with a frame (R144): a run of more than 8 FLAKE blocks is one, every FLAKE inside the frame is one. -/
def codeErrsOf (f : GatherRx) : Nat := f.codeErrs + f.inFrame + (f.runs.filter fun n => decide (8 < n)).length

/-- Every record with a word that fails parity is discarded, which raises EV_XING_PAR; without its words it is no valid record
(R35). -/
def State.parityRecs (s : State) (f : GatherRx) : State :=
  (f.recs.filter (·.parity)).foldl (fun (t : State) _ => t.xingBad) s

/-- The frame without the words that parity has discarded. -/
def keptFrame (f : GatherRx) : GatherRx :=
  { f with recs := f.recs.map fun r => if r.parity then { r with words := [] } else r }

/-- A gather frame comes back on a lane (R146, R156): its FLAKE blocks and code errors count, and it waits for T_OPEN. -/
def State.gatherIn (s : State) (l : Nat) (f : GatherRx) : State :=
  if s.laneHears l then
    let t := s.put F.DML_FLAKES_COUNT ((s.get F.DML_FLAKES_COUNT l + flakesOf f) % 2 ^ 32) l
    let t := (t.codeErrors l (codeErrsOf f)).parityRecs f
    t.setLane l { t.lane l with rx := some (keptFrame f) }
  else s

/-- GATHER_FRAME_RECEIVE (R141, R144, R146). -/
def execGatherFrameReceive (lane : LaneId) (frame : GatherRx) (s : State) : Host.Outcome State Fault Refusal :=
  (s.gatherIn lane.val frame).done

/-! ### The eye scan -/

/-- DML_HALOCTRL of a lane. -/
def State.haloWrite (s : State) (path l top : Nat) (dwell : BitVec 6) : State :=
  s.pathWrite path (F.DML_HALOCTRL_GO.addr l) (BitVec.ofNat 32 (top * 2 ^ 30 + dwell.toNat))

/-- HALO_GO (R162). -/
def execHaloGo (path : Path) (lane : LaneId) (dwell : BitVec 6) (s : State) : Host.Outcome State Fault Refusal :=
  (s.haloWrite path lane.val 2 dwell).done

/-- HALO_STOP (R162). -/
def execHaloStop (path : Path) (lane : LaneId) (dwell : BitVec 6) (s : State) : Host.Outcome State Fault Refusal :=
  (s.haloWrite path lane.val 1 dwell).done

/-- HALO_COMPLETE (R160, R161). -/
def execHaloComplete (lane : LaneId) (errors : List Nat) (s : State) : Host.Outcome State Fault Refusal :=
  (s.haloDone lane.val errors).done

end Sys2Proof.Machine
end

