-- ==== Sys2Proof/Machine/LvCmds.lean ====
section
/-! DEFINITION. Commands of the LV stage and the gate drive protection: host compares, forces, the PWM counters and dead times, trip
lines, FAULTn and READYn, and the clearing of latches (R253 to R282). -/

namespace Sys2Proof.Machine

/-! ### Compares and forces -/

/-- The buffered write of an address is passed over by a reload in this control tick, which uses what the shadow held before it: the writes
that it replaced, and those of the apply stage as they were in `was` (R66). -/
def State.notNow (s : State) (was : List BufWrite) (a : Nat) : State :=
  { s with bus := { s.bus with
    buf := s.bus.buf.map fun x =>
      if x.addr ≠ a then x else if x.old then { x with old := false } else { x with notAt := some s.ct }
    stage := was } }

/-- A host write of LVS_CMPn; one that has entered the buffer and whose commit falls in the CT of the reload waits for the next, and is
reported late (R66, R257). A staged one commits at its k_act. -/
def State.hostCmp (s : State) (path n : Nat) (v : Word) (late : Bool) : State :=
  if s.pathOn path then
    let (t, c) := s.busWrite path (F.LVS_CMP_CMP.addr n) v
    if c = .ok ∧ late = true ∧ ¬s.ownsOpen path then
      ((t.notNow s.bus.stage (F.LVS_CMP_CMP.addr n)).put F.LVS_PWM_STAT_LATE 1 n).pulse Ev.LV_LATE n
    else t
  else s

/-- LVS_CMP_HOST_WRITE (R66, R257, R258). -/
def execLvsCmpHostWrite (path : Path) (chan : ChanId) (val : Word) (atReload : Bool) (s : State) :
    Host.Outcome State Fault Refusal :=
  (s.hostCmp path chan.val val atReload).done

/-- LVS_FORCE_GO (R263). -/
def execLvsForceGo (path : Path) (s : State) : Host.Outcome State Fault Refusal := (s.pathWrite path R.LVS_FORCEGO.base 1).done

/-- LVS_FORCE_RELEASE (R263). -/
def execLvsForceRelease (path : Path) (s : State) : Host.Outcome State Fault Refusal :=
  (s.pathWrite path R.LVS_FORCEGO.base 2).done

/-! ### Counters and delays -/

/-- PWM_PERIOD_WRAP (R254, R264). -/
def execPwmPeriodWrap (chan : ChanId) (s : State) : Host.Outcome State Fault Refusal := (s.pwmWrap chan.val).done

/-- PWM_COMPARE_MATCH (R254). -/
def execPwmCompareMatch (chan : ChanId) (s : State) : Host.Outcome State Fault Refusal := (s.compareMatch chan.val).done

/-- DEAD_TIME_EXPIRY (R260). -/
def execDeadTimeExpiry (pair : PairId) (high : Bool) (s : State) : Host.Outcome State Fault Refusal :=
  (s.deadEnd pair.val high).done

/-- CHOP_TONMIN_EXPIRY (R267). -/
def execChopTonminExpiry (chop : Fin 2) (s : State) : Host.Outcome State Fault Refusal := (s.chopHoldEnd chop.val).done

/-! ### Trip lines -/

/-- The level of a trip line's source (R265). -/
def State.tripLevel (s : State) (t : Nat) : Bool :=
  let src := s.get F.LVS_TRIPCFG_SRC t
  if src = 0 then false
  else if src ≤ 0x10 then (s.get F.GDI_FLT_READYLOW).testBit (src - 1)
  else if src ≤ 0x20 then s.flag F.CMP_STAT_OUTU (src - 0x11)
  else if src ≤ 0x30 then s.flag F.CMP_STAT_OUTL (src - 0x21)
  else src == 0x31 && (s.get F.LVS_TRIPSW_LINE).testBit t

/-- The filter of a line has passed a level (R266): an asserted source makes the line active, any other leaves it as it is. -/
def State.tripActive (s : State) (t : Nat) : State := if s.tripLevel t then s.tripLine t else s

/-- The filter of a line has passed a deasserted level. -/
def State.tripInactive (s : State) (t : Nat) : State :=
  if s.tripLevel t then s else s.putBit F.LVS_TRIPSTAT_ACTIVE t false

/-- TRIP_LINE_ACTIVE (R266). -/
def execTripLineActive (line : Fin 8) (s : State) : Host.Outcome State Fault Refusal := (s.tripActive line.val).done

/-- TRIP_LINE_INACTIVE (R266). -/
def execTripLineInactive (line : Fin 8) (s : State) : Host.Outcome State Fault Refusal :=
  (s.tripInactive line.val).done

/-- TRIP_LINE_CLEAR (R280). -/
def execTripLineClear (path : Path) (line : Fin 8) (s : State) : Host.Outcome State Fault Refusal :=
  (s.pathWrite path R.LVS_TRIPSTAT.base (BitVec.ofNat 32 (2 ^ (8 + line.val)))).done

/-- SHOOT_TRIP_CLEAR (R280). -/
def execShootTripClear (path : Path) (pair : PairId) (s : State) : Host.Outcome State Fault Refusal :=
  (s.pathWrite path (F.LVS_PWM_STAT_SHOOT_REJ.addr pair.val) 2).done

/-! ### FAULTn and READYn -/

/-- The filtered state of FAULTn has become active: it acts now, or at the end of blanking (R274, R276). -/
def State.faultOn (s : State) (n : Nat) : State :=
  let t : State := { s with gdi := { s.gdi with fltAct := setBit s.gdi.fltAct n true } }
  if (t.chan n).blank then t else t.faultAct n

/-- FAULT_ACTIVE (R274, R276). -/
def execFaultActive (pair : PairId) (s : State) : Host.Outcome State Fault Refusal := (s.faultOn pair.val).done

/-- FAULT_RELEASE (R273). -/
def execFaultRelease (pair : PairId) (s : State) : Host.Outcome State Fault Refusal :=
  ({ s with gdi := { s.gdi with fltAct := setBit s.gdi.fltAct pair.val false } } : State).done

/-- Blanking of a pair ends: a FAULTn that is active then acts in that CT (R274). -/
def State.blankEnd (s : State) (n : Nat) : State :=
  if (s.chan n).blank then
    let t := s.setChan n { s.chan n with blank := false }
    if t.gdi.fltAct.testBit n then t.faultAct n else t
  else s

/-- BLANKING_END (R274). -/
def execBlankingEnd (pair : PairId) (s : State) : Host.Outcome State Fault Refusal := (s.blankEnd pair.val).done

/-- HOLD_RELEASE (R276). -/
def execHoldRelease (s : State) : Host.Outcome State Fault Refusal := s.holdEnd.done

/-- FAULT_CLEAR (R280). -/
def execFaultClear (path : Path) (mask : BitVec 16) (s : State) : Host.Outcome State Fault Refusal :=
  (s.pathWrite path R.GDI_FLT.base (BitVec.ofNat 32 mask.toNat)).done

/-- The filtered READYn falls; a running pair reports it (R279). -/
def State.readyFall (s : State) (n : Nat) : State :=
  let t := s.putBit F.GDI_FLT_READYLOW n true
  if (t.chan n).running then t.pulse Ev.GD_READY n else t

/-- READY_FALL (R279). -/
def execReadyFall (pair : PairId) (s : State) : Host.Outcome State Fault Refusal := (s.readyFall pair.val).done

/-- READY_RISE (R279). -/
def execReadyRise (pair : PairId) (s : State) : Host.Outcome State Fault Refusal :=
  (s.putBit F.GDI_FLT_READYLOW pair.val false).done

end Sys2Proof.Machine
end

