-- ==== Sys2Proof/Machine/NetCmds.lean ====
section
/-! DEFINITION. Commands of the network ports, network time, the timed outputs and the IEC 61850 services (R366 to R386). -/

namespace Sys2Proof.Machine

/-! ### Ports -/

/-- NET_LINK_CHANGE (R366). -/
def execNetLinkChange (port : PortId) (link : LinkState) (s : State) : Host.Outcome State Fault Refusal :=
  (s.linkChange port.val link).done

/-- NET_FRAME_RECEIVE (R367). -/
def execNetFrameReceive (port : PortId) (frame : NetFrame) (s : State) : Host.Outcome State Fault Refusal :=
  (s.frameIn port.val frame).done

/-! ### Network time -/

/-- PTP_SYNC_SAMPLE (R369 to R377). -/
def execPtpSyncSample (domain : Fin 2) (sample : PtpSample) (s : State) : Host.Outcome State Fault Refusal :=
  (s.withFrame sample.port.val 0 fun t => t.ptpSample domain.val sample).done

/-- PTP_ANNOUNCE (R371, R374). -/
def execPtpAnnounce (domain : Fin 2) (ann : PtpAnnounce) (s : State) : Host.Outcome State Fault Refusal :=
  (s.withFrame ann.port.val 0 fun t => t.ptpAnnounce domain.val ann).done

/-- PTP_ANNOUNCE_TIMEOUT (R374). -/
def execPtpAnnounceTimeout (domain : Fin 2) (s : State) : Host.Outcome State Fault Refusal := (s.annTimeout domain.val).done

/-- PTP_PDELAY_REQ (R369, R371). -/
def execPtpPdelayReq (port : PortId) (req : PdelayReq) (s : State) : Host.Outcome State Fault Refusal :=
  (s.withFrame port.val 0 fun t => t.pdelayReq port.val req).done

/-- PTP_SELECT (R374). -/
def execPtpSelect (path : Path) (sel : BitVec 2) (s : State) : Host.Outcome State Fault Refusal :=
  (s.pathWrite path R.NET_PTPCTL.base (BitVec.ofNat 32 (sel.toNat * 2))).done

/-- PTP_ARMSTEP (R376). -/
def execPtpArmstep (path : Path) (s : State) : Host.Outcome State Fault Refusal := (s.pathWrite path R.NET_PTPCTL.base 1).done

/-- PERIOD_LOCK_SETTLED (R378). -/
def execPeriodLockSettled (s : State) : Host.Outcome State Fault Refusal := s.lockSettled.done

/-! ### Timed outputs -/

/-- TOUT_ARM (R380). -/
def execToutArm (path : Path) (out : Fin 8) (s : State) : Host.Outcome State Fault Refusal :=
  (s.pathWrite path (F.NET_TOUTCTL_ARM.addr out.val) 1).done

/-- TOUT_STOP (R381). -/
def execToutStop (path : Path) (out : Fin 8) (s : State) : Host.Outcome State Fault Refusal :=
  (s.pathWrite path (F.NET_TOUTCTL_ARM.addr out.val) 2).done

/-- TOUT_TARGET_REACHED (R380). -/
def execToutTargetReached (out : Fin 8) (s : State) : Host.Outcome State Fault Refusal := (s.toutReached out.val).done

/-- TOUT_PULSE_END (R380, R381). -/
def execToutPulseEnd (out : Fin 8) (s : State) : Host.Outcome State Fault Refusal := (s.pulseEnd out.val).done

/-! ### GOOSE and Sampled Values

The message of an accepted frame acts once (R367). -/

/-- GOOSE_RECEIVE (R382, R383). -/
def execGooseReceive (msg : GooseMsg) (s : State) : Host.Outcome State Fault Refusal :=
  (s.withFrame msg.port.val 1 fun t => if msg.parity then t.xingBad else t.gooseIn msg).done

/-- GOOSE_TAL_EXPIRY (R383). -/
def execGooseTalExpiry (sub : Fin 64) (s : State) : Host.Outcome State Fault Refusal := (s.gooseTimeout sub.val).done

/-- SV_RECEIVE (R382, R384). -/
def execSvReceive (msg : SvMsg) (s : State) : Host.Outcome State Fault Refusal :=
  (s.withFrame msg.port.val 2 fun t => if msg.parity then t.xingBad else t.svIn msg).done

/-- GOOSE_RETRANSMIT (R386). -/
def execGooseRetransmit (pub : Fin 8) (s : State) : Host.Outcome State Fault Refusal := (s.republish pub.val).done

end Sys2Proof.Machine
end

