-- ==== Sys2Proof/Machine/XlCmds.lean ====
section
/-! DEFINITION. Commands of the crosslink (R163, R324 to R329, R334, R338) and the command frames a standby terminates (R326). -/

namespace Sys2Proof.Machine

/-- A frame can be received on crosslink lane `x`: its receiver runs, and so does the crosslink's PLL (R35, R418). -/
def State.xlHears (s : State) (x : Nat) : Bool :=
  s.duplex && s.lnState (24 + x) != lnOff && s.lnState (24 + x) != lnWait && !s.clkBad 0x4000

/-- A crosslink frame arrives: a word that fails parity takes it away (R35), and so does a bad CRC (R325). -/
def State.xlRecv (s : State) (x : XlSeg) (f : State → State) : State :=
  if !s.xlHears x.lane.val then s
  else if x.head.parity then s.xingBad
  else if x.head.crcOk then f s else s

/-! ### ALIGN, INPUT, STATE and COPY segments -/

/-- An ALIGN frame on one crosslink lane: it counts for the lane's own states (R163), and the first copy of a period is stamped. One of
another period is discarded (R325), but for a standby in ALIGN, which takes the period from it. -/
def State.xlAlignOn (s : State) (x : Nat) (h : XlHead) (m16 : Int) (role : Nat) : State :=
  let l := 24 + x
  if s.role ≠ roleAlign ∧ s.ownPeriod h = false then s
  else
    let x := s.lane l
    let t := s.setLane l { x with xlGot := true, passed := if s.lnState l = lnAlign then x.passed + 1 else x.passed }
    (t.xlAlign h m16 (role == roleReady)).peerShows role

/-- XL_ALIGN_FRAME (R163, R324). -/
def execXlAlignFrame (lane : Fin 2) (head : XlHead) (m16 : Int) (role : BitVec 4) (s : State) :
    Host.Outcome State Fault Refusal :=
  (s.xlRecv ⟨lane, head⟩ fun t => t.xlAlignOn lane.val head m16 role.toNat).done

/-- XL_INPUT_FRAME (R326). -/
def execXlInputFrame (frame : XlInput) (s : State) : Host.Outcome State Fault Refusal :=
  (s.xlRecv frame.seg fun t => t.xlInput frame).done

/-- XL_STATE_FRAME (R326, R328). -/
def execXlStateFrame (frame : XlState) (s : State) : Host.Outcome State Fault Refusal :=
  (s.xlRecv frame.seg fun t => t.xlState frame).done

/-- XL_COPY_FRAME (R328). -/
def execXlCopyFrame (seg : XlSeg) (entries : List (Nat × Int)) (last : Bool) (s : State) :
    Host.Outcome State Fault Refusal :=
  (s.xlRecv seg fun t => t.xlCopy seg.head entries last).done

/-! ### The REG segment (R82, R325, R329) -/

/-- A forwarded write on a standby: what applies later waits for its apply point, a force register or a whiteout reset acts at once. -/
def State.regWrite (s : State) (e : RegEntry) : State :=
  match s.rowAt e.addr with
  | some (r, i, _) =>
    let late := r.maskOf fun f => f.takes && f.apply != .immediate
    let t := if late = 0 then s else s.offerBuf ⟨e.path, e.addr, e.val, late, false, none, false⟩
    if [R.LVS_FORCE0.base, R.LVS_FORCE1.base, R.LVS_FORCE2.base, R.LVS_FORCEGO.base, R.SAF_CTRL.base].contains r.base then
      (t.immediate e.path e.addr e.val r i).1
    else t
  | none => s

/-- A forwarded staged write: the first one opens the transaction on a standby, in place of one of its own paths. -/
def State.regStaged (s : State) (e : RegEntry) : State :=
  let t := if s.txState = txOpen ∧ s.bus.txn.peer then s
    else (((s.put F.SYS_TXNSTAT_STATE txOpen).put F.SYS_TXNSTAT_OWNER e.path).put F.SYS_TXNSTAT_COUNT 0).setTxn { peer := true }
  let u := t.setTxn { t.bus.txn with staged := t.bus.txn.staged ++ [(e.addr, e.val)] }
  u.put F.SYS_TXNSTAT_COUNT (u.get F.SYS_TXNSTAT_COUNT + 1)

/-- A forwarded COMMIT: a standby notes the affected cells and stages nothing itself; the sets that their nodes hold show in the command
frames. -/
def State.regCommit (s : State) (e : RegEntry) : State :=
  if s.txState = txOpen ∧ s.bus.txn.peer then
    let cs := s.cellList.filter fun c => affectable (s.cState c) && !(s.stagedPrm c).isEmpty
    let t := s.setTxn { s.bus.txn with affected := cs, acked := [], nak := none, updateRef := e.val.getLsbD 8 }
    (t.put F.SYS_TXNCELL_ACKS 0).put F.SYS_TXNSTAT_STATE txPrepare
  else s

/-- A period from its low 32 bits: the one nearest to the present period. -/
def State.nearPeriod (s : State) (w : Word) : Nat := ((s.period : Int) + (w - BitVec.ofNat 32 s.period).toInt).toNat

/-- A forwarded activation names k_act. -/
def State.regActivation (s : State) (e : RegEntry) : State :=
  if s.txState = txPrepare ∧ s.bus.txn.peer then
    let t := (s.put F.SYS_TXNSTAT_STATE Sys2Proof.Machine.txActivate).put F.SYS_TXNACT_KACT e.val.toNat
    t.setTxn { t.bus.txn with kact := some (s.nearPeriod e.val) }
  else s

/-- A forwarded ROLLBACK. -/
def State.regRollback (s : State) : State :=
  if s.txBusy ∧ s.bus.txn.peer ∧ ¬s.bus.txn.passed then (s.setTxn { s.bus.txn with affected := [] }).txAbort 1 else s

/-- One entry of a REG segment. -/
def State.regEntry (s : State) (e : RegEntry) : State :=
  match e.kind with
  | .write => s.regWrite e
  | .staged => s.regStaged e
  | .commit => s.regCommit e
  | .activation => s.regActivation e
  | .rollback => s.regRollback

/-- A REG segment of the own period reaches a standby: at most 64 entries (R325). -/
def State.xlReg (s : State) (h : XlHead) (entries : List RegEntry) : State :=
  if s.isStandby ∧ s.ownPeriod h ∧ entries.length ≤ 64 then s.firstCopy 4 fun t => entries.foldl State.regEntry t else s

/-- XL_REG_FRAME (R82, R329). -/
def execXlRegFrame (seg : XlSeg) (entries : List RegEntry) (s : State) : Host.Outcome State Fault Refusal :=
  (s.xlRecv seg fun t => t.xlReg seg.head entries).done

/-! ### CTRL frames and the loss of both lanes -/

/-- XL_CTRL_RESIGN (R325, R334, R343). -/
def execXlCtrlResign (seg : XlSeg) (s : State) : Host.Outcome State Fault Refusal :=
  (s.xlRecv seg fun t => if t.ownPeriod seg.head then t.firstCopy 5 State.peerResigned else t).done

/-- CTRL SWAP names the boundary h of a planned swap (R338). -/
def State.ctrlSwap (s : State) (h : Nat) : State :=
  if s.role = roleReady then { s with red := { s.red with swapAt := some h } } else s

/-- XL_CTRL_SWAP (R325, R338). -/
def execXlCtrlSwap (seg : XlSeg) (boundary : Nat) (s : State) : Host.Outcome State Fault Refusal :=
  (s.xlRecv seg fun t => if t.ownPeriod seg.head then t.firstCopy 6 fun u => u.ctrlSwap boundary else t).done

/-- XL_BOTH_LOST (R328). -/
def execXlBothLost (s : State) : Host.Outcome State Fault Refusal := s.xlBothLost.done

/-! ### Command frames at a standby (R326) -/

/-- What the staging word of a command record shows of the sets that a node holds (R180 to R182): the HDR of a transaction set or of one that
replaces it, or a DISCARD. The tags count on from it, and a takeover discards or activates that set (R82). -/
def State.noteStage (s : State) (c styp : Nat) (w : Word) : State :=
  let x := s.cell c
  let rest := x.sets.filter fun t => t.kind != .txn
  if styp = 1 then
    let tag := bitsOf w.toNat 7 0
    s.setCell c { x with lastTag := tag, sets := if w.getLsbD 31 then rest else ⟨.txn, tag, [], 0, 0⟩ :: rest }
  else if styp = 5 then s.setCell c { x with sets := rest }
  else s

/-- What a standby keeps of a good command record: the leg fields give prev and, under nearest level with PWM, the PWM cell; an
activation word shows that a cell transaction is past its point of no return (R80, R82). -/
def State.noteCommand (s : State) (c : Nat) (ws : List Word) : State :=
  let half := fun i hi lo => bitsOf (ws.getD i 0).toNat hi lo
  let a := half 0 31 16
  let b := half 1 31 16
  let g := s.cGroup c
  let p := s.img.per.p
  let part := s.scheme g != 0 && ((0 < a && a < p) || (0 < b && b < p))
  let s1 := s.setCell c { s.cell c with eng := { (s.cell c).eng with
    prev := 0 < a || 0 < b, offA := half 0 15 0, cmpA := a, offB := half 1 15 0, cmpB := b } }
  let s2 := if part then (s1.put F.MVS_GSTAT_PWMV 1 g).put F.MVS_GSTAT_PWMCELL c g
    else if s1.get F.MVS_GSTAT_PWMCELL g = c then (s1.put F.MVS_GSTAT_PWMV 0 g).put F.MVS_GSTAT_PWMCELL 0 g else s1
  let s3 := s2.noteStage c (half 6 31 28) (ws.getD 5 0)
  if half 6 31 28 = 4 then s3.setTxn { s3.bus.txn with passed := s3.bus.txn.kact.isSome } else s3

/-- One command record that a standby terminates: slot s of a command frame belongs to position n − 1 − s (R165). One with a word that
fails parity is discarded (R35). -/
def State.commandRec (s : State) (l c : Nat) (recs : List GatherRec) : State :=
  match recs[s.laneLen l - 1 - s.wirePos c]? with
  | some r =>
    if r.parity then s.xingBad
    else if !r.codeErr && r.words.length == 8 && recordOk r.words l (s.wirePos c) then s.noteCommand c r.words
    else s.errInc F.RED_XERR_COUNT 1472
  | none => s

/-- A command frame of the active ends at a standby in step. -/
def State.commandIn (s : State) (l : Nat) (recs : List GatherRec) : State :=
  if s.inStep ∧ s.lnState l = lnService then
    (s.laneCells l).foldl (fun (t : State) c => t.commandRec l c recs)
      { s with red := { s.red with lastCmd := s.period } }
  else s

/-- COMMAND_FRAME_TERMINATE (R326). -/
def execCommandFrameTerminate (lane : LaneId) (recs : List GatherRec) (s : State) : Host.Outcome State Fault Refusal :=
  (s.commandIn lane.val recs).done

end Sys2Proof.Machine
end

