-- ==== Sys2Proof/Machine/RedCmds.lean ====
section
/-! DEFINITION. Commands of the redundancy logic (R319 to R342): election, resign, takeover and swap, the mode, and the slices. -/

namespace Sys2Proof.Machine

/-! ### Election and the pad (R321, R323) -/

/-- RESIGN_I_CHANGE (R321, R323, R334). -/
def execResignIChange (level : Bool) (s : State) : Host.Outcome State Fault Refusal := (s.resignInput level).done

/-- ELECT_TIMEOUT (R323). -/
def execElectTimeout (s : State) : Host.Outcome State Fault Refusal := s.electDone.done

/-- CONFLICT of R323: head B is active and RESIGN_I is low. -/
def State.conflictMet (s : State) : Bool :=
  s.duplex && s.role == roleActive && s.flag F.RED_STAT_HEADID && !s.flag F.RED_STAT_RESIGNI

/-- CONFLICT_TIMEOUT (R323): it has lasted 1 ms. -/
def execConflictTimeout (s : State) : Host.Outcome State Fault Refusal :=
  (if s.conflictMet then s.doResign 0x88 0 else s).done

/-- The pad has not been strobed for two periods (R321). -/
def State.padDrop (s : State) : State := { s with red := { s.red with pad := false } }

/-- PAD_STROBE_TIMEOUT (R321). -/
def execPadStrobeTimeout (s : State) : Host.Outcome State Fault Refusal := s.padDrop.done

/-! ### Resign (R332, R333) -/

/-- Cause code and source of a resign condition (R332). -/
def resignCode : ResignCond → Nat × Nat
  | .cfgCrc => (0x81, 0)
  | .ecc => (0x82, 0)
  | .clock => (0x83, 0)
  | .deadline => (0x84, 0)
  | .thermal => (0x85, 0)
  | .majority => (0x86, 0)
  | .event src => (0x87, src.val)
  | .conflict => (0x88, 0)

/-- RESIGN (R124, R332, R333): the conflict condition exists only where R323 has it. -/
def execResign (cond : ResignCond) (s : State) : Host.Outcome State Fault Refusal :=
  (if cond = .conflict ∧ ¬s.conflictMet then s else s.doResign (resignCode cond).1 (resignCode cond).2).done

/-! ### Takeover (R334 to R336) -/

/-- Gather frames leave on a lane at a boundary. -/
def State.launchGather (s : State) (l : Nat) : State :=
  s.setLane l { s.lane l with launched := true, rx := none }

/-- A lane on which the head launches gather frames: in ALIGN or SERVICE, on a head that drives its lanes (R151, R322). -/
def State.gathers (s : State) (l : Nat) : Bool :=
  s.drivesLanes && s.sec.holdFrames.isNone && (s.lnState l == lnAlign || s.lnState l == lnService)

/-- Every channel is driven low and restarts with its delay stage cleared at its next reload (R278, R334, R338). -/
def State.restartLv (s : State) : State := (s.dropScope (2 ^ 18 - 1)).refreshAll

/-- The takeover at boundary b (R334): it follows the boundary after the arrival of RESIGN, and the role at arrival decided on it (R343). -/
def State.takeOver (s : State) : State :=
  if s.isStandby ∧ s.red.takeDue ∧ s.red.bSeen then
    let gap := s.bnd + s.img.per.p - s.red.arrival
    let s1 := (s.txSwitch.startDriving.put F.RED_TOVER_PERIOD s.period).put F.RED_GAP_GAP (min gap 0x1FFFF)
    let s2 := (s1.put F.RED_GAP_HOLDS (min 2 (s.period - s.red.lastCmd - 1))).errInc F.RED_CNT_TAKEOVERS 1473
    let s3 := if s.red.safe0 then s2.setWhiteout Config.takeoverClass 0 else s2
    let s4 := s3.restartLv.reloadAll s3.reloadList
    (((List.range 24).filter s4.gathers).foldl State.launchGather s4).pulse Ev.RED_TAKEOVER
  else s

/-- TAKEOVER (R334). -/
def execTakeover (s : State) : Host.Outcome State Fault Refusal := s.takeOver.done

/-! ### RED_MODE and RED_CTRL (R319, R328, R338) -/

/-- RED_MODE_WRITE (R69, R319). -/
def execRedModeWrite (path : Path) (val compl : Word) (s : State) : Host.Outcome State Fault Refusal :=
  (s.pairWrite path R.RED_MODE.base val compl).done

/-- RED_RESYNC (R328, R344). -/
def execRedResync (path : Path) (s : State) : Host.Outcome State Fault Refusal := (s.pathWrite path R.RED_CTRL.base 2).done

/-- RED_SWAP (R338). -/
def execRedSwap (path : Path) (s : State) : Host.Outcome State Fault Refusal := (s.pathWrite path R.RED_CTRL.base 1).done

/-- A standby's age exceeds SWAPDUE (R337). -/
def State.swapDue (s : State) : State :=
  if s.isStandby ∧ s.get F.RED_CFG_SWAPDUE ≠ 0 then s.pulse Ev.RED_SWAPDUE else s

/-- SWAPAGE_DUE (R337). -/
def execSwapageDue (s : State) : Host.Outcome State Fault Refusal := s.swapDue.done

/-- SLICE_REINTEGRATED (R340). -/
def execSliceReintegrated (slice : Fin 3) (s : State) : Host.Outcome State Fault Refusal := (s.sliceBack slice.val).done

end Sys2Proof.Machine
end

