-- ==== Sys2Proof/Machine/BoundaryOps.lean ====
section
/-! DEFINITION. What a period boundary does (R30): the moves of cells and lanes, the engine's commands in force, the launch of gather
frames, and the order of it all. -/

namespace Sys2Proof.Machine

/-! ### Cells (R20, R177, R185, R232, R346) -/

/-- The commands launched in the last period apply: d and p move up by one period (R220). A withheld frame leaves them. -/
def State.cellApply (s : State) (c : Nat) : State :=
  let x := s.cell c
  let e := x.eng
  s.setCell c { x with eng := { e with
    dPrev := e.dNow, dNow := if s.ce.withheld then e.dNow else e.dNext, pNow := if s.ce.withheld then e.pNow else e.pNext } }

/-- A cell becomes LOST (R154, R177). -/
def State.loseCell (s : State) (c : Nat) : State :=
  let run := s.inService c
  let t := s.leaveTo c csLost
  let x := t.cell c
  t.setCell c { x with
    lostDue := false, okRun := 0, wasRun := run, eng := { x.eng with comp := x.eng.comp || run } }

/-- A LOST cell whose lane has left SERVICE becomes ABSENT (R185). -/
def State.absentCell (s : State) (c : Nat) : State := s.setCState c csAbsent

/-- A READY cell enters RUN or SPARE when the converter is enabled (R20). Its step to RUN is none from BLOCK, so it is insertable from
this period on (R223); it is no longer a removed cell, and R231 no longer compensates it. -/
def State.readyCell (s : State) (c : Nat) : State :=
  let t := s.setCell c { s.cell c with eng := { (s.cell c).eng with comp := false } }
  t.setCState c (if t.img.plant.held && !t.cMain c then csSpare else csRun)

/-- What a boundary does first to a cell of a head that drives: a LOST cell whose lane has left SERVICE is ABSENT (R185), and one that is
due is LOST (R154, R177), whatever commands take effect at that boundary. -/
def State.lossBoundary (s : State) (c : Nat) : State :=
  let st := s.cState c
  if st = csLost ∧ s.lnState (s.cLane c) ≠ lnService then s.absentCell c
  else if (s.cell c).lostDue ∧ st ≠ csAbsent ∧ st ≠ csRefused then s.loseCell c
  else s

/-- The losses of a boundary. -/
def State.losses (s : State) : State := if s.drivesLanes then s.cellList.foldl State.lossBoundary s else s

/-- One cell at a boundary, on a head that drives. -/
def State.cellBoundary (s : State) (c : Nat) : State :=
  let st := s.cState c
  if (s.cell c).leaving then s.removeCell c
  else if st = csReady ∧ s.flag F.CE_LOOPEN_CONV ∧ ¬s.whiteout then s.readyCell c
  else s

/-- The boundary at which the blocks of a whiteout apply (R346). -/
def State.whiteoutBoundary (s : State) : State :=
  if s.whiteout ∧ s.saf.blkSent then
    ((s.cellList.filter fun c => cellActive (s.cState c)).foldl State.cellStopNow s).put F.CE_LOOPEN_CONV 0
  else s

/-! ### Lanes (R151 to R153, R163) -/

/-- A cell starts afresh on a lane in ALIGN: its identity is asked for again (R19, R153), and its offsets are no longer acknowledged.
DESIGN CHOICE (log entry 56): IDSEEN and the marks of the halves are cleared here; the spec names nothing that clears IDSEEN. -/
def State.alignCell (s : State) (l c : Nat) : State :=
  let i := s.cPos c
  let x := s.cell c
  let t := (s.setCell c { x with fresh := true, loSeen := false, hiSeen := false, gotLo := false, gotHi := false }).put
    F.CELL_STAT_IDSEEN 0 c
  (t.put F.DML_OFFSA_VALID 0 l i).put F.DML_OFFSB_VALID 0 l i

/-- A lane enters ALIGN. -/
def State.laneAlign (s : State) (l : Nat) : State :=
  let t := (s.setLn l lnAlign).setLane l { s.lane l with
    passed := 0, missed := 0, rtts := [], dsum := [], idleOk := false, lenOk := false, xlGot := false }
  if isString l && t.drivesLanes then (t.laneCells l).foldl (fun (u : State) c => u.alignCell l c) t else t

/-- A cell that holds no lane back: refused, or identified with its offsets acknowledged (R153). -/
def State.cellAligned (s : State) (l c : Nat) : Bool :=
  s.cState c == csRefused ||
    ((s.cell c).loSeen && (s.cell c).hiSeen && s.flag F.DML_OFFSA_VALID l (s.cPos c) &&
      (!s.duplex || s.flag F.DML_OFFSB_VALID l (s.cPos c)))

/-- R153 is met; the crosslink and a standby's lanes ask for the frames alone (R163). -/
def State.laneAligned (s : State) (l : Nat) : Bool :=
  decide (16 ≤ (s.lane l).passed) && (!isString l || !s.drivesLanes || (s.laneCells l).all (s.cellAligned l))

/-- A cell of a lane that enters SERVICE (R17, R19, R185). -/
def State.serveCell (s : State) (c : Nat) : State :=
  let x := s.cell c
  if s.cState c = csAbsent ∨ s.cState c = csLost ∨ (s.cState c = csRefused ∧ x.fresh ∧ x.loSeen ∧ x.hiSeen) then s.enterBlocked c
  else s

/-- A lane enters SERVICE. -/
def State.laneServe (s : State) (l : Nat) : State :=
  let t := (s.setLn l lnService).setLane l { s.lane l with missed := 0, dsum := [] }
  if isString l && t.drivesLanes then (t.laneCells l).foldl State.serveCell t
  else (t.laneCells l).foldl (fun (u : State) c => u.setCell c { u.cell c with lostDue := false }) t

/-- One lane at a boundary. -/
def State.laneBoundary (s : State) (l : Nat) : State :=
  if s.lnState l = lnLink ∧ (s.lane l).idleOk then s.laneAlign l
  else if s.lnState l = lnAlign ∧ s.laneAligned l then s.laneServe l
  else s

/-- Gather frames leave on the lanes that take them; what came in the last period is dropped. -/
def State.launchAll (s : State) : State :=
  (List.range 24).foldl (fun (t : State) l =>
    if t.gathers l then t.launchGather l else t.setLane l { t.lane l with launched := false, rx := none }) s

/-! ### The whole boundary -/

/-- A hysteresis chopper that waits for its restart takes it at any boundary (R278, R280). -/
def State.chopRestarts (s : State) : State :=
  [16, 17].foldl (fun (t : State) n =>
    if t.chopMode (n - 16) = 1 ∧ (t.chan n).restart ∧ ¬t.reloads n then t.reloadChan n else t) s

/-- The countdown of a resign's block-all periods (R347). -/
def State.holdCount (s : State) : State :=
  match s.sec.holdFrames with
  | some 0 => s.enterResigned (s.get F.SEC_RESIGN_CAUSE)
  | some (n + 1) => { s with sec := { s.sec with holdFrames := some n } }
  | none => s

/-- A new period begins. What belongs to one period alone is cleared. -/
def State.newPeriod (s : State) : State :=
  { s with
    period := s.period + 1, bnd := s.ct
    red := { s.red with
      ownM := none, peerM := none, bSeen := s.red.takeDue, got := [], measured := false, regSent := false, winEnd := false }
    ce := { s.ce with xlIn := none, cut := none, packed := false }
    adc := { s.adc with delivered := 0 }, net := { s.net with stretch := 0 } }

/-- The pad is strobed: a head that drives and has met no resign condition pulls RESIGN_O low (R321). -/
def State.strobePad (s : State) : State :=
  { s with red := { s.red with pad := s.driving && s.sec.holdFrames.isNone } }

/-- A planned swap that is due (R338): the roles change and every LV output restarts; a transaction before its point of no return ends
(R82). -/
def State.swapBoundary (s : State) : State :=
  if s.red.swapAt = some s.period then s.txSwitch.swapNow.restartLv else s

/-- The next link frame is at hand on the lanes that launch one (R9). -/
def State.frameDrain (s : State) (on : State → Nat → Bool) : State :=
  (List.finRange 26).foldl (fun (t : State) (l : Fin 26) => if on t l.val then t.drain (.frame l) else t) s

/-- Apply points that a boundary is: period, the lanes that launch, and the channels of `rl`, which reload (R9, R62). -/
def State.boundaryDrain (s : State) (rl : List Nat) : State :=
  let s2 := (s.drain .period).frameDrain State.gathers
  (List.finRange 18).foldl (fun (t : State) (n : Fin 18) => if rl.contains n.val then t.drain (.pwm n) else t) s2

/-- Cells and lanes at a boundary. A standby's cells follow the STATE segment (R326). -/
def State.plantBoundary (s : State) : State :=
  let s1 := if s.drivesLanes then
      let t := s.cellList.foldl State.cellApply s
      let t := (if t.ce.withheld then t else t.stopBoundary).whiteoutBoundary
      t.cellList.foldl State.cellBoundary t
    else s.cellList.foldl State.cellApply s
  let s2 := (List.range 26).foldl State.laneBoundary s1
  let s3 := s2.grantStarts
  if s3.drivesLanes then s3.armGroups else s3

/-- A boundary in RUN (R30). Budget units given up in the last period return first (R114). -/
def State.runBoundary (s : State) : State :=
  let rl := s.reloadList
  let s1 := ((((s.chopPeriod 16).chopPeriod 17).swapBoundary.losses.unitsBack.boundaryDrain rl).txBoundary rl).plantBoundary
  let s2 := (s1.chopResumes.reloadAll rl).chopRestarts.launchAll
  let s3 := s2.lockStamp.sliceBoundary.windowBoundary.resetBoundary
  ({ s3 with ce := { s3.ce with withheld := false } } : State).strobePad

/-- A period boundary. In RESIGNED only the period runs on. -/
def State.boundary (s : State) : State :=
  if s.periodsRun then
    let t := s.holdCount.breakRuns.newPeriod
    if t.get F.SEC_STATE_HSTATE = 2 then t.runBoundary else t.lockStamp.windowBoundary
  else s

end Sys2Proof.Machine
end

