-- ==== Sys2Proof/Machine/MvsOps.lean ====
section
/-! DEFINITION. The hardware allocator and record packing (R223 to R232, R172, R180). -/

namespace Sys2Proof.Machine

/-- What the allocator gives one cell: insertion code, legs, mean duty, centre, rank and whether prev was set. -/
structure Leg where
  ins : Nat := 0
  offA : Nat := 0
  cmpA : Nat := 0
  offB : Nat := 0
  cmpB : Nat := 0
  duty : Int := 0
  centre : Nat := 0
  rank : Nat := 0
  sticky : Bool := false
  prev : Bool := false
  cen : Bool := false
  cenR : Nat := 0
  cenN : Nat := 1
  deriving DecidableEq, Repr

/-- PU32 code of 1.0. -/
def one30 : Int := 2 ^ 30

/-- `z` modulo `p` as a natural. -/
def modP (z : Int) (p : Nat) : Nat := (z % p).toNat

/-- Leg offset that centres an on-interval on `tc` (R223): 0 where the leg has no edge. -/
def legOff (cmp tc p : Nat) : Nat := if cmp = 0 ∨ cmp ≥ p then 0 else modP ((cmp / 2 : Nat) - (tc : Int)) p

/-- NETOFS in use: only with NETPH = 1 (R223, R235). -/
def State.netOfs (s : State) : Nat := if s.flag F.MVS_CFG_NETPH then s.get F.MVS_NETOFS_OFS else 0

/-- Carrier phase of a group in CT, not rounded. -/
def State.phaseCt (s : State) (g : Nat) : Rat :=
  match s.vInst tALLOCIF g with
  | some n => mkRat (fieldGet (s.instP n 2) 15 0 * s.img.per.p) 65536 + (s.netOfs : Rat)
  | none => (s.netOfs : Rat)

/-- Legs of a phase-shifted carrier cell (R223). -/
def carrierLeg (d : Int) (tc p rank cenR cenN : Nat) : Leg :=
  let ca := (roundHalfAway ((1 + q30 d) / 2 * p)).toNat
  let cb := (roundHalfAway ((1 - q30 d) / 2 * p)).toNat
  { ins := 3, offA := legOff ca tc p, cmpA := ca, offB := legOff cb tc p, cmpB := cb, duty := d, centre := tc, rank := rank
    cen := true, cenR := cenR, cenN := cenN }

/-- Insert into a list kept ascending by a key, behind equal keys. -/
def insertBy (key : Nat → Int) (c : Nat) : List Nat → List Nat
  | [] => [c]
  | x :: l => if key c < key x then c :: x :: l else x :: insertBy key c l

/-- Sort ascending by a key; equal keys keep their order. -/
def sortBy (key : Nat → Int) (l : List Nat) : List Nat := l.foldl (fun acc c => insertBy key c acc) []

/-- Legs of a group under phase-shifted carriers (R223, R230). With RESPACE = 0 a group that only lost cells keeps its centres: each cell
keeps the place among the cells of the last spacing, and a change of PHOFS, NETOFS or NETPH moves all centres alike (R235, R237). -/
def State.allocCarriers (s : State) (g : Nat) : List (Nat × Leg) :=
  let cells := sortBy (fun c => s.cSlot c) (s.insCells g)
  let n := cells.length
  let keep := !s.flag F.MVS_CFG_RESPACE && cells.all fun c => (s.cell c).eng.cen
  cells.zipIdx.map fun (c, r) =>
    let e := (s.cell c).eng
    let (i, m) := if keep then (e.cenR, e.cenN) else (r, n)
    let tc := modP (roundHalfAway (s.phaseCt g + mkRat (i * s.img.per.p) (2 * m))) s.img.per.p
    (c, carrierLeg e.duty tc s.img.per.p r i m)

/-- Full insertion and the PWM cell (R226). -/
def fullLeg (pol : Int) (p : Nat) : Leg :=
  if pol > 0 then { ins := 1, cmpA := p, duty := one30, prev := true }
  else { ins := 2, cmpB := p, duty := -one30, prev := true }

def pwmLeg (pol : Int) (dp : Rat) (tc p : Nat) : Leg :=
  let c := (roundHalfAway (dp * p)).toNat
  let o := modP ((c / 2 : Nat) - (tc : Int)) p
  if pol > 0 then { ins := 3, offA := o, cmpA := c, duty := (pu32 dp).1, centre := tc, prev := true }
  else { ins := 3, offB := o, cmpB := c, duty := -(pu32 dp).1, centre := tc, prev := true }

/-- The pick of R225 over the sorted list: cells fully inserted, and the PWM cell with its duty. -/
def pickLevels (volt : Nat → Rat) (target : Rat) (pwm : Bool) : List Nat → Rat → List Nat × Option (Nat × Rat)
  | [], _ => ([], none)
  | c :: l, cum =>
    let v := volt c
    if cum + v ≤ target then
      let (f, p) := pickLevels volt target pwm l (cum + v)
      (c :: f, p)
    else if pwm then ([], some (c, qdiv (target - cum) v))
    else if cum + v / 2 ≤ target then ([c], none) else ([], none)

/-- A direction and polarity of a group for this allocation (R225): DIR keeps its last value inside IDB. -/
def State.levelDir (s : State) (g : Nat) : Int × Int :=
  let gr := s.group g
  let pol : Int := if gr.xeff ≥ 0 then 1 else -1
  let im := (listVal s.ce.snap.agg (8 * g + 3)).1
  let idb := match s.vInst tALLOCIF g with | some n => s.instPS n 4 | none => 0
  let dir := if (im.natAbs : Int) ≥ idb then pol * (if im < 0 then -1 else 1)
    else if gr.lastScheme = s.scheme g then gr.dir else 1
  (dir, pol)

/-- Legs of a group under nearest level (R225 to R227). A cell that keeps its insertion counts as inserted before (prev) where that has the
polarity of this allocation. -/
def State.allocLevels (s : State) (g : Nat) : List (Nat × Leg) :=
  let gr := s.group g
  let (dir, pol) := s.levelDir g
  let clear := gr.lastScheme != s.scheme g || pol != gr.lastPol
  let stick := match s.vInst tALLOCIF g with | some n => s.instPS n 1 | none => 0
  let prev := fun c => !clear && (s.cell c).eng.prev
  let volt := fun c => s.cellVolt c (s.cell c).eng.vhat
  let target := (if gr.xeff < 0 then -(q30 gr.xeff) else q30 gr.xeff) * s.vgb g
  let ins := s.insCells g
  let kept := ins.filter fun c => !(s.cell c).vcap.ok
  let base := kept.foldl (fun a c => a + (pol : Rat) * q30 (s.cell c).eng.dNext * volt c) 0
  let sorted := sortBy (fun c => dir * (s.cell c).eng.vhat - if prev c then stick else 0)
    (ins.filter fun c => (s.cell c).vcap.ok)
  let mmax := match s.vInst tALLOCIF g with | some n => q30 (s.instPS n 3) | none => 1
  let all := target > mmax * s.sumVhat g
  let (full, pwm) := if all then (sorted, none) else pickLevels volt target (s.scheme g = 2) sorted base
  let tc := modP (roundHalfAway (s.phaseCt g)) s.img.per.p
  let p := s.img.per.p
  sorted.zipIdx.map (fun (c, r) =>
    let l : Leg := if full.contains c then fullLeg pol p
      else match pwm with
        | some (j, dp) => if j = c then pwmLeg pol dp tc p else {}
        | none => {}
    (c, { l with rank := r, sticky := prev c })) ++
  kept.map fun c =>
    let e := (s.cell c).eng
    (c, { ins := e.ins, offA := e.offA, cmpA := e.cmpA, offB := e.offB, cmpB := e.cmpB, duty := e.dNext, centre := e.centre
          sticky := prev c, prev := e.prev && decide (0 < pol * e.dNext) })

/-- Put one cell's allocation into its record fields and MVS_CELLc (R229); a changed insertion counts (R238). -/
def State.putLeg (s : State) (c : Nat) (l : Leg) : State :=
  let e := (s.cell c).eng
  let s1 := if e.ins != l.ins then s.errInc F.MVS_SWCNT_COUNT (1390 + s.cGroup c) (s.cGroup c) else s
  let s2 := s1.setCell c { s1.cell c with eng := { e with
    ins := l.ins, offA := l.offA, cmpA := l.cmpA, offB := l.offB, cmpB := l.cmpB, dNext := l.duty, centre := l.centre
    prev := l.prev, cen := l.cen, cenR := l.cenR, cenN := l.cenN } }
  let s3 := (s2.putS F.MVS_CELL_DUTY (roundHalfAway (mkRat l.duty 65536)) c).put F.MVS_CELL_INS l.ins c
  ((s3.putB F.MVS_CELL_STICKY l.sticky c).putB F.MVS_CELL_COMP (s3.compensated c) c).put F.MVS_CELL_RANK l.rank c

/-- Allocate one group (R228). -/
def State.allocGroup (s : State) (g : Nat) : State :=
  let sch := s.scheme g
  let legs := if sch = 0 then s.allocCarriers g else s.allocLevels g
  let (dir, pol) := s.levelDir g
  let rest := (s.groupCells g).filter fun c => !s.insertable c
  let s1 := legs.foldl (fun t x => t.putLeg x.1 x.2) (rest.foldl (fun t c => t.putLeg c {}) s)
  let pwm := legs.find? fun x => x.2.ins == 3
  let lv := sch != 0
  let s2 := (s1.put F.MVS_GSTAT_NINS legs.length g).put F.MVS_GSTAT_NFULL
    (legs.filter fun x => x.2.ins == 1 || x.2.ins == 2).length g
  let s3 := (s2.putB F.MVS_GSTAT_PWMV (lv && pwm.isSome) g).put F.MVS_GSTAT_PWMCELL
    (if lv then (pwm.map Prod.fst).getD 0 else 0) g
  let s4 := (s3.putB F.MVS_GSTAT_DIR (if lv then dir > 0 else (s.group g).dir > 0) g).putB F.MVS_GSTAT_POL (pol < 0) g
  s4.setGroup g { s4.group g with dir := if lv then dir else (s.group g).dir, lastPol := pol, lastScheme := sch }

/-- Allocate every group. -/
def State.allocate (s : State) : State := s.groupsUsed.foldl State.allocGroup s

/-! ### Packing (R172, R180, R229) -/

/-- The cell's command in the frame of this period: the spare that a removal called is BLOCKED in the first frame, and a cell
on its way out is BLOCKED until its state changes (R232). On a lane outside SERVICE every cell is BLOCKED (R151, R154). Whiteout blocks every cell that is not BYPASSED (R346). -/
def State.cellCmd (s : State) (c : Nat) : Nat :=
  let st := s.cState c
  if s.lnState (s.cLane c) ≠ lnService then 0
  else if (s.cell c).leaving || (s.ce.stopBlk && st == csRun) then 0
  else if st == csRun && s.period < (s.cell c).insAt then 0
  else if s.whiteout && st != csBypassed then 0
  else if st == csBypassed && (s.cell c).release then 0
  else modeOf st

/-- The staging word of a cell's next record (STYPE, SIDX, STAGE), and the cell after it (R180). A parameter set takes the values in force
when its HDR leaves (R80, R183). -/
def State.stageNext (s : State) (c : Nat) : (Nat × Nat × Word) × Cell :=
  let x := s.cell c
  if x.discard > 0 then ((5, x.discTag, 0), { x with discard := x.discard - 1 })
  else match x.sets with
    | [] => ((0, 0, 0), x)
    | t :: l =>
      let t := if t.next = 0 ∧ t.kind = .params then { t with words := stageWords t.tag true (s.paramPairs c) } else t
      if t.next < t.words.length then
        let styp := if t.next = 0 then 1 else if t.next + 1 = t.words.length then 3 else 2
        ((styp, t.next, t.words.getD t.next 0), { x with sets := { t with next := t.next + 1 } :: l })
      else if t.kind = .txn && s.get F.SYS_TXNSTAT_STATE == 3 then
        ((4, t.tag, BitVec.ofNat 32 (s.get F.SYS_TXNACT_KACT)), x)
      else ((0, 0, 0), x)

/-- The command record of a cell (R172): the accepted identity shows in IDOK. -/
def State.commandWords (s : State) (c : Nat) (stg : Nat × Nat × Word) : List Word :=
  let e := (s.cell c).eng
  let cmd := s.cellCmd c
  let run := cmd == 2
  let dab := cmd == 1 || cmd == 2 || cmd == 3
  let w := fun lo hi : Nat => BitVec.ofNat 32 (lo % 65536 + 65536 * (hi % 65536))
  let z : Word := 0
  let clear := (s.cell c).release
  let idok := s.cState c != csAbsent && s.cState c != csRefused
  sealRecord [
    if run then w e.offA e.cmpA else z,
    if run then w e.offB e.cmpB else z,
    if dab then w e.php e.phs else z,
    if dab then w e.din1 e.din2 else z,
    BitVec.ofNat 32 (cmd + (if clear then 16 else 0) + (if idok then 32 else 0)),
    stg.2.2,
    BitVec.ofNat 32 ((s.period + 1) % 65536 + 65536 * (stg.2.1 % 4096) + 2 ^ 28 * stg.1),
    0] (s.cLane c) (s.wirePos c)

/-- Send a cell its record: CELL_CREC holds it (R229). -/
def State.sendRecord (s : State) (c : Nat) : State :=
  let (stg, x) := s.stageNext c
  let ws := s.commandWords c stg
  let s1 := s.setCell c x
  ws.zipIdx.foldl (fun t y => t.wr (F.CELL_CREC_WORD.addr c y.2) y.1) s1

end Sys2Proof.Machine
end

