-- ==== Sys2Proof/Machine/RapCmds.lean ====
section
/-! DEFINITION. The register-access protocol (R387 to R389). A session keeps its last request's number and the response to it. -/

namespace Sys2Proof.Machine

/-! ### Sessions -/

/-- A network key slot holds a key. -/
def State.netKeyIn (s : State) (k : Nat) : Bool := k < 2 && !(Sparse.get (fun _ => []) s.nv.netKeys k).isEmpty

/-- The key of a network key slot. -/
def State.netKey (s : State) (k : Nat) : List Byte := Sparse.get (fun _ => []) s.nv.netKeys k

/-- MAGIC and VER of R387. -/
def rapRight (magic : BitVec 16) (ver : Byte) : Bool := magic == 0x5254 && ver == 1

/-- The bytes that the MAC of an OPEN covers. -/
def rapOpenBytes (q : RapOpenReq) : List Byte := rapHead q.magic q.ver 1 0 q.kslot 0 q.seq.toNat 0 ++ q.nonce

/-- The session key KS (R388). -/
def sessionKey (key nc nh : List Byte) (n : Nat) : List Byte :=
  Config.hmac key ([0x4C, 0x59, 0x37, 0x36, 0x34, 0x30, 0x2D, 0x52, 0x41, 0x50] ++ nc ++ nh ++ leBytes 1 n)

/-- An OPEN (R387, R388): the lowest session that is not open, with 16 bytes of the random source; session 0 stands for BUSY. -/
def State.rapOpen (s : State) (q : RapOpenReq) : State :=
  let p := q.port.val
  let key := s.netKey q.kslot
  if !(s.rapPort p && rapRight q.magic q.ver && s.netKeyIn q.kslot && q.nonce.length == 16) then s
  else if q.mac ≠ Config.hmac key (rapOpenBytes q) then s.rapAuth p
  else match [1, 2, 3, 4].find? fun n => !(s.session n).open_ with
    | some n =>
      let nh := Config.randomBytes s.free 16
      let t := (s.setSession n { open_ := true, port := p, kslot := q.kslot, ks := sessionKey key q.nonce nh n }).putBit
        F.NET_RAPSTAT_OPEN (n - 1) true
      ({ t with free := t.free + 1 } : State).sendRap p key { op := 2, sess := n, kslot := q.kslot, seq := q.seq.toNat, nonce := nh }
    | none => s.sendRap p key { op := 2, sess := 0, kslot := q.kslot, seq := q.seq.toNat }

/-- RAP_OPEN (R387, R388). -/
def execRapOpen (req : RapOpenReq) (s : State) : Host.Outcome State Fault Refusal :=
  (s.withFrame req.port.val 5 fun t => t.rapOpen req).done

/-- A session closes (R75, R389). -/
def State.rapEnd (s : State) (n : Nat) : State :=
  if (s.session n).open_ then
    let t := (s.setSession n {}).putBit F.NET_RAPSTAT_OPEN (n - 1) false
    (if t.get F.SYS_TXNSTAT_OWNER = n then t.txIdleEnd else t).pulse Ev.RAP_SESSION n
  else s

/-- RAP_IDLE_TIMEOUT (R389): `session` counts from 0. -/
def execRapIdleTimeout (session : Fin 4) (s : State) : Host.Outcome State Fault Refusal := (s.rapEnd (session.val + 1)).done

/-! ### Requests -/

/-- The code of an operation (R387). -/
def rapCode : RapOp → Nat
  | .read => 3 | .readFixed => 4 | .write => 5 | .writeFixed => 6 | .keepalive => 9 | .close => 10

/-- The bytes that the MAC of a message covers. -/
def rapBytes (m : RapMsg) (op : RapOp) : List Byte :=
  rapHead m.magic m.ver (rapCode op) m.sess.val m.kslot m.count m.seq.toNat m.addr.toNat ++ m.body.flatMap fun w => leBytes 4 w.toNat

/-- The words of a READ in order, `step` apart. -/
def State.rapReads (s : State) (m : RapMsg) (step : Nat) : State × RapResp :=
  (List.range m.count).foldl (fun (x : State × RapResp) i =>
    let (t, w, c) := x.1.busRead m.sess.val (m.addr.toNat + step * i)
    (t, { x.2 with codes := x.2.codes ++ [c.num], words := x.2.words ++ [w] })) (s, {})

/-- The words of a WRITE in order, `step` apart; a write that resets the head ends them. -/
def State.rapWrites (s : State) (m : RapMsg) (step : Nat) : State × RapResp :=
  (List.range m.count).foldl (fun (x : State × RapResp) i =>
    if x.1.pathOn m.sess.val then
      let (t, c) := x.1.busWrite m.sess.val (m.addr.toNat + step * i) (m.body.getD i 0)
      (t, { x.2 with codes := x.2.codes ++ [c.num] })
    else x) (s, {})

/-- What a request does (R389). -/
def State.rapRun (s : State) (op : RapOp) (m : RapMsg) : State × RapResp :=
  match op with
  | .read => s.rapReads m 4
  | .readFixed => s.rapReads m 0
  | .write => s.rapWrites m 4
  | .writeFixed => s.rapWrites m 0
  | .keepalive => (s, {})
  | .close => (s.rapEnd m.sess.val, {})

/-- A READ or a WRITE names 1 to 64 words, and a WRITE brings them (R387). -/
def rapCounted (op : RapOp) (m : RapMsg) : Bool :=
  match op with
  | .read | .readFixed => decide (1 ≤ m.count ∧ m.count ≤ 64)
  | .write | .writeFixed => decide (1 ≤ m.count ∧ m.count ≤ 64) && m.body.length == m.count
  | .keepalive | .close => true

/-- The response to the session's last request leaves: a READ and a WRITE have one (R389). -/
def State.rapAnswer (s : State) (op : RapOp) (m : RapMsg) : State :=
  let x := s.session m.sess.val
  if op = .keepalive ∨ op = .close then s
  else s.sendRap m.port.val x.ks
    { op := 7, sess := m.sess.val, kslot := x.kslot, seq := x.resp.seq, count := m.count, addr := m.addr.toNat, resp := x.resp }

/-- The message is one of an open session (R387): its head, its port and the session's key slot are right, and the slot holds a key. -/
def State.rapTakes (s : State) (m : RapMsg) : Bool :=
  let x := s.session m.sess.val
  s.rapPort m.port.val && x.open_ && m.sess.val != 0 && rapRight m.magic m.ver && m.kslot == x.kslot && s.netKeyIn m.kslot

/-- The distance of a message's SEQ from the session's last executed one (R389). -/
def State.rapAhead (s : State) (m : RapMsg) : Int :=
  match (s.session m.sess.val).lastSeq with
  | some q => toSigned 32 ((m.seq.toNat + 2 ^ 32 - q) % 2 ^ 32)
  | none => 1

/-- A request that the management island holds until a REG segment has left (R64, R325): a WRITE to the standby that the segment cannot take
whole, and what its session sends behind it. -/
def State.rapHolds (s : State) (op : RapOp) (m : RapMsg) : Bool :=
  s.net.rapHeld.any (fun x => x.2.sess == m.sess) ||
    ((op == .write || op == .writeFixed) && s.duplex && s.role == roleActive && decide (64 < s.red.regOut.length + m.count) &&
      !s.red.regOut.isEmpty)

/-- A message of an open session (R389): one with a newer SEQ is executed and its response kept, the same SEQ is answered again from there,
and an older one is dropped and counted. `held`: the message waited for a REG segment. -/
def State.rapDo (s : State) (held : Bool) (op : RapOp) (m : RapMsg) : State :=
  let n := m.sess.val
  if !s.rapTakes m then s
  else if m.mac ≠ Config.hmac (s.session n).ks (rapBytes m op) then s.rapAuth m.port.val
  else if s.rapAhead m = 0 then s.rapAnswer op m
  else if s.rapAhead m < 0 then s.errInc F.NET_RAPERR_REPLAY 1500
  else if !rapCounted op m then s
  else if !held && s.rapHolds op m then { s with net := { s.net with rapHeld := s.net.rapHeld ++ [(op, m)] } }
  else
    let (t, r) := s.rapRun op m
    if (t.session n).open_ then
      (t.setSession n { t.session n with lastSeq := some m.seq.toNat, resp := { r with seq := m.seq.toNat } }).rapAnswer op m
    else t

/-- The requests that waited for a REG segment complete, in their order. -/
def State.takeRequests (s : State) : State :=
  s.net.rapHeld.foldl (fun (t : State) x => t.rapDo true x.1 x.2) { s with net := { s.net with rapHeld := [] } }

/-- A message arrives in an accepted frame; a word that fails parity on its way is discarded (R35). -/
def State.rapIn (s : State) (op : RapOp) (m : RapMsg) : State :=
  s.withFrame m.port.val 5 fun t => if m.parity then t.xingBad else t.rapDo false op m

/-- RAP_READ (R389). -/
def execRapRead (msg : RapMsg) (s : State) : Host.Outcome State Fault Refusal := (s.rapIn .read msg).done

/-- RAP_READ_FIXED (R387, R389). -/
def execRapReadFixed (msg : RapMsg) (s : State) : Host.Outcome State Fault Refusal := (s.rapIn .readFixed msg).done

/-- RAP_WRITE (R389). -/
def execRapWrite (msg : RapMsg) (s : State) : Host.Outcome State Fault Refusal := (s.rapIn .write msg).done

/-- RAP_WRITE_FIXED (R387, R389). -/
def execRapWriteFixed (msg : RapMsg) (s : State) : Host.Outcome State Fault Refusal := (s.rapIn .writeFixed msg).done

/-- RAP_KEEPALIVE (R387, R389). -/
def execRapKeepalive (msg : RapMsg) (s : State) : Host.Outcome State Fault Refusal := (s.rapIn .keepalive msg).done

/-- RAP_CLOSE (R389). -/
def execRapClose (msg : RapMsg) (s : State) : Host.Outcome State Fault Refusal := (s.rapIn .close msg).done

end Sys2Proof.Machine
end

