-- ==== Sys2Proof/Machine/PeriodCmds.lean ====
section
/-! DEFINITION. Commands of the period (R30, R38, R213, R228, R327): the boundary, the snapshot with its compute window, the end of the
window, the allocator with its vote, and the launch of the command frames. -/

namespace Sys2Proof.Machine

/-- PERIOD_BOUNDARY (R30). -/
def execPeriodBoundary (s : State) : Host.Outcome State Fault Refusal := s.boundary.done

/-! ### Inputs (R38, R197, R327) -/

/-- Safety limiter level, source 0x921 (R197). -/
def State.safeLevel921 (s : State) : Int :=
  if s.whiteout then 0 else if s.derateOn then toSigned 16 (s.evt.get F.EVT_DERATE_LEVEL) * 65536 else 0x7FFFFFFF

/-- The head's own inputs that are no cell record. -/
def State.ownInputs (s : State) : Snap where
  fast := (List.range 24).map fun n => (s.fastQ n).seenOr (pu32of16 (s.getS F.ADC_FSUB_SUB n))
  hk := (List.range 32).map fun h => (s.hkQ h).seenOr (pu32of16 (s.getS F.ADC_HCFG_SUB h))
  net := (List.range 128).map s.mapValue
  therm := s.get F.THM_LEVEL_LEVEL
  safe := s.safeLevel921

/-- Own inputs as this period has them: those cut at T_CUT, or those of now. -/
def State.takeOwn (s : State) : Snap × State :=
  match s.ce.cut with
  | some x => (x, s)
  | none =>
    let t := s.mapSnapshot
    (t.ownInputs, t)

/-- A segment that did not come leaves the last values, INVALID (R42, R44). -/
def staleSnap (x : Snap) : Snap :=
  let bad := fun (l : List (Int × Bool)) => l.map fun y => (y.1, false)
  { x with fast := bad x.fast, hk := bad x.hk, net := bad x.net }

/-- After the timeout of one period every input reads its declared substitute, INVALID (R42, R44). -/
def State.substitutes (s : State) : Snap :=
  { s.ce.snap with
    fast := (List.range 24).map fun n => (pu32of16 (s.getS F.ADC_FSUB_SUB n), false)
    hk := (List.range 32).map fun h => (pu32of16 (s.getS F.ADC_HCFG_SUB h), false)
    net := (List.range 128).map fun i => (pu32of16 (toSigned 16 (fieldGet (s.mapW i 3) 15 0)), false) }

/-- Whether this period has brought an INPUT segment is kept for the next. -/
def State.noteInput (s : State) (b : Bool) : State := { s with red := { s.red with inHad := b } }

/-- A standby in step takes the active's inputs (R326): without their segment the last ones for one period, then the substitutes (R42, R44).
From the arrival of RESIGN it takes its own (R334). -/
def State.inputsNow (s : State) : Snap × State :=
  if s.inStep ∧ ¬s.red.takeDue then
    match s.ce.xlIn with
    | some x => (x, s.noteInput true)
    | none => (if s.red.inHad then staleSnap s.ce.snap else s.substitutes, s.noteInput false)
  else s.takeOwn

/-- At T_CUT of a duplex pair the inputs that are no cell record are cut (R327). -/
def State.inputCut (s : State) : State :=
  if s.get F.SEC_STATE_HSTATE = 2 ∧ s.duplex then
    let t := s.mapSnapshot
    { t with ce := { t.ce with cut := some t.ownInputs } }
  else s

/-- STANDBY_INPUT_CUT (R327). -/
def execStandbyInputCut (s : State) : Host.Outcome State Fault Refusal := s.inputCut.done

/-! ### Group aggregates (R197) -/

/-- Mean, largest or smallest of a list of values; none of an empty one. -/
def meanI (l : List Int) : Int × Bool :=
  if l.isEmpty then (0, false) else (roundHalfAway (mkRat (l.foldl (· + ·) 0) l.length), true)
def extremeI (f : Int → Int → Int) (l : List Int) : Int × Bool :=
  match l with
  | [] => (0, false)
  | x :: xs => (xs.foldl f x, true)

/-- Aggregate `q` of group `g`. FLUX counts as invalid where VCAP is (R251). -/
def State.aggregate (s : State) (g q : Nat) : Int × Bool :=
  let svc := (s.groupCells g).filter s.inService
  let dab := (s.groupCells g).filter s.dabOn
  let v := (svc.filter fun c => (s.cell c).vcap.ok).map fun c => pu32of16 (s.cell c).vcap.val
  let i := (svc.filter fun c => (s.cell c).iarm.ok).map fun c => pu32of16 (s.cell c).iarm.val
  let n := s.nMain g
  if q = 0 then meanI v
  else if q = 1 then extremeI max v
  else if q = 2 then extremeI min v
  else if q = 3 then meanI i
  else if q = 4 then
    extremeI max ((dab.filter fun c => (s.cell c).flux.ok && (s.cell c).vcap.ok).map fun c => satSigned 32 (pu32of16 (s.cell c).flux.val).natAbs)
  else if q = 5 then extremeI max ((dab.filter fun c => (s.cell c).ths.ok).map fun c => pu32ofTemp (s.cell c).ths.val)
  else if svc.isEmpty ∨ n = 0 then (0, false)
  else if q = 6 then ((pu32 (mkRat svc.length n)).1, true)
  else if v.isEmpty then (0, false)
  else ((pu32 (mkRat (v.foldl (· + ·) 0) (n * 2 ^ 30))).1, true)

/-! ### The snapshot (R38, R211) -/

/-- One ECC report (R211). -/
def State.eccReport (s : State) (r : EccReport) : State :=
  let n := r.slice.val
  if r.correctable then (s.errInc F.CE_ECCCNT_COUNT 1387).pulse Ev.CE_ECC1 n r.inst
  else if s.img.per.perf then s.pulse Ev.CE_ECC2 n r.inst
  else if s.slState n = slVoted then
    (s.minority n Config.noItemKind Config.noItemIndex).pulse Ev.CE_ECC2_MASK n r.inst
  else s.pulse Ev.CE_ECC2_MASK n r.inst

/-- The inputs of the window are taken. -/
def State.takeSnapshot (s : State) : State :=
  let (x, t) := s.inputsNow
  let snap : Snap := { x with
    agg := (List.range 6).flatMap fun g => (List.range 8).map (t.aggregate g)
    sp := (List.range 16).map fun n => t.getS F.CE_SP_VALUE n }
  { t with ce := { t.ce with prev := t.ce.snap, snap := snap } }

/-- Up to 64 waiting entries leave in the REG segment at T_OPEN, and held accesses may enter (R64, R325); writes that waited for the segment
apply from now on (R329). -/
def State.sendReg (s : State) : State :=
  let t : State := { s with
    red := { s.red with regSent := true }, bus := { s.bus with buf := s.bus.buf.map fun x => { x with wait := false } } }
  if t.red.regOut.isEmpty then t
  else ({ t with red := { t.red with regOut := t.red.regOut.drop 64 } } : State).takeHeld.takeWaiting.takeRequests

/-- A called spare has not yet completed its RUN step (R237). -/
def State.spareComing (s : State) : Bool := s.cellList.any fun c => s.cState c == csRun && decide (s.period ≤ (s.cell c).insAt)

/-- The controlled stop blocks the RUN cells once every group stands below ISTOP or the wait is over (R234), and no spare is on its way
into RUN (R237). -/
def State.stopCheck (s : State) : State :=
  if s.flag F.MVS_STAT_STOPPING ∧ s.drivesLanes ∧ (s.ce.stopDue ∨ s.groupsUsed.all s.belowStop) ∧ ¬s.spareComing then s.stopBlock else s

/-- T_OPEN (R38). -/
def State.snapshot (s : State) (ecc : List EccReport) : State :=
  if s.get F.SEC_STATE_HSTATE = 2 then
    let s1 := (s.frameDrain State.laneLive).openCells.eqStep.thmCells.thmLevel.takeSnapshot
    let s2 := (s1.chopEnergy 0).chopEnergy 1
    let s3 := (ecc.foldl State.eccReport s2).computeWindow
    s3.stopCheck.txOpenCheck.sendReg
  else s

/-- INPUT_SNAPSHOT (R38). -/
def execInputSnapshot (ecc : List EccReport) (s : State) : Host.Outcome State Fault Refusal := (s.snapshot ecc).done

/-- STOPN periods have passed in a controlled stop (R234). -/
def State.stopTimeout (s : State) : State :=
  if s.flag F.MVS_STAT_STOPPING ∧ ¬s.ce.stopBlk ∧ ¬s.ce.stopDue ∧ s.drivesLanes then
    (if s.spareComing then { s with ce := { s.ce with stopDue := true } } else s.stopBlock).pulse Ev.MV_STOPTO
  else s

/-- GROUP_STOP_TIMEOUT (R234). -/
def execGroupStopTimeout (s : State) : Host.Outcome State Fault Refusal := s.stopTimeout.done

/-! ### The end of the window (R213, R386, R398) -/

def State.windowEnd (s : State) : State :=
  if s.get F.SEC_STATE_HSTATE = 2 then
    let t := (List.range 8).foldl State.publish s.traceWindow.acqWindow
    ({ t with red := { t.red with winEnd := true } } : State).copyWrite
  else s

/-- WINDOW_END (R213, R386). -/
def execWindowEnd (s : State) : Host.Outcome State Fault Refusal := s.windowEnd.done

/-! ### The allocator and the vote (R41, R210 to R212, R228, R339 to R341) -/

/-- A slice that reports has its finishing time shown (R210). -/
def State.noteFinish (s : State) (v : SliceVote) : State :=
  let n := v.slice.val
  let t := s.put F.CE_SLSTAT_FINISH (min 0xFFFF v.finish) n
  t.put F.CE_SLSTAT_MAXFIN (max (t.get F.CE_SLSTAT_MAXFIN n) (min 0xFFFF v.finish)) n

/-- A slice has finished by T_LAUNCH − TA; one that reports nothing has not. -/
def State.onTime (s : State) (votes : List SliceVote) (n : Nat) : Bool :=
  votes.any fun v => v.slice.val == n && v.finish ≤ s.img.sched.w

/-- EV_CE_SLACK (R211). -/
def State.slackCheck (s : State) (votes : List SliceVote) : State :=
  let slow := votes.any fun v => decide (s.img.sched.w < v.finish + s.get F.CE_SLACK_MIN)
  let k := if slow then min 16 (s.ce.slackRun + 1) else 0
  ({ s with ce := { s.ce with slackRun := k } } : State).follow Ev.CE_SLACK (k == 16)

/-- No command frame and no LV commit in this period. -/
def State.withhold (s : State) : State := { s with ce := { s.ce with withheld := true } }

/-- A missed deadline (R41, R210). -/
def State.deadlineMiss (s : State) : State := ((s.errInc F.CE_DLCNT_COUNT 1386).pulse Ev.CE_DEADLINE).withhold

/-- The majority is lost (R341). -/
def State.majorityLost (s : State) : State :=
  let t := s.withhold
  { t with evt := { t.evt with resignReq := some (t.evt.resignReq.getD (0x86, 0)) } }

/-- The direction of slice 0's P*, in place of the graph's: d is the sign of P*, and a P* of 0 leaves it (R206, R212, R250). -/
def State.dirSlice0 (s : State) (pstar : Int) : State :=
  if pstar = 0 then s
  else ((s.put F.ISO_STAT_DIR s.ce.dirWas.1).put F.ISO_REVCNT_COUNT s.ce.dirWas.2).dirReport (if pstar < 0 then 1 else 0)

/-- The output of DABOPT instance `n` of a group in CE_OUT, over the records as they now are (R197, R243). -/
def State.dabMean (s : State) (n g : Nat) : State :=
  s.wr (F.CE_OUT_WORD.addr n) (BitVec.ofInt 32 (cellMean ((s.groupCells g).filter s.dabOn) fun c => (s.cell c).eng.pNext))

/-- The head takes slice 0's value of P* where it is not the graph's (R212): the power command of the period, the direction, and the records
and outputs of every group follow it. -/
def State.useSlice0 (s : State) (votes : List SliceVote) : State :=
  match votes.find? fun v => v.slice.val == 0 with
  | some v =>
    if v.pstar = s.rd F.CE_ARBOUT_PSTAR.base then s
    else
      let arbs := (List.range s.ninst).filter fun n => s.instType n == tMINSEL && s.instArb n
      let t := arbs.foldl (fun u n => u.wr (F.CE_OUT_WORD.addr n) v.pstar) (s.put F.CE_ARBOUT_PSTAR v.pstar.toNat)
      let t := (t.dirSlice0 v.pstar.toInt).put F.ISO_STAT_SAT 0
      (t.groupsUsed.foldl (fun u g => match u.vInst tDABOPT g with
        | some n => (u.dabGroup n g (q30 v.pstar.toInt) (decide (u.get F.ISO_GSTAT_NSAT g > 0))).dabMean n g
        | none => u) t).isoSum
  | none => s

/-- Performance mode: every slice must finish, and the three P* are compared (R210, R212). -/
def State.perfCheck (s : State) (votes : List SliceVote) : State :=
  let u := s.useSlice0 votes
  let t := if votes.any fun v => votes.any fun w => v.pstar != w.pstar then u.pulse Ev.CE_SDIFF else u
  if (List.range 3).all (s.onTime votes) then t else t.deadlineMiss

/-- A late slice is a minority (R210, R340). -/
def State.sliceLate (s : State) (n : Nat) : State :=
  (s.pulse Ev.CE_SLICE_LATE n).minority n Config.noItemKind Config.noItemIndex

/-- The vote on the items of the slices that are still voted (R339 to R341). -/
def State.voteItems (s : State) (votes : List SliceVote) : State :=
  let ms := s.votedSlices
  let bad := votes.filter fun v => v.differs && ms.contains v.slice.val
  if ms.length < 2 || votes.any (fun v => !v.votersAgree) then s.majorityLost
  else match bad with
    | [] => s
    | v :: l =>
      if ms.length = 3 ∧ l = [] then s.minority v.slice.val v.kind.toNat v.index.toNat else s.majorityLost

/-- Triplex voting (R210, R339 to R341): a deadline counts only where fewer than two slices have finished. -/
def State.triplexVote (s : State) (votes : List SliceVote) : State :=
  if ((List.range 3).filter (s.onTime votes)).length < 2 then s.deadlineMiss
  else ((s.votedSlices.filter fun n => !s.onTime votes n).foldl State.sliceLate s).voteItems votes

/-- T_LAUNCH − TA (R228): the deadline, the vote, then the allocation of a head that drives. -/
def State.allocatorStart (s : State) (votes : List SliceVote) : State :=
  if s.get F.SEC_STATE_HSTATE = 2 then
    let s1 := (votes.foldl State.noteFinish s).slackCheck votes
    let s2 := if s1.img.per.perf then s1.perfCheck votes else s1.triplexVote votes
    if s2.ce.withheld ∨ ¬s2.drivesLanes then s2
    else
      let t := s2.allocate
      { t with ce := { t.ce with packed := true } }
  else s

/-- ALLOCATOR_START (R41, R228, R339). -/
def execAllocatorStart (votes : List SliceVote) (s : State) : Host.Outcome State Fault Refusal := (s.allocatorStart votes).done

/-! ### The launch (R38, R80, R151, R257, R346) -/

/-- A lane that carries command frames: in ALIGN or SERVICE, or in LOST while block lock holds (R151). -/
def State.commands (s : State) (l : Nat) : Bool :=
  s.lnState l == lnAlign || s.lnState l == lnService || (s.lnState l == lnLost && s.flag F.DML_STAT_BLOCKLOCK l)

/-- Every lane launches its command frame; in whiteout the frames carry BLOCK (R346, R347). -/
def State.launchFrames (s : State) : State :=
  let t := (s.cellList.filter fun c => s.commands (s.cLane c)).foldl State.sendRecord s
  if t.whiteout then { t with saf := { t.saf with blkSent := true } } else t

/-- The STATE segment leaves, and with it what the active last showed of its peer (R325, R333). -/
def State.sendState (s : State) : State :=
  if s.duplex ∧ s.role = roleActive then { s with red := { s.red with sentReady := s.flag F.RED_STAT_PEERRDY } } else s

/-- T_LAUNCH (R38): frames unless they are withheld, in whiteout always, but for a failed control clock (R347); commits of a head that
drives, the pump's on every head. -/
def State.launch (s : State) : State :=
  if s.get F.SEC_STATE_HSTATE = 2 then
    let s1 := if s.drivesLanes ∧ s.clkBad 4 = false ∧ ((s.ce.packed ∧ ¬s.ce.withheld) ∨ s.whiteout) then s.launchFrames.txLaunched else s
    let s2 := if s1.ce.withheld then s1 else
      let t := (if s1.drivesLanes then s1.lvCommit else s1).pumpCommit
      { t with ce := { t.ce with loopWas := t.rd R.CE_LOOPEN.base } }
    s2.sendState
  else s

/-- COMMAND_LAUNCH (R38, R257, R347). -/
def execCommandLaunch (s : State) : Host.Outcome State Fault Refusal := s.launch.done

end Sys2Proof.Machine
end

