-- ==== Sys2Proof/Machine/PumpCmds.lean ====
section
/-! DEFINITION. Commands of the coolant pump, its brake, and the automatic retry of pump and choppers (R284 to R293). -/

namespace Sys2Proof.Machine

/-! ### Start and stop -/

/-- PUMP_START (R115, R288). -/
def execPumpStart (path : Path) (s : State) : Host.Outcome State Fault Refusal := (s.pathWrite path R.GDI_PUCTRL.base 1).done

/-- PUMP_STOP (R288). -/
def execPumpStop (path : Path) (s : State) : Host.Outcome State Fault Refusal := (s.pathWrite path R.GDI_PUCTRL.base 2).done

/-- PUMP_DIAG_STEP_END (R289). -/
def execPumpDiagStepEnd (low high : BitVec 3) (s : State) : Host.Outcome State Fault Refusal :=
  (s.diagStep low.toNat high.toNat).done

/-- The bootstrap capacitors are charged (R285, R288). -/
def State.bootDone (s : State) : State :=
  if s.puState = pumpBoot then ((s.commutate (s.setPump pumpStarting)).setBoot false).checkBoot else s

/-- PUMP_TBOOT_EXPIRY (R285, R288). -/
def execPumpTbootExpiry (s : State) : Host.Outcome State Fault Refusal := s.bootDone.done

/-- Speed has held (R288): the start completes. -/
def State.startHeld (s : State) : State :=
  if s.puState = pumpStarting ∧ s.get F.GDI_PUSTART_SPDOK ≤ s.get F.GDI_PUSTAT_SPEED then s.setPump pumpRunning else s

/-- PUMP_STARTHOLD_REACHED (R288). -/
def execPumpStartholdReached (s : State) : Host.Outcome State Fault Refusal := s.startHeld.done

/-- PUMP_STARTTO_EXPIRY (R288, R291). -/
def execPumpStarttoExpiry (s : State) : Host.Outcome State Fault Refusal :=
  (if s.puState = pumpStarting then s.pumpFault 0xA else s).done

/-! ### Running -/

/-- HALL_CHANGE (R284, R285, R287). -/
def execHallChange (code : BitVec 3) (bootLow : Bool) (s : State) : Host.Outcome State Fault Refusal :=
  (s.hallIn code.toNat bootLow).done

/-- HALL_INVALID_TIMEOUT (R284). -/
def execHallInvalidTimeout (s : State) : Host.Outcome State Fault Refusal := s.hallTimeout.done

/-- PUMP_OVERCURRENT (R286). -/
def execPumpOvercurrent (s : State) : Host.Outcome State Fault Refusal := s.overCurrent.done

/-- PUMP_STALL_TIMEOUT (R287). -/
def execPumpStallTimeout (s : State) : Host.Outcome State Fault Refusal := s.pumpStall.done

/-- PUMP_PWM_WRAP (R285, R286). -/
def execPumpPwmWrap (s : State) : Host.Outcome State Fault Refusal := s.pumpWrap.done

/-- PUMP_VM_MEASURE (R285, R290): the bootstrap of the PWM phase is looked at with VM. Outside RUN the value is only shown, since the gates
are off (R293). -/
def execPumpVmMeasure (vm : PumpSense) (s : State) : Host.Outcome State Fault Refusal :=
  (if s.get F.SEC_STATE_HSTATE = 2 then ((s.setBoot vm.bootLow).checkBoot).vmIn vm.vm.toNat else s.put F.GDI_PUVM_VM vm.vm.toNat).done

/-- BRKMAX_EXPIRY (R290). -/
def execBrkmaxExpiry (s : State) : Host.Outcome State Fault Refusal := s.brkTimeout.done

/-! ### Retry -/

/-- RETRY_WAIT_EXPIRY (R292): counts are kept in RESIGNED (R293). -/
def execRetryWaitExpiry (chan : Fin 3) (s : State) : Host.Outcome State Fault Refusal :=
  (if s.get F.SEC_STATE_HSTATE = 3 then s else s.retryEnd chan.val).done

/-- RETRY_CLEAN_EXPIRY (R292): counts are kept in RESIGNED (R293). -/
def execRetryCleanExpiry (chan : Fin 3) (s : State) : Host.Outcome State Fault Refusal :=
  (if s.get F.SEC_STATE_HSTATE = 3 then s else s.retryClean chan.val).done

/-- RETRY_CLEAR (R292). -/
def execRetryClear (path : Path) (mask : BitVec 3) (s : State) : Host.Outcome State Fault Refusal :=
  (s.pathWrite path R.GDI_RETRYCLR.base (BitVec.ofNat 32 mask.toNat)).done

end Sys2Proof.Machine
end

