-- ==== Sys2Proof/Machine/RegCmds.lean ====
section
/-! DEFINITION. Commands of the register bus: writes and reads from a path, buffered writes at their apply points, the thaw and
G2 guards, transactions, the configuration monitor and the snapshot (R58 to R90). -/

namespace Sys2Proof.Machine

/-! ### Writes -/

/-- A write at `a` would cross to another island: it has a field with a later apply point and no transaction takes it (R62). -/
def State.crosses (s : State) (path a : Nat) : Bool :=
  match s.rowAt a with
  | some (r, _, _) => r.maskOf (fun f => f.takes && f.apply != .immediate) != 0 && !s.ownsOpen path
  | none => false

/-- A write whose word fails the parity check of its crossing (R35): the accepted word is discarded, and EV_XING_PAR is raised. -/
def State.badCrossing (s : State) (path a : Nat) (v : Word) : State :=
  let (t, c) := s.busWrite path a v
  if c = .ok ∧ s.crosses path a ∧ t.bus.g2 = none then
    ({ t with bus := { t.bus with buf := s.bus.buf, stage := s.bus.stage, held := s.bus.held } } : State).pulse Ev.XING_PAR
  else t

/-- REGISTER_WRITE (R60 to R75). `parity`: its word fails the check of its crossing; a write that waits for a REG segment has not crossed. -/
def execRegisterWrite (path : Path) (addr val : Word) (parity : Bool) (s : State) : Host.Outcome State Fault Refusal :=
  (if parity ∧ s.pathOn path ∧ ¬s.mustWait path addr.toNat then s.badCrossing path addr.toNat val else s.pathWrite path addr.toNat val).done

/-- An apply point is reached (R9, R62). At a boundary the arming of R21 follows what has changed. -/
def State.applyPoint (s : State) (p : ApplyTarget) : State :=
  let t := s.drain p
  if p = .period then t.armGroups else t

/-- BUFFERED_WRITE_APPLY (R9, R62, R64). -/
def execBufferedWriteApply (point : ApplyTarget) (s : State) : Host.Outcome State Fault Refusal := (s.applyPoint point).done

/-! ### Guards -/

/-- SYS_THAW (R67, R68). -/
def execSysThaw (path : Path) (val : Word) (s : State) : Host.Outcome State Fault Refusal :=
  (s.pathWrite path R.SYS_THAW.base val).done

/-- THAW_TIMEOUT (R67). -/
def execThawTimeout (path : Path) (s : State) : Host.Outcome State Fault Refusal := (s.refreeze path).done

/-- G2_FIRST_WRITE (R69). -/
def execG2FirstWrite (path : Path) (addr val : Word) (s : State) : Host.Outcome State Fault Refusal :=
  (s.pathWrite path addr.toNat val).done

/-- G2_COMPLEMENT_WRITE (R69, R70). -/
def execG2ComplementWrite (path : Path) (addr val : Word) (s : State) : Host.Outcome State Fault Refusal :=
  (s.pathWrite path addr.toNat val).done

/-- A held G2 value is discarded (R70). -/
def State.g2Drop (s : State) : State :=
  match s.bus.g2 with
  | some g => ({ s with bus := { s.bus with g2 := none } } : State).pulse Ev.GUARD_REJ g.addr g.path
  | none => s

/-- G2_TIMEOUT (R70). -/
def execG2Timeout (s : State) : Host.Outcome State Fault Refusal := s.g2Drop.done

/-! ### Transactions -/

/-- TXN_BEGIN (R71). -/
def execTxnBegin (path : Path) (s : State) : Host.Outcome State Fault Refusal := (s.pathWrite path R.SYS_TXN.base 1).done

/-- TXN_COMMIT (R71, R74, R76, R77). -/
def execTxnCommit (path : Path) (updateRef : Bool) (s : State) : Host.Outcome State Fault Refusal :=
  (s.pathWrite path R.SYS_TXN.base (if updateRef then 0x102 else 2)).done

/-- TXN_ROLLBACK (R71, R81). -/
def execTxnRollback (path : Path) (s : State) : Host.Outcome State Fault Refusal := (s.pathWrite path R.SYS_TXN.base 3).done

/-- TXN_IDLE_TIMEOUT (R75). -/
def execTxnIdleTimeout (s : State) : Host.Outcome State Fault Refusal := s.txIdleEnd.done

/-- TXN_ACK_TIMEOUT (R79). -/
def execTxnAckTimeout (s : State) : Host.Outcome State Fault Refusal := s.txAckTimeout.done

/-- HSPI_RESET (R75): a transaction that HSPI left open ends at once. -/
def execHspiReset (s : State) : Host.Outcome State Fault Refusal :=
  (if s.get F.SYS_TXNSTAT_OWNER = 0 then s.txIdleEnd else s).done

/-! ### The configuration monitor -/

/-- CFG_CRC_PASS_START (R84). -/
def execCfgCrcPassStart (s : State) : Host.Outcome State Fault Refusal := s.passStart.done

/-- CFG_CRC_PASS_END (R84 to R86). -/
def execCfgCrcPassEnd (s : State) : Host.Outcome State Fault Refusal := s.passEnd.done

/-! ### The snapshot and the double words -/

/-- SYS_FREEZE_GO (R89). -/
def execSysFreezeGo (path : Path) (s : State) : Host.Outcome State Fault Refusal := (s.pathWrite path R.SYS_FREEZE.base 1).done

/-- PERIODLO_READ (R88). -/
def execPeriodloRead (path : Path) (s : State) : Host.Outcome State Fault Refusal := (s.pathRead path R.SYS_PERIODLO.base).done

/-- NET_TIMELO_READ (R368). -/
def execNetTimeloRead (path : Path) (s : State) : Host.Outcome State Fault Refusal := (s.pathRead path R.NET_TIMELO.base).done

/-- CLK_RTCLO_READ (R421). -/
def execClkRtcloRead (path : Path) (s : State) : Host.Outcome State Fault Refusal := (s.pathRead path R.CLK_RTCLO.base).done

end Sys2Proof.Machine
end

