-- ==== Sys2Proof/Machine/SafCmds.lean ====
section
/-! DEFINITION. Commands of the safety logic: whiteout and its reset, safe inputs and test pulses, telegrams, the logic copies (R345 to
R361). -/

namespace Sys2Proof.Machine

/-! ### Whiteout -/

/-- WHITEOUT (R345, R346). -/
def execWhiteout (cause : WhiteoutCause) (s : State) : Host.Outcome State Fault Refusal :=
  (if 1 ≤ cause.cls.toNat ∧ cause.cls.toNat ≤ 0xB then s.setWhiteout cause.cls.toNat cause.index.toNat else s).done

/-- SAF_WOREQ (R345). -/
def execSafWoreq (path : Path) (s : State) : Host.Outcome State Fault Refusal := (s.pathWrite path R.SAF_CTRL.base 2).done

/-- SAF_RESET (R349). -/
def execSafReset (path : Path) (s : State) : Host.Outcome State Fault Refusal := (s.pathWrite path R.SAF_CTRL.base 1).done

/-! ### Safe inputs and test pulses -/

/-- TEST_PULSE (R352): a source goes low at the start of its pulse and high at its end, from the first boundary on and in every role
(R350). -/
def execTestPulse (src : Fin 4) (low : Bool) (s : State) : Host.Outcome State Fault Refusal :=
  (if (s.get F.SEC_STATE_HSTATE = 2 ∨ s.get F.SEC_STATE_HSTATE = 3) ∧ s.pins.coreGood then
    { s with saf := { s.saf with tp := setBit s.saf.tp src.val (!low) } }
   else s).done

/-- The check of one pulse on a channel in mode 0b01 (R353). -/
def State.pulseCheck (s : State) (n : Nat) (b pass : Bool) : State :=
  if s.safeMode n ≠ 1 then s
  else
    let x := s.safeIn n
    let x1 := match b, pass with
      | false, true => { x with failA := 0, passA := x.passA + 1 }
      | false, false => { x with failA := x.failA + 1, passA := 0 }
      | true, true => { x with failB := 0, passB := x.passB + 1 }
      | true, false => { x with failB := x.failB + 1, passB := 0 }
    let t := s.setSafeIn n x1
    let f := if b then F.SAF_INSTAT_BFLT else F.SAF_INSTAT_AFLT
    if (if b then x1.failB else x1.failA) ≥ t.get F.SAF_TPCFG_TPFAILN + 1 ∧ ¬(t.get f).testBit n then
      ((t.putBit f n true).pulse Ev.SAF_TPFAIL n b.toNat).safeFollow n 3 false
    else t

/-- TEST_PULSE_CHECK (R353). -/
def execTestPulseCheck (input : Fin 8) (chanB pass : Bool) (s : State) : Host.Outcome State Fault Refusal :=
  (s.pulseCheck input.val chanB pass).done

/-- A masked and filtered channel of a safe input changes (R354); a latched discrepancy ends when both channels have been in demand
together and then both released (R355). -/
def State.safeChange (s : State) (n : Nat) (b high : Bool) : State :=
  let t := s.putBit (if b then F.SAF_CHAN_B else F.SAF_CHAN_A) n high
  let a1 := t.safeChanDemand n false
  let b1 := t.safeChanDemand n true
  let x := t.safeIn n
  let u := if (t.get F.SAF_INSTAT_DISC).testBit n then
      let down := x.bothDown || (a1 && b1)
      t.setSafeIn n { x with bothDown := down, discEnded := down && !a1 && !b1 }
    else t
  u.safeFollow n 2 (u.safeLevel n && !s.safeLevel n)

/-- SAFE_INPUT_CHANGE (R354). -/
def execSafeInputChange (input : Fin 8) (chanB high : Bool) (s : State) : Host.Outcome State Fault Refusal :=
  (s.safeChange input.val chanB high).done

/-- The channels of an input have differed for longer than DISC (R355); a further discrepancy of a latched input must end in its turn. -/
def State.discLatch (s : State) (n : Nat) : State :=
  if s.safeMode n ≠ 0 ∧ s.safeChanDemand n false ≠ s.safeChanDemand n true then
    let t := s.setSafeIn n { s.safeIn n with bothDown := false, discEnded := false }
    ((t.putBit F.SAF_INSTAT_DISC n true).pulse Ev.SAF_DISC n).safeFollow n 4 false
  else s

/-- DISCREPANCY_TIMEOUT (R355). -/
def execDiscrepancyTimeout (input : Fin 8) (s : State) : Host.Outcome State Fault Refusal := (s.discLatch input.val).done

/-! ### Telegrams -/

/-- Bytes 0 to 11 of a copy (R357). -/
def tgBytes (x : Telegram) : List Byte :=
  leBytes 2 x.tgid ++ leBytes 1 x.ver ++ leBytes 1 x.flags ++ leBytes 4 x.seq ++ leBytes 4 x.zero

/-- The connection that a copy's TGID names: an enabled one before one that is not. -/
def State.tgFind (s : State) (x : Telegram) : Option Nat :=
  let named := (List.range 4).filter fun t => s.get F.SAF_TGCFG_TGID t == x.tgid
  (named.find? fun t => s.flag F.SAF_TGCFG_EN t) <|> named.head?

/-- A copy is addressed to the port's own MAC address or to a multicast address that the NET section lists. -/
def State.tgMine (s : State) (port : Nat) (x : Telegram) : Bool := x.dst == s.portMac port || s.img.mcast.contains x.dst

/-- A copy is right in itself (R357). -/
def tgRight (x : Telegram) : Bool :=
  x.fcsOk && x.padOk && x.ver == 1 && decide (x.flags < 4) && x.zero == 0 && x.scrc == crc32c (tgBytes x)

/-- Hold a copy for its partner, or none. -/
def State.tgPend (s : State) (t : Nat) (p : Option (Telegram × Nat)) : State :=
  (s.setTgConn t { s.tgConn t with pend := p }).putB F.SAF_TGSTAT_PEND p.isSome t

/-- `accept` of R358. -/
def State.tgAccept (s : State) (t : Nat) (x : Telegram) : State :=
  let u := (s.tgPend t none).put F.SAF_TGSEQ_LAST x.seq t
  let u := u.setTgConn t { u.tgConn t with accAt := some u.ct }
  ((u.put F.SAF_TGSTAT_STATE 2 t).put F.SAF_TGSTAT_TRIP (x.flags % 2) t).put F.SAF_TGSTAT_PERMIT (x.flags / 2 % 2) t

/-- `close_single` of R358. -/
def State.tgSingle (s : State) (t : Nat) (y : Telegram) : State :=
  let u := ((s.errInc F.SAF_TGCNT_SINGLES (1478 + 3 * t) t).pulse Ev.SAF_TG_SINGLE t).put F.SAF_TGSEQ_LAST y.seq t
  let v := u.tgPend t none
  if v.flag F.SAF_TGCFG_SINGLE t then v.tgAccept t y else v

/-- A valid copy on a connection (R358). -/
def State.tgCopy (s : State) (t port : Nat) (x : Telegram) : State :=
  if toSigned 32 ((x.seq + 2 ^ 32 - s.get F.SAF_TGSEQ_LAST t) % 2 ^ 32) ≤ 0 then s
  else
    let s1 := if x.flags % 2 = 1 then (s.pulse Ev.SAF_TG_TRIP t).setWhiteout 5 t else s
    match (s1.tgConn t).pend with
    | some (y, q) =>
      if y.seq = x.seq then
        if q = port then s1.errInc F.SAF_TGCNT_BAD (1479 + 3 * t) t
        else if tgBytes x = tgBytes y ∧ x.scrc = y.scrc then s1.tgAccept t x
        else
          let u := (s1.errInc F.SAF_TGCNT_DISAGREE (1480 + 3 * t) t).pulse Ev.SAF_TG_DISAGREE t
          ((u.setWhiteout 6 t).put F.SAF_TGSEQ_LAST x.seq t).tgPend t none
      else (s1.tgSingle t y).tgPend t (some (x, port))
    | none => s1.tgPend t (some (x, port))

/-- A copy arrives (R357) in a frame that the port accepted, or whose FCS failed (R367): one for another address is no telegram, one whose word fails parity on its way to the control island is discarded
(R35), and one that is wrong or names no enabled connection is invalid. -/
def State.tgIn (s : State) (port : Nat) (x : Telegram) : State :=
  if !s.portOn port || !(s.inFrame port 3 || !x.fcsOk) || !s.tgMine port x then s
  else if x.parity then s.xingBad
  else match s.tgFind x with
    | some t => if tgRight x ∧ s.flag F.SAF_TGCFG_EN t then s.tgCopy t port x
      else (s.errInc F.SAF_TGCNT_BAD (1479 + 3 * t) t).pulse Ev.SAF_TG_BAD t
    | none => s.pulse Ev.SAF_TG_BAD 0xFFFFFFFF

/-- TELEGRAM_COPY (R357, R358). -/
def execTelegramCopy (port : Fin 2) (copy : Telegram) (s : State) : Host.Outcome State Fault Refusal :=
  ((s.tgIn port.val copy).setRx port.val none).done

/-- The compare window of a held copy closes (R358). -/
def State.tgWindow (s : State) (t : Nat) : State :=
  match (s.tgConn t).pend with
  | some (y, _) => s.tgSingle t y
  | none => s

/-- TELEGRAM_WINDOW_EXPIRY (R358). -/
def execTelegramWindowExpiry (conn : Fin 4) (s : State) : Host.Outcome State Fault Refusal := (s.tgWindow conn.val).done

/-- WDT passes without an acceptance (R359). -/
def State.tgExpire (s : State) (t : Nat) : State :=
  if s.get F.SAF_TGSTAT_STATE t = 2 then
    ((s.put F.SAF_TGSTAT_STATE 3 t).pulse Ev.SAF_TG_WDT t).setWhiteout 7 t
  else s

/-- TELEGRAM_WATCHDOG_EXPIRY (R359). -/
def execTelegramWatchdogExpiry (conn : Fin 4) (s : State) : Host.Outcome State Fault Refusal := (s.tgExpire conn.val).done

/-! ### The logic copies -/

/-- LOGIC_COPY_DISAGREE (R361). -/
def execLogicCopyDisagree (s : State) : Host.Outcome State Fault Refusal :=
  (((s.put F.SAF_STAT_LOGICOK 0).setWhiteout 0xA 0).pulse Ev.SAF_LOGIC).done

end Sys2Proof.Machine
end

