-- ==== Sys2Proof/Machine/Dispatch.lean ====
section
/-! DEFINITION. One arm per command: a direct call of its meaning. -/

namespace Sys2Proof.Machine

/-- What a command does to everything but the queue. -/
def exec (i : Instr) (s : State) : Host.Outcome State Fault Refusal :=
  match i with
  | .powerOn headsel => Sys2Proof.Machine.execPowerOn headsel s
  | .resetNLow headsel => Sys2Proof.Machine.execResetNLow headsel s
  | .secResetGo path val => Sys2Proof.Machine.execSecResetGo path val s
  | .bootWatchdogExpiry => Sys2Proof.Machine.execBootWatchdogExpiry s
  | .tamperDetect causes => Sys2Proof.Machine.execTamperDetect causes s
  | .corePowerGoodLoss => Sys2Proof.Machine.execCorePowerGoodLoss s
  | .wipeComplete kind failed => Sys2Proof.Machine.execWipeComplete kind failed s
  | .pllLockExpiry pll => Sys2Proof.Machine.execPllLockExpiry pll s
  | .slotVerify => Sys2Proof.Machine.execSlotVerify s
  | .imageReadComplete ok => Sys2Proof.Machine.execImageReadComplete ok s
  | .imageCheckPass => Sys2Proof.Machine.execImageCheckPass s
  | .firstBoundary => Sys2Proof.Machine.execFirstBoundary s
  | .quadPowerUp quad => Sys2Proof.Machine.execQuadPowerUp quad s
  | .periodBoundary => Sys2Proof.Machine.execPeriodBoundary s
  | .inputSnapshot ecc => Sys2Proof.Machine.execInputSnapshot ecc s
  | .groupStopTimeout => Sys2Proof.Machine.execGroupStopTimeout s
  | .windowEnd => Sys2Proof.Machine.execWindowEnd s
  | .allocatorStart votes => Sys2Proof.Machine.execAllocatorStart votes s
  | .commandLaunch => Sys2Proof.Machine.execCommandLaunch s
  | .standbyInputCut => Sys2Proof.Machine.execStandbyInputCut s
  | .countWriteback => Sys2Proof.Machine.execCountWriteback s
  | .logEntryWrite => Sys2Proof.Machine.execLogEntryWrite s
  | .squallSummaryTick => Sys2Proof.Machine.execSquallSummaryTick s
  | .derateHoldExpiry => Sys2Proof.Machine.execDerateHoldExpiry s
  | .evtCntclrAll path => Sys2Proof.Machine.execEvtCntclrAll path s
  | .evtCntclrSrc path src => Sys2Proof.Machine.execEvtCntclrSrc path src s
  | .registerWrite path addr val parity => Sys2Proof.Machine.execRegisterWrite path addr val parity s
  | .bufferedWriteApply point => Sys2Proof.Machine.execBufferedWriteApply point s
  | .sysThaw path val => Sys2Proof.Machine.execSysThaw path val s
  | .thawTimeout path => Sys2Proof.Machine.execThawTimeout path s
  | .g2FirstWrite path addr val => Sys2Proof.Machine.execG2FirstWrite path addr val s
  | .g2ComplementWrite path addr val => Sys2Proof.Machine.execG2ComplementWrite path addr val s
  | .g2Timeout => Sys2Proof.Machine.execG2Timeout s
  | .txnBegin path => Sys2Proof.Machine.execTxnBegin path s
  | .txnCommit path updateRef => Sys2Proof.Machine.execTxnCommit path updateRef s
  | .txnRollback path => Sys2Proof.Machine.execTxnRollback path s
  | .txnIdleTimeout => Sys2Proof.Machine.execTxnIdleTimeout s
  | .txnAckTimeout => Sys2Proof.Machine.execTxnAckTimeout s
  | .cfgCrcPassStart => Sys2Proof.Machine.execCfgCrcPassStart s
  | .cfgCrcPassEnd => Sys2Proof.Machine.execCfgCrcPassEnd s
  | .sysFreezeGo path => Sys2Proof.Machine.execSysFreezeGo path s
  | .periodloRead path => Sys2Proof.Machine.execPeriodloRead path s
  | .lcRequest path val compl => Sys2Proof.Machine.execLcRequest path val compl s
  | .lcChangeReset => Sys2Proof.Machine.execLcChangeReset s
  | .keyopProvisionOwner path slot => Sys2Proof.Machine.execKeyopProvisionOwner path slot s
  | .keyopProvisionImage path slot => Sys2Proof.Machine.execKeyopProvisionImage path slot s
  | .keyopProvisionNetwork path slot => Sys2Proof.Machine.execKeyopProvisionNetwork path slot s
  | .keyopRevokeOwner path slot => Sys2Proof.Machine.execKeyopRevokeOwner path slot s
  | .keyopRevokeImage path slot => Sys2Proof.Machine.execKeyopRevokeImage path slot s
  | .keyopRaiseSvn path => Sys2Proof.Machine.execKeyopRaiseSvn path s
  | .keyopClearKeybuf path => Sys2Proof.Machine.execKeyopClearKeybuf path s
  | .attestGo path => Sys2Proof.Machine.execAttestGo path s
  | .attestDone => Sys2Proof.Machine.execAttestDone s
  | .nvmErase path addr => Sys2Proof.Machine.execNvmErase path addr s
  | .nvmProgram path addr => Sys2Proof.Machine.execNvmProgram path addr s
  | .nvmRead path addr => Sys2Proof.Machine.execNvmRead path addr s
  | .nvmOperationDone ok => Sys2Proof.Machine.execNvmOperationDone ok s
  | .secReleaseGo path val => Sys2Proof.Machine.execSecReleaseGo path val s
  | .resignHoldTimeout => Sys2Proof.Machine.execResignHoldTimeout s
  | .dmlEnWrite path lane en => Sys2Proof.Machine.execDmlEnWrite path lane en s
  | .dmlRestart path lane en => Sys2Proof.Machine.execDmlRestart path lane en s
  | .laneWaitExpiry lane => Sys2Proof.Machine.execLaneWaitExpiry lane s
  | .blockLockAcquired lane errors => Sys2Proof.Machine.execBlockLockAcquired lane errors s
  | .blockLockLost lane errors => Sys2Proof.Machine.execBlockLockLost lane errors s
  | .ownIdleReturn lane origin num gen => Sys2Proof.Machine.execOwnIdleReturn lane origin num gen s
  | .laneLinktoExpiry lane => Sys2Proof.Machine.execLaneLinktoExpiry lane s
  | .laneRetryWaitExpiry lane => Sys2Proof.Machine.execLaneRetryWaitExpiry lane s
  | .retryClearExpiry lane => Sys2Proof.Machine.execRetryClearExpiry lane s
  | .gatherFrameReceive lane frame => Sys2Proof.Machine.execGatherFrameReceive lane frame s
  | .haloGo path lane dwell => Sys2Proof.Machine.execHaloGo path lane dwell s
  | .haloStop path lane dwell => Sys2Proof.Machine.execHaloStop path lane dwell s
  | .haloComplete lane errors => Sys2Proof.Machine.execHaloComplete lane errors s
  | .xlAlignFrame lane head m16 role => Sys2Proof.Machine.execXlAlignFrame lane head m16 role s
  | .xlInputFrame frame => Sys2Proof.Machine.execXlInputFrame frame s
  | .xlStateFrame frame => Sys2Proof.Machine.execXlStateFrame frame s
  | .xlCopyFrame seg entries last => Sys2Proof.Machine.execXlCopyFrame seg entries last s
  | .xlRegFrame seg entries => Sys2Proof.Machine.execXlRegFrame seg entries s
  | .xlCtrlResign seg => Sys2Proof.Machine.execXlCtrlResign seg s
  | .xlCtrlSwap seg boundary => Sys2Proof.Machine.execXlCtrlSwap seg boundary s
  | .xlBothLost => Sys2Proof.Machine.execXlBothLost s
  | .cellStart path cell => Sys2Proof.Machine.execCellStart path cell s
  | .cellStop path cell => Sys2Proof.Machine.execCellStop path cell s
  | .cellBypass path cell => Sys2Proof.Machine.execCellBypass path cell s
  | .cellRelease path cell => Sys2Proof.Machine.execCellRelease path cell s
  | .groupStart path => Sys2Proof.Machine.execGroupStart path s
  | .groupStop path => Sys2Proof.Machine.execGroupStop path s
  | .prechargeTimeout cell => Sys2Proof.Machine.execPrechargeTimeout cell s
  | .stagingResendTimeout cell => Sys2Proof.Machine.execStagingResendTimeout cell s
  | .ceClrSatlast path => Sys2Proof.Machine.execCeClrSatlast path s
  | .ceClrMaxfin path => Sys2Proof.Machine.execCeClrMaxfin path s
  | .traceArm path mask => Sys2Proof.Machine.execTraceArm path mask s
  | .traceStop path mask => Sys2Proof.Machine.execTraceStop path mask s
  | .traceSwTrigger path val => Sys2Proof.Machine.execTraceSwTrigger path val s
  | .traceHalfSpill chan accepted => Sys2Proof.Machine.execTraceHalfSpill chan accepted s
  | .lvsCmpHostWrite path chan val atReload => Sys2Proof.Machine.execLvsCmpHostWrite path chan val atReload s
  | .lvsForceGo path => Sys2Proof.Machine.execLvsForceGo path s
  | .lvsForceRelease path => Sys2Proof.Machine.execLvsForceRelease path s
  | .pwmPeriodWrap chan => Sys2Proof.Machine.execPwmPeriodWrap chan s
  | .tripLineActive line => Sys2Proof.Machine.execTripLineActive line s
  | .tripLineClear path line => Sys2Proof.Machine.execTripLineClear path line s
  | .shootTripClear path pair => Sys2Proof.Machine.execShootTripClear path pair s
  | .faultActive pair => Sys2Proof.Machine.execFaultActive pair s
  | .blankingEnd pair => Sys2Proof.Machine.execBlankingEnd pair s
  | .holdRelease => Sys2Proof.Machine.execHoldRelease s
  | .faultClear path mask => Sys2Proof.Machine.execFaultClear path mask s
  | .readyFall pair => Sys2Proof.Machine.execReadyFall pair s
  | .pumpStart path => Sys2Proof.Machine.execPumpStart path s
  | .pumpStop path => Sys2Proof.Machine.execPumpStop path s
  | .pumpDiagStepEnd low high => Sys2Proof.Machine.execPumpDiagStepEnd low high s
  | .pumpTbootExpiry => Sys2Proof.Machine.execPumpTbootExpiry s
  | .pumpStartholdReached => Sys2Proof.Machine.execPumpStartholdReached s
  | .pumpStarttoExpiry => Sys2Proof.Machine.execPumpStarttoExpiry s
  | .hallChange code bootLow => Sys2Proof.Machine.execHallChange code bootLow s
  | .hallInvalidTimeout => Sys2Proof.Machine.execHallInvalidTimeout s
  | .pumpOvercurrent => Sys2Proof.Machine.execPumpOvercurrent s
  | .pumpStallTimeout => Sys2Proof.Machine.execPumpStallTimeout s
  | .pumpVmMeasure vm => Sys2Proof.Machine.execPumpVmMeasure vm s
  | .brkmaxExpiry => Sys2Proof.Machine.execBrkmaxExpiry s
  | .retryWaitExpiry chan => Sys2Proof.Machine.execRetryWaitExpiry chan s
  | .retryCleanExpiry chan => Sys2Proof.Machine.execRetryCleanExpiry chan s
  | .retryClear path mask => Sys2Proof.Machine.execRetryClear path mask s
  | .fastSample j codes ready => Sys2Proof.Machine.execFastSample j codes ready s
  | .fastResultDeadline => Sys2Proof.Machine.execFastResultDeadline s
  | .hkScanStart => Sys2Proof.Machine.execHkScanStart s
  | .hkConversionDone entry chan code => Sys2Proof.Machine.execHkConversionDone entry chan code s
  | .hkScanTimeout => Sys2Proof.Machine.execHkScanTimeout s
  | .testDacGo path hk chan code => Sys2Proof.Machine.execTestDacGo path hk chan code s
  | .testDacStop path => Sys2Proof.Machine.execTestDacStop path s
  | .testDacCheckDone parity => Sys2Proof.Machine.execTestDacCheckDone parity s
  | .comparatorRawChange win upper input => Sys2Proof.Machine.execComparatorRawChange win upper input s
  | .windowOutputChange win upper level => Sys2Proof.Machine.execWindowOutputChange win upper level s
  | .windowEnable win => Sys2Proof.Machine.execWindowEnable win s
  | .windowLatchClear path win latu latl => Sys2Proof.Machine.execWindowLatchClear path win latu latl s
  | .aonComparatorChange comp strobes => Sys2Proof.Machine.execAonComparatorChange comp strobes s
  | .resignIChange level => Sys2Proof.Machine.execResignIChange level s
  | .electTimeout => Sys2Proof.Machine.execElectTimeout s
  | .conflictTimeout => Sys2Proof.Machine.execConflictTimeout s
  | .padStrobeTimeout => Sys2Proof.Machine.execPadStrobeTimeout s
  | .resign cond => Sys2Proof.Machine.execResign cond s
  | .takeover => Sys2Proof.Machine.execTakeover s
  | .redModeWrite path val compl => Sys2Proof.Machine.execRedModeWrite path val compl s
  | .redResync path => Sys2Proof.Machine.execRedResync path s
  | .redSwap path => Sys2Proof.Machine.execRedSwap path s
  | .swapageDue => Sys2Proof.Machine.execSwapageDue s
  | .sliceReintegrated slice => Sys2Proof.Machine.execSliceReintegrated slice s
  | .whiteout cause => Sys2Proof.Machine.execWhiteout cause s
  | .safWoreq path => Sys2Proof.Machine.execSafWoreq path s
  | .safReset path => Sys2Proof.Machine.execSafReset path s
  | .testPulse src low => Sys2Proof.Machine.execTestPulse src low s
  | .testPulseCheck input chanB pass => Sys2Proof.Machine.execTestPulseCheck input chanB pass s
  | .safeInputChange input chanB high => Sys2Proof.Machine.execSafeInputChange input chanB high s
  | .discrepancyTimeout input => Sys2Proof.Machine.execDiscrepancyTimeout input s
  | .telegramCopy port copy => Sys2Proof.Machine.execTelegramCopy port copy s
  | .telegramWindowExpiry conn => Sys2Proof.Machine.execTelegramWindowExpiry conn s
  | .telegramWatchdogExpiry conn => Sys2Proof.Machine.execTelegramWatchdogExpiry conn s
  | .logicCopyDisagree => Sys2Proof.Machine.execLogicCopyDisagree s
  | .netLinkChange port up => Sys2Proof.Machine.execNetLinkChange port up s
  | .netFrameReceive port frame => Sys2Proof.Machine.execNetFrameReceive port frame s
  | .ptpSyncSample domain sample => Sys2Proof.Machine.execPtpSyncSample domain sample s
  | .ptpAnnounce domain ann => Sys2Proof.Machine.execPtpAnnounce domain ann s
  | .ptpAnnounceTimeout domain => Sys2Proof.Machine.execPtpAnnounceTimeout domain s
  | .ptpPdelayReq port req => Sys2Proof.Machine.execPtpPdelayReq port req s
  | .ptpSelect path sel => Sys2Proof.Machine.execPtpSelect path sel s
  | .ptpArmstep path => Sys2Proof.Machine.execPtpArmstep path s
  | .periodLockSettled => Sys2Proof.Machine.execPeriodLockSettled s
  | .toutArm path out => Sys2Proof.Machine.execToutArm path out s
  | .toutStop path out => Sys2Proof.Machine.execToutStop path out s
  | .toutTargetReached out => Sys2Proof.Machine.execToutTargetReached out s
  | .gooseReceive msg => Sys2Proof.Machine.execGooseReceive msg s
  | .gooseTalExpiry sub => Sys2Proof.Machine.execGooseTalExpiry sub s
  | .svReceive msg => Sys2Proof.Machine.execSvReceive msg s
  | .gooseRetransmit pub => Sys2Proof.Machine.execGooseRetransmit pub s
  | .rapOpen req => Sys2Proof.Machine.execRapOpen req s
  | .rapRead msg => Sys2Proof.Machine.execRapRead msg s
  | .rapReadFixed msg => Sys2Proof.Machine.execRapReadFixed msg s
  | .rapWrite msg => Sys2Proof.Machine.execRapWrite msg s
  | .rapWriteFixed msg => Sys2Proof.Machine.execRapWriteFixed msg s
  | .rapKeepalive msg => Sys2Proof.Machine.execRapKeepalive msg s
  | .rapClose msg => Sys2Proof.Machine.execRapClose msg s
  | .rapIdleTimeout session => Sys2Proof.Machine.execRapIdleTimeout session s
  | .recorderArm path rec => Sys2Proof.Machine.execRecorderArm path rec s
  | .recorderStop path rec => Sys2Proof.Machine.execRecorderStop path rec s
  | .recorderForce path rec => Sys2Proof.Machine.execRecorderForce path rec s
  | .recorderTrigger rec tofs => Sys2Proof.Machine.execRecorderTrigger rec tofs s
  | .recorderHoldoffExpiry rec => Sys2Proof.Machine.execRecorderHoldoffExpiry rec s
  | .recorderPostComplete rec => Sys2Proof.Machine.execRecorderPostComplete rec s
  | .maskViolation mask row => Sys2Proof.Machine.execMaskViolation mask row s
  | .pageEviction rec => Sys2Proof.Machine.execPageEviction rec s
  | .acqOverrun => Sys2Proof.Machine.execAcqOverrun s
  | .calGo path => Sys2Proof.Machine.execCalGo path s
  | .calComplete skews => Sys2Proof.Machine.execCalComplete skews s
  | .wmapClaim path slot page => Sys2Proof.Machine.execWmapClaim path slot page s
  | .wmapRelease path slot => Sys2Proof.Machine.execWmapRelease path slot s
  | .dirProtect path => Sys2Proof.Machine.execDirProtect path s
  | .dirUnprotect path => Sys2Proof.Machine.execDirUnprotect path s
  | .dirDelete path => Sys2Proof.Machine.execDirDelete path s
  | .mapSnap path => Sys2Proof.Machine.execMapSnap path s
  | .mapSnapDone => Sys2Proof.Machine.execMapSnapDone s
  | .mapClr path => Sys2Proof.Machine.execMapClr path s
  | .clockAlarm clk dev => Sys2Proof.Machine.execClockAlarm clk dev s
  | .pllRecoveryDone clk => Sys2Proof.Machine.execPllRecoveryDone clk s
  | .clkoutConfigApply out => Sys2Proof.Machine.execClkoutConfigApply out s
  | .dieSensorRead readings => Sys2Proof.Machine.execDieSensorRead readings s
  | .extDiodeRead readings => Sys2Proof.Machine.execExtDiodeRead readings s
  | .netTimeloRead path => Sys2Proof.Machine.execNetTimeloRead path s
  | .clkRtcloRead path => Sys2Proof.Machine.execClkRtcloRead path s
  | .commandFrameTerminate lane recs => Sys2Proof.Machine.execCommandFrameTerminate lane recs s
  | .pwmCompareMatch chan => Sys2Proof.Machine.execPwmCompareMatch chan s
  | .deadTimeExpiry pair high => Sys2Proof.Machine.execDeadTimeExpiry pair high s
  | .pumpPwmWrap => Sys2Proof.Machine.execPumpPwmWrap s
  | .chopTonminExpiry chop => Sys2Proof.Machine.execChopTonminExpiry chop s
  | .faultRelease pair => Sys2Proof.Machine.execFaultRelease pair s
  | .readyRise pair => Sys2Proof.Machine.execReadyRise pair s
  | .tripLineInactive line => Sys2Proof.Machine.execTripLineInactive line s
  | .toutPulseEnd out => Sys2Proof.Machine.execToutPulseEnd out s
  | .keyopComplete => Sys2Proof.Machine.execKeyopComplete s
  | .hspiReset => Sys2Proof.Machine.execHspiReset s

end Sys2Proof.Machine
end

