-- ==== Sys2Proof/Machine/Tick.lean ====
section
/-! DEFINITION. What time alone does: one control tick (CT, R33), which the block takes when no command waits. -/

namespace Sys2Proof.Machine

/-- One control tick passes: what is of one tick alone ends (R51), and a pair whose two drives still clash is rejected for one more tick (R264). -/
def State.tick (s : State) : State :=
  let t : State := { s with
    ct := s.ct + 1, ctRegs := s.regs, ctEvt := s.evt.regs, evt := { s.evt with nowOcc := [], nowLog := 0 }, gdi := { s.gdi with nowAct := [], nowClr := [] }
    net := { s.net with egress := [] } }
  ((List.range 16).foldl (fun (u : State) n => if (u.chan n).rejNow then u.rejectCt n else u) t).settle

end Sys2Proof.Machine
end

