-- ==== Sys2Proof/Safety.lean ====
section
/-! DEFINITION. What the claims ask of a state: canonical maps, nothing left over of a command, and a path whose writes meet no refusal
but the register's own. -/

namespace Sys2Proof.Machine

/-- The register files and the memories stand in their canonical form: keys strictly rising, no entry equal to what an unlisted key
reads as. -/
structure State.Canon (s : State) : Prop where
  regs : Sparse.wf resetWord s.regs = true
  evt : Sparse.wf resetWord s.evt.regs = true
  mram : Sparse.wf (fun _ => (0 : Byte)) s.mram = true
  flash : Sparse.wf (fun _ => (0xFF : Byte)) s.flash = true
  dram : Sparse.wf (fun _ => (0 : Byte)) s.dram = true

/-- Nothing of the last command waits: every occurrence is counted, every whiteout and resign it asked for is carried out, and every
notification has left. -/
def State.Quiet (s : State) : Prop := s.evt.raised = [] ∧ s.evt.woReq = none ∧ s.evt.resignReq = none ∧ s.evt.notifies = []

/-- A head in RUN outside RETIRED and RMA that is no standby, with a path that exists and owns no poisoned transaction, no G2 value
held, and room in the REG segment (R58, R69, R74, R108, R119, R125, R325, R329). -/
structure State.Ready (s : State) (path : Nat) : Prop where
  run : s.get F.SEC_STATE_HSTATE = 2
  life : s.otp.lcs ≤ 2
  lead : s.get F.RED_STAT_ROLE = 0 ∨ s.get F.RED_STAT_ROLE = 2
  on : s.pathOn path = true
  g2 : s.bus.g2 = none
  clean : s.poisoned path = false
  room : s.regFull = false ∧ s.bus.waiting = []
  quiet : s.Quiet

/-- Outside a hold the pins of a channel show its drives after the forces, unless it is held low or both are commanded high (R262, R264). -/
def State.ShowsDrives (s : State) (n : Nat) : Prop :=
  s.frozen n = false → (s.chan n).outH = (!s.heldLow n && (s.drives n).1 && !(s.drives n).2) ∧
    (s.chan n).outL = (!s.heldLow n && (s.drives n).2 && !(s.drives n).1)

/-- The pump is not LATCHED, and no clear of its latch was accepted in this control tick (R292, R293). -/
def State.PumpFree (s : State) : Prop :=
  s.puState ≠ pumpLatched ∧ s.flag F.GDI_RETRYSTAT_LATCHED 0 = false ∧ ∀ y ∈ s.gdi.nowClr, y.1 ≠ (3, 0)

/-- `u` shows what a pump fault does to a pump of `s` (R282, R288, R291 to R293): the code, EV_PU_FAULT, no high side on, no request left in
the start queue, and the units of an abandoned start due to return. A pump that is not LATCHED counts a try and is LATCHED or in WAIT by
TRIES; one that is, or was cleared in the same control tick, is LATCHED. -/
structure State.PumpFaulted (s u : State) (code : Nat) (c0 : Nat := 0) : Prop where
  last : u.get F.GDI_PUSTAT_LASTFAULT = code
  told : (Ev.PU_FAULT, BitVec.ofNat 32 c0, BitVec.ofNat 32 code) ∈ u.evt.raised
  count : s.PumpFree → u.get F.GDI_RETRYSTAT_COUNT 0 = min (s.get F.GDI_RETRYSTAT_COUNT 0 + 1) 15
  latches : s.PumpFree → s.get F.GDI_RETRYCFG_TRIES 0 ≤ u.get F.GDI_RETRYSTAT_COUNT 0 →
    u.puState = pumpLatched ∧ u.get F.GDI_RETRYSTAT_LATCHED 0 = 1 ∧ (Ev.PU_LATCH, 0, BitVec.ofNat 32 s.ctcnt) ∈ u.evt.raised
  waits : s.PumpFree → u.get F.GDI_RETRYSTAT_COUNT 0 < s.get F.GDI_RETRYCFG_TRIES 0 →
    u.puState = pumpWait ∧ u.get F.GDI_RETRYSTAT_WAITING 0 = 1
  stays : ¬ s.PumpFree → u.puState = pumpLatched
  off : u.pumpGates.1 = 0
  queue : u.budget.queue = s.budget.queue.filter fun r => !r.pump
  units : pumpBusyState s.puState = true → u.pump.unitBack = true
  first : s.flag F.GDI_FIRST_VALID = false → u.get F.GDI_FIRST_CLASS = 7 ∧ u.get F.GDI_FIRST_INDEX = code

/-- `u` is `s` with the whiteout latch set by a cause (R345, R346): the class is collected, and the first cause of all is recorded with its
time, raises EV_SAF_WHITEOUT and drives every LV channel low until a reload. A reset accepted in the same control tick is refused after all
(R349). -/
structure State.WhitedOut (s u : State) (cls idx : Nat) : Prop where
  latched : u.whiteout = true
  causes : u.get F.SAF_STAT_CAUSES = if s.whiteout then setBit (s.get F.SAF_STAT_CAUSES) (cls - 1) true else 2 ^ (cls - 1)
  keeps : s.whiteout = true → u.rd R.SAF_WOCAUSE.base = s.rd R.SAF_WOCAUSE.base ∧ u.rd R.SAF_WOTIME.base = s.rd R.SAF_WOTIME.base
  first : s.whiteout = false → u.get F.SAF_WOCAUSE_CLASS = cls ∧ u.get F.SAF_WOCAUSE_INDEX = idx ∧
    u.get F.SAF_WOTIME_CT = s.ctcnt ∧ (Ev.SAF_WHITEOUT, BitVec.ofNat 32 cls, BitVec.ofNat 32 idx) ∈ u.evt.raised
  low : s.whiteout = false → ∀ n < 18, (u.chan n).outH = false ∧ (u.chan n).outL = false ∧ (u.chan n).restart = true
  noReset : u.saf.resetAt = false ∧ u.saf.demandAt = some s.ct
  rejects : s.saf.resetAt = true → s.saf.resetCt = s.ct → u.get F.SAF_STAT_RST_REJ = 1

/-- `u` is `s` after a resign condition with a cause code (R82, R124, R332, R333, R347): every output is off, the pad is released, a
transaction before its point of no return is aborted, and a duplex head is RESIGNED, while another latches whiteout and sends block-all
frames for two periods more. -/
structure State.Resigns (s u : State) (cause src : Nat) : Prop where
  told : (Ev.RED_RESIGN, BitVec.ofNat 32 (if cause = 0x87 then src else 0), BitVec.ofNat 32 cause) ∈ u.evt.raised
  code : u.get F.SEC_RESIGN_CAUSE = cause
  low : ∀ n < 18, (u.chan n).outH = false ∧ (u.chan n).outL = false
  gates : u.pumpGates = (0, 0)
  pad : u.red.pad = false ∧ u.red.swapAt = none ∧ u.red.takeDue = false
  txn : s.txBusy = true → s.txState ≠ txRef → s.bus.txn.passed = false → u.txState = txAborted ∧ u.get F.SYS_TXNSTAT_CAUSE = 6
  simplex : s.duplex = false → u.get F.SEC_STATE_HSTATE = 2 ∧ u.whiteout = true ∧ u.sec.holdFrames = some 2
  duplex : s.duplex = true → u.get F.SEC_STATE_HSTATE = 3 ∧ u.role = roleResigned ∧
    u.get F.SEC_RESIGN_LEFT = s.get F.SEC_RESIGNTO_SEC ∧ u.sec.resignedAt = s.ct
  alone : s.duplex = true → s.role = roleActive → s.red.sentReady = false → u.whiteout = true

/-- `u` is `s` after recorder `k`, which fills entry `e` with record `r`, has taken a trigger (R397 to R400, R404, R405): it follows the
trigger, the instant is shown, EV_ACQ_TRIG names the record, and where no other recorder runs the record stands listed with it. -/
structure State.RecFired (s u : State) (k e : Nat) (r : Record) (cond per j tofs qual : Nat) : Prop where
  post : u.rState k = 3 ∨ u.rState k = 4
  told : (Ev.ACQ_TRIG, BitVec.ofNat 32 k, BitVec.ofNat 32 (if r.listed then r.recid else s.get F.ACQ_RECID_NEXT)) ∈ u.evt.raised
  period : u.get F.ACQ_RTRIG_PERIOD k = per % 2 ^ 32
  pos : u.rd (F.ACQ_RTPOS_COND.addr k) = BitVec.ofNat 32 (cond * 2 ^ 30 + qual * 2 ^ 28 + j * 65536 + tofs)
  held : (u.rcr k).entry = some e
  record : (∀ m < 8, m ≠ k → s.rState m = 0) → ∃ x, u.recEntry e = some x ∧ x.listed = true ∧ x.src = r.src ∧ x.period = per ∧
    x.recid = (if r.listed then r.recid else s.get F.ACQ_RECID_NEXT) ∧
    x.preRows = min (s.rowPlan k per j).trig (s.get F.ACQ_RPRE_PRE k) ∧ x.tRow = x.preRows ∧
    x.shortPre = decide (x.preRows < s.get F.ACQ_RPRE_PRE k)

/-- `u` is `s` after recorder `k` has closed record `r` in entry `e` with a cause, 0 when it is complete (R400, R401, R404, R407): the record
counts, exactly one of DONE and ABORTED is set, a truncated one raises EV_ACQ_TRUNC, and a recorder left IDLE leaves it closed. -/
structure State.RecClosed (s u : State) (k e : Nat) (r : Record) (cause : Nat) : Prop where
  last : u.get F.ACQ_RLAST_RECID k = r.recid % 2 ^ 32
  count : u.get F.ACQ_RSTAT_RECORDS k = min (s.get F.ACQ_RSTAT_RECORDS k + 1) 0xFFFF
  done : u.flag F.ACQ_RSTAT_DONE k = (cause != 2) ∧ u.flag F.ACQ_RSTAT_ABORTED k = (cause == 2)
  told : cause ≠ 0 → (Ev.ACQ_TRUNC, BitVec.ofNat 32 r.src, BitVec.ofNat 32 r.recid) ∈ u.evt.raised
  shut : u.rState k = 0 → ∃ x, u.recEntry e = some x ∧ x.opened = false ∧ x.complete = (cause == 0) ∧ x.tcause = cause ∧
    x.recid = r.recid ∧ x.prot = (r.prot || r.protClose)

/-- The fuses, the flash and the contents of MRAM and DRAM are as before. -/
structure State.SameStore (s t : State) : Prop where
  otp : t.otp = s.otp
  mram : t.mram = s.mram
  flash : t.flash = s.flash
  dram : t.dram = s.dram

/-- `t` is the head after a reset with a cause (R46, R47, R93, R116): `s` is the state whose fuses, flash, MRAM and always-on domain
live on. Every register but those of the cause, the head's state, the role, the transaction and the access status reads its reset value,
the counts come back from MRAM, the boot is counted and the log holds one marker entry. -/
structure State.ResetFrom (s t : State) (cause : Nat) : Prop where
  rstcause : t.get F.SEC_RSTCAUSE_CAUSE = cause
  hstate : t.get F.SEC_STATE_HSTATE = 0
  lcs : s.otp.lcs < 8 → t.get F.SEC_STATE_LCS = s.otp.lcs
  head : t.flag F.RED_STAT_HEADID = t.pins.headsel
  regs : ∀ a, a ∉ [R.SEC_RSTCAUSE.base, R.SEC_STATE.base, R.RED_STAT.base, R.SYS_TXNSTAT.base, R.SYS_WRSTAT.base] →
    t.rd a = resetWord a
  counts : ∀ e < 1024, t.evt.get F.EVT_CNT_CNT e = leValue (s.mramGet (0x1000 + 4 * e) 4)
  marker : ∃ m, t.evt.queue = [m] ∧ m.ev = 0x3FF ∧ m.typ = 2 ∧ m.ctx0 = BitVec.ofNat 32 cause
  boot : t.nv.bootCnt = satInc 0xFFFFFFFF s.nv.bootCnt
  kept : t.otp = s.otp ∧ t.mram = s.mram ∧ t.flash = s.flash
  aon : { t.aon with rtc := 0 } = { s.aon with rtc := 0 }
  gone : t.dram = [] ∧ t.lanes = [] ∧ t.cells = [] ∧ t.chans = [] ∧ t.boot = {} ∧ t.sec = {} ∧ t.img = {} ∧ t.pump = {} ∧
    t.period = 0
  queue : t.pending = s.pending

end Sys2Proof.Machine
end

