-- ==== Sys2Proof/Certificates/Slice0/Obligations.lean ====
section
/-! DEFINITION. The statements for the provers. -/

open Sys2Proof Sys2Proof.Machine

/-! ### The queue, the tick and reset -/

/-- A step takes the command at the front of the queue and carries it out with the queue's rest. Rests on: INDEX.md (the
commands), notes/assumptions/1.md. -/
def Obligations.StepRunsTheFrontCommand : Prop :=
  ∀ (c : Instr) (rest : List Instr) (s : State), step { s with pending := c :: rest } = exec c { s with pending := rest }

/-- With no command waiting, one control tick passes and only the notes of the old tick end with it. Rests on: 00_scope.md R3,
02_control_period.md R51, 03_register_model.md R90, notes/assumptions/2.md. -/
def Obligations.IdleStepIsOneControlTick : Prop :=
  ∀ s : State, s.pending = [] → s.Quiet → (∀ n < 16, (s.chan n).rejNow = false) → step s =
    .next { s with
      ct := s.ct + 1, ctRegs := s.regs, ctEvt := s.evt.regs, evt := { s.evt with nowOcc := [], nowLog := 0 }
      gdi := { s.gdi with nowAct := [], nowClr := [] }, net := { s.net with egress := [] } }

/-- No table word spells a command, and placing one changes nothing. Rests on: spec/opcode_table.json (no row gives bits),
notes/assumptions/1.md. -/
def Obligations.TableWordsSpellNoCommand : Prop :=
  (∀ nbits w : Nat, decodeTableWord nbits w = none) ∧ ∀ (s : State) (nbits w : Nat), s.withFetchWord nbits w = s

/-- After power-on every register but the reset cause and the log number reads its reset value, and the state is canonical and
quiet. Rests on: 03_register_model.md R60, 04_image_and_lifecycle.md R93, 19_address_map.md R456, notes/assumptions/4.md. -/
def Obligations.ResetStateReadsTheResetValues : Prop :=
  State.reset.get F.SEC_RSTCAUSE_CAUSE = 1 ∧ State.reset.get F.SEC_STATE_HSTATE = 0 ∧ State.reset.otp.lcs = 0 ∧
    (∀ a, a ≠ R.SEC_RSTCAUSE.base → State.reset.rd a = resetWord a) ∧
    (∀ a, a ≠ R.EVT_LOGSEQ.base → State.reset.evt.rd a = resetWord a) ∧ State.reset.rd R.CLK_MONCFG.base = 0x00640005 ∧
    State.reset.mram = [] ∧ State.reset.flash = [] ∧ State.reset.dram = [] ∧ State.reset.pending = [] ∧ State.reset.Canon ∧ State.reset.Quiet

/-- Every step keeps the register files and the memories in their canonical form. Rests on: 03_register_model.md R63,
04_image_and_lifecycle.md R116, 16_acquisition.md R404. -/
def Obligations.EveryStepKeepsTheCanonicalForm : Prop :=
  ∀ s t : State, s.Canon → step s = .next t → t.Canon

/-- Every command completes from every state and leaves the queue as it is, so that a step takes exactly one command off it.
Rests on: INDEX.md (the commands), notes/assumptions/1.md. -/
def Obligations.EveryCommandLeavesTheRestOfTheQueue : Prop :=
  (∀ (c : Instr) (s : State), ∃ t : State, exec c s = .next t ∧ t.pending = s.pending) ∧
    ∀ (s : State) (c : Instr) (rest : List Instr), s.pending = c :: rest → ∃ t : State, step s = .next t ∧ t.pending = rest

/-- Only key operations and the life-cycle change touch the fuses, and only the end of a flash operation touches the flash.
Rests on: 04_image_and_lifecycle.md R119, 04_image_and_lifecycle.md R121, 04_image_and_lifecycle.md R122,
04_image_and_lifecycle.md R134. -/
def Obligations.FusesAndFlashChangeOnlyByTheirOwnCommands : Prop :=
  ∀ (c : Instr) (s t : State), exec c s = .next t →
    (c ≠ .keyopComplete → c ≠ .lcChangeReset → (c = .slotVerify → s.nv.wipePending = none) → t.otp = s.otp) ∧ ((∀ ok, c ≠ .nvmOperationDone ok) → t.flash = s.flash)

/-! ### Resets, boot and life cycle -/

/-- POWER_ON, RESET_N_LOW, BOOT_WATCHDOG_EXPIRY, TAMPER_DETECT and RESIGN_HOLD_TIMEOUT reset the head with their causes and keep
what a reset keeps. Rests on: 04_image_and_lifecycle.md R93, 04_image_and_lifecycle.md R116, 04_image_and_lifecycle.md R126,
04_image_and_lifecycle.md R132, 18_package_electrical.md R443, 02_control_period.md R47. -/
def Obligations.ResetCausesLeaveTheResetState : Prop :=
  ∀ s : State,
    (∀ h, ∃ t : State, exec (.powerOn h) s = .next t ∧ s.ResetFrom t 1 ∧ t.pins.headsel = h) ∧
    (∀ h, ∃ t : State, exec (.resetNLow h) s = .next t ∧ s.ResetFrom t 2 ∧ t.pins.headsel = h) ∧
    (s.get F.SEC_STATE_HSTATE ≤ 1 → ∃ t : State, exec .bootWatchdogExpiry s = .next t ∧ s.ResetFrom t 4) ∧
    (2 ≤ s.get F.SEC_STATE_HSTATE → s.Quiet → exec .bootWatchdogExpiry s = .next s) ∧
    (∀ c : BitVec 3, c ≠ 0 → 2 ≤ s.get F.SEC_STATE_HSTATE ∧ s.get F.SEC_STATE_HSTATE ≤ 3 → ∃ t : State,
      exec (.tamperDetect c) s = .next t ∧
      ({ s with aon := { s.aon with tamper := s.aon.tamper ||| c.toNat, tamperNew := true } } : State).ResetFrom t 5) ∧
    (∀ c : BitVec 3, c &&& 6 ≠ 0 → s.get F.SEC_STATE_HSTATE ≤ 1 ∨ s.get F.SEC_STATE_HSTATE = 4 → ∃ t : State,
      exec (.tamperDetect c) s = .next t ∧
      ({ s with aon := { s.aon with tamper := s.aon.tamper ||| (c &&& 6).toNat, tamperNew := true } } : State).ResetFrom t 5) ∧
    (s.get F.SEC_STATE_HSTATE ≤ 1 ∨ s.get F.SEC_STATE_HSTATE = 4 → s.Quiet → exec (.tamperDetect 1) s = .next s) ∧
    (s.get F.SEC_STATE_HSTATE = 3 → s.get F.SEC_RESIGN_NOTO = 0 → ∃ t : State, exec .resignHoldTimeout s = .next t ∧ s.ResetFrom t 7) ∧
    (s.get F.SEC_RESIGN_NOTO = 1 → s.Quiet → exec .resignHoldTimeout s = .next s)

/-- SEC_RESET_GO and SEC_RELEASE_GO reset with causes 3 and 7, and LC_CHANGE_RESET advances the life cycle, wipes MRAM and
resets with cause 6. Rests on: 04_image_and_lifecycle.md R121, 04_image_and_lifecycle.md R126, 04_image_and_lifecycle.md R127,
04_image_and_lifecycle.md R135. -/
def Obligations.ResetsFromRegistersAndTheLifeCycleChange : Prop :=
  (∀ (s : State) (path : Path), s.Ready path → s.thawed path → ∃ t : State, exec (.secResetGo path 1) s = .next (t.noteCode path .ok) ∧
    (s.writeSummary 3).ResetFrom t 3) ∧
  (∀ (s : State) (path : Path), s.Quiet → s.get F.SEC_STATE_HSTATE = 3 → s.otp.lcs ≤ 2 → s.pathOn path = true → s.bus.g2 = none →
    s.bus.waiting = [] → s.regFull = false → s.poisoned path = false → s.thawed path → ∃ t : State, exec (.secReleaseGo path 1) s = .next (t.noteCode path .ok) ∧ s.ResetFrom t 7) ∧
  (∀ (s : State) (l : Nat), s.sec.lcTarget = some l → ∃ t : State, exec .lcChangeReset s = .next t ∧
    t.get F.SEC_RSTCAUSE_CAUSE = 6 ∧ t.get F.SEC_STATE_HSTATE = 0 ∧ t.otp.lcs = l ∧ t.mram = [] ∧ t.nv.netKeys = [] ∧ t.nv.wipePending = none ∧ t.nv.lcMirror = l ∧
    t.flash = s.flash ∧ t.sec.lcTarget = none ∧
    (l = 3 → t.otp.destroyed = true ∧ (∀ n < 4, Sparse.get (fun _ => []) t.otp.owner n = List.replicate 96 0xFF) ∧
      (∀ n < 2, Sparse.get (fun _ => []) t.otp.image n = List.replicate 32 0xFF)) ∧
    (l ≠ 3 → t.otp.owner = s.otp.owner ∧ t.otp.image = s.otp.image) ∧ t.otp.svn = s.otp.svn)

/-- LC_REQUEST and the seven key operations, written over HSPI with their complements, leave an accepted request behind and
touch no fuse. Rests on: 03_register_model.md R69, 04_image_and_lifecycle.md R120, 04_image_and_lifecycle.md R122,
04_image_and_lifecycle.md R123, 04_image_and_lifecycle.md R135, 15_time_and_network.md R390. -/
def Obligations.LifeCycleAndKeyRequestsAreAccepted : Prop :=
  (∀ (s : State) (path : Path) (v : Word), s.Ready path → v.toNat < 8 → s.lcAllowed v.toNat → s.anyEnabled = false →
    let u := s.noteCode path .ok
    (path = 0 → exec (.lcRequest path v (~~~ v)) s =
      .next (({ u with sec := { s.sec with lcTarget := some v.toNat } } : State).noteCode path .ok)) ∧
    (path ≠ 0 → exec (.lcRequest path v (~~~ v)) s = .next (u.noteCode path .state))) ∧
  (∀ (s : State) (slot : BitVec 2), s.Ready 0 → s.flag F.SEC_KEYSTAT_BUSY = false →
    let u := s.noteCode 0 .ok
    let t := fun op n : Nat =>
      ((({ u.put F.SEC_KEYSTAT_BUSY 1 with sec := { s.sec with keyop := some (op, n, !u.keyopOk op n) } } : State).wr
        R.SEC_KEYOP.base (BitVec.ofNat 32 (op * 2 ^ 28 + n))).noteCode 0 .ok)
    exec (.keyopProvisionOwner 0 slot) s = .next (t 1 slot.toNat) ∧ exec (.keyopProvisionImage 0 slot) s = .next (t 2 slot.toNat) ∧
    exec (.keyopProvisionNetwork 0 slot) s = .next (t 3 slot.toNat) ∧ exec (.keyopRevokeOwner 0 slot) s = .next (t 4 slot.toNat) ∧
    exec (.keyopRevokeImage 0 slot) s = .next (t 5 slot.toNat) ∧ exec (.keyopRaiseSvn 0) s = .next (t 6 0) ∧
    exec (.keyopClearKeybuf 0) s = .next (t 7 0))

/-- KEYOP_COMPLETE carries out the waiting operation: provisioning fills a slot from SEC_KEYBUF, revocation marks it, raising
lifts the version. Rests on: 04_image_and_lifecycle.md R122, 04_image_and_lifecycle.md R123, 04_image_and_lifecycle.md R135. -/
def Obligations.KeyOperationsEndInTheFuses : Prop :=
  ∀ (s : State) (op n : Nat) (bad : Bool), s.Quiet → s.sec.keyop = some (op, n, bad) → ∃ t : State, exec .keyopComplete s = .next t ∧
    t.get F.SEC_KEYSTAT_BUSY = 0 ∧ t.get F.SEC_KEYSTAT_FAIL = bad.toNat ∧ t.sec.keyop = none ∧
    (∀ i < 32, t.rd (F.SEC_KEYBUF_WORD.addr i) = 0) ∧ t.flash = s.flash ∧ t.mram = s.mram ∧
    (bad = true → t.otp = s.otp ∧ t.nv = s.nv) ∧
    (bad = false →
      (op = 1 → Sparse.get (fun _ => []) t.otp.owner n = s.regBytes F.SEC_KEYBUF_WORD.base 24) ∧
      (op = 2 → Sparse.get (fun _ => []) t.otp.image n = s.regBytes F.SEC_KEYBUF_WORD.base 8) ∧
      (op = 3 → t.otp = s.otp ∧ Sparse.get (fun _ => []) t.nv.netKeys n = s.regBytes F.SEC_KEYBUF_WORD.base 8) ∧
      (op = 4 → t.otp = { s.otp with ownerRev := n :: s.otp.ownerRev }) ∧
      (op = 5 → t.otp = { s.otp with imageRev := n :: s.otp.imageRev }) ∧
      (op = 6 → t.otp = { s.otp with svn := max s.otp.svn (s.get F.SEC_SVN_IMAGE) }) ∧ (op = 7 → t.otp = s.otp))

/-! ### Power, clocks and the stages of boot -/

/-- CORE_POWER_GOOD_LOSS drives every LV output, pump gate, test pulse, timed output and interrupt line low and releases
RESIGN_O. Rests on: 17_clocks_thermal_power.md R431, 18_package_electrical.md R444, 10_lv_pwm.md R253. -/
def Obligations.LossOfCorePowerPutsEveryOutputLow : Prop :=
  ∀ s : State, ∃ u : State, exec .corePowerGoodLoss s = .next u.settle ∧
    u.pins.coreGood = false ∧ u.red.pad = false ∧ u.saf.tp = 0 ∧ u.irqLines = 0 ∧ u.pumpGates = (0, 0) ∧
    (∀ n < 18, (u.chan n).outH = false ∧ (u.chan n).outL = false) ∧
    (∀ n < 8, (Sparse.get (fun _ => {}) u.net.touts n).high = false) ∧
    s.SameStore u ∧ (∀ a, a < 0x80000 ∨ 0x90000 ≤ a → u.rd a = s.rd a)

/-- WIPE_COMPLETE, PLL_LOCK_EXPIRY and QUAD_POWER_UP report a wipe, a lock and a powered quad, and change nothing else. Rests
on: 04_image_and_lifecycle.md R111, 04_image_and_lifecycle.md R112, 04_image_and_lifecycle.md R116, 04_image_and_lifecycle.md
R118, 17_clocks_thermal_power.md R417, 05_damond_link.md R151. -/
def Obligations.WipesClocksAndQuadsAreReported : Prop :=
  ∀ s : State, s.Quiet →
    (s.get F.SEC_STATE_HSTATE ≠ 2 → s.get F.SEC_STATE_HSTATE ≠ 3 → ∀ failed,
      exec (.wipeComplete .sram failed) s = .next { s with boot := { s.boot with sramDone := true } } ∧
      ∀ kind, kind ≠ .sram → ∃ u : State, exec (.wipeComplete kind failed) s = .next u.settle ∧
        (kind = .dram → u.boot.dramDone = true ∧ u.get F.SEC_WIPE_DONE = 1) ∧
        (∀ p < 4096, (u.page p).retired = ((s.page p).retired || failed.contains p)) ∧
        (let n := ((List.range 4096).filter fun p => (s.page p).retired || failed.contains p).length
         (kind = .staging → n ≤ 16 ∨ s.img.applied = false →
           u.boot.stagingDone = (s.boot.stage == .accepted) ∧ u.boot.mustWipe = false) ∧
         (16 < n → s.get F.SEC_STATE_HSTATE ≤ 1 → u.img.applied = false ∧ u.boot.slot = none ∧ u.sec.okSlot = none) ∧ u.get F.SEC_WIPE_RETIRED = min n 16 ∧
         u.get F.SEC_STATE_HSTATE = if 16 < n ∧ s.get F.SEC_STATE_HSTATE ≤ 1 then 4 else s.get F.SEC_STATE_HSTATE)) ∧
    (s.get F.SEC_STATE_HSTATE = 2 ∨ s.get F.SEC_STATE_HSTATE = 3 → ∀ kind failed, exec (.wipeComplete kind failed) s = .next s) ∧
    exec (.pllLockExpiry .cpll) s = .next (s.putBit F.CLK_STAT_LOCKED 0 true) ∧
    exec (.pllLockExpiry .npll) s = .next (s.putBit F.CLK_STAT_LOCKED 1 true) ∧
    exec (.pllLockExpiry .apll) s = .next (s.putBit F.CLK_STAT_LOCKED 2 true) ∧
    exec (.pllLockExpiry .dpll) s = .next (s.putBit F.CLK_STAT_LOCKED 3 true) ∧
    (∀ q : Fin 7, s.flag F.DML_QSTAT_POWERED q = true →
      exec (.pllLockExpiry (.link q)) s = .next ((s.putBit F.CLK_STAT_LLOCKED q true).put F.DML_QSTAT_LOCKED 1 q)) ∧
    (∀ q : Fin 7, s.get F.SEC_STATE_HSTATE = 2 → (∃ l < 26, quadOf l = q ∧ s.laneUsed l = true) →
      ∃ t : State, exec (.quadPowerUp q) s = .next t ∧ t.get F.DML_QSTAT_POWERED q = 1 ∧
        (∀ l < 26, t.lnState l =
          if quadOf l = q ∧ (isString l = true ∨ s.duplex = true) ∧ s.flag F.DML_CTRL_EN l = true ∧ s.lnState l = lnOff
          then (if s.flag F.DML_QSTAT_LOCKED q = true then lnLink else lnWait) else s.lnState l) ∧
        s.SameStore t ∧ t.evt = s.evt) ∧
    (∀ q : Fin 7, (∀ l < 26, quadOf l = q → s.laneUsed l = false) → exec (.quadPowerUp q) s = .next s)

/-- SLOT_VERIFY starts boot with the better slot, IMAGE_READ_COMPLETE digests it, and a failing slot is recorded with its code.
Rests on: 04_image_and_lifecycle.md R95, 04_image_and_lifecycle.md R97, 04_image_and_lifecycle.md R106,
04_image_and_lifecycle.md R108, 17_clocks_thermal_power.md R417. -/
def Obligations.BootReadsASlotAndVerifiesIt : Prop :=
  ∀ s : State,
    (s.Quiet → s.clocksUp = false → exec .slotVerify s = .next s) ∧
    (s.clocksUp = true → s.get F.SEC_STATE_HSTATE = 0 → s.boot.stage = .idle → s.boot.ordered = false → s.nv.lcMirror = s.otp.lcs →
      s.aon.tamperNew = false → s.aon.oneshot = false → s.nv.wipePending = none → s.boot.mustWipe = false →
      s.otp.lcs = 1 ∨ s.otp.lcs = 2 → s.pins.sfdp = true → 4 * 2 ^ 20 ≤ s.pins.density → s.pins.density ≤ 64 * 2 ^ 20 →
      (s.hdrCode 0 = 2 → s.hdrCode 1 = 2 → ∃ u : State, exec .slotVerify s = .next u.settle ∧
        u.get F.SEC_STATE_HSTATE = 4 ∧ u.get F.SEC_BOOTSTAT_A = 2 ∧ u.get F.SEC_BOOTSTAT_B = 2 ∧ u.boot.slot = none ∧
        u.evt.raised = s.evt.raised ++ [(Ev.IMG_BLANK, 0, 0), (Ev.IMG_BLANK, 1, 0), (Ev.IMG_NONE, 0, 0)]) ∧
      (s.hdrCode 0 = 0 → s.hdrCode 1 = 0 →
        let k := if leAt (s.hdr 0) 0xC 4 < leAt (s.hdr 1) 0xC 4 then 1 else 0
        s.slotCode k = 0 → s.Quiet →
        exec .slotVerify s = .next { s with
          boot := { s.boot with
            ordered := true, todo := [1 - k], slot := some k, stage := .reading, stagingDone := false } })) ∧
    (∀ k, s.boot.slot = some k → s.boot.stage = .reading →
      (s.Quiet → exec (.imageReadComplete true) s = .next { s with boot := { s.boot with
        stage := .digest, digest := Config.sha512 (s.imgBytes k 0 (0x8D0 + s.ctLen k)) } }) ∧
      ∃ u : State, exec (.imageReadComplete false) s = .next u.settle ∧ u.boot.slot = none ∧ u.boot.stage = .idle ∧
        u.get (if k = 0 then F.SEC_BOOTSTAT_A else F.SEC_BOOTSTAT_B) = 0xD ∧
        u.get F.SEC_STATE_HSTATE = (if s.boot.todo = [] then 4 else 0) ∧ s.SameStore u)

/-- IMAGE_CHECK_PASS accepts an image whose configuration CRC is the image's reference, and FIRST_BOUNDARY enters RUN. Rests on:
04_image_and_lifecycle.md R110, 04_image_and_lifecycle.md R111, 04_image_and_lifecycle.md R112, 13_redundancy.md R323,
14_safety_functions.md R348. -/
def Obligations.TheCheckPassAcceptsAnImageAndRunBegins : Prop :=
  ∀ s : State,
    (∀ k, s.boot.slot = some k → s.boot.stage = .applied →
      (s.configCrc = s.boot.cfgref → ∃ u : State, exec .imageCheckPass s = .next u.settle ∧ u.boot.stage = .accepted ∧
        u.get F.SYS_CFGCRC_CRC = s.configCrc % 2 ^ 32 ∧ u.get F.SYS_CFGREF_REF = s.configCrc % 2 ^ 32 ∧
        u.get (if k = 0 then F.SEC_BOOTSTAT_A else F.SEC_BOOTSTAT_B) = 1 ∧ u.get F.SEC_IMGSEQ_SEQ = leAt (s.hdr k) 0xC 4 ∧
        u.get F.SEC_SVN_IMAGE = leAt (s.hdr k) 0x10 4 % F.SEC_SVN_IMAGE.size ∧ u.get F.SEC_STATE_SLOT = k % F.SEC_STATE_SLOT.size ∧
        u.evt.raised = s.evt.raised ++ (if s.boot.fellBack then [(Ev.IMG_FALLBACK, BitVec.ofNat 32 k, 0)] else []) ∧
        s.SameStore u) ∧
      (s.configCrc ≠ s.boot.cfgref → ∃ u : State, exec .imageCheckPass s = .next u.settle ∧ u.boot.slot = none ∧ u.boot.stage = .idle ∧
        u.boot.mustWipe = true ∧ u.get (if k = 0 then F.SEC_BOOTSTAT_A else F.SEC_BOOTSTAT_B) = 0xC ∧
        u.get F.SEC_STATE_HSTATE = (if s.boot.todo = [] then 4 else 0) ∧ s.SameStore u)) ∧
    (s.get F.SEC_STATE_HSTATE = 1 → s.boot.stage = .accepted → s.boot.sramDone = true → s.boot.dramDone = true →
      s.boot.stagingDone = true → s.whiteout = false → ∃ u : State, exec .firstBoundary s = .next u.settle ∧ u.get F.SEC_STATE_HSTATE = 2 ∧
        u.get F.RED_STAT_ROLE = (if s.duplex then (if s.flag F.RED_STAT_RESIGNI then roleElect else roleAlign) else roleNone) ∧ u.period = s.period + 1 ∧ u.bnd = s.ct ∧
        u.red.pad = !s.duplex ∧ u.bus.mon.running = true ∧ 
        (s.img.safety = true → u.whiteout = true ∧ u.get F.SAF_WOCAUSE_CLASS = 1) ∧
        (s.img.safety = false → (∀ n < 8, s.safeMode n = 0) → u.whiteout = false) ∧
        u.otp = s.otp ∧ u.mram = s.mram ∧ u.flash = s.flash ∧ (s.flag F.ACQ_MAPCFG_EN = false → u.dram = s.dram) ∧
        (s.flag F.ACQ_STAT_SHED = false → u.get F.ACQ_STAT_MODE = 1 ∧ u.get F.ACQ_CALSTAT_CAUSE = 1) ∧
        (∀ a, a < 0x80000 → (∀ w < 16, a ≠ F.CMP_STAT_OUTU.addr w) → u.rd a = s.rd a))

/-! ### Attestation and flash -/

/-- Attestation reports the head under its nonce, and flash operations run and end as the controller has them. Rests on:
04_image_and_lifecycle.md R119, 04_image_and_lifecycle.md R130, 04_image_and_lifecycle.md R131, 04_image_and_lifecycle.md R134,
04_image_and_lifecycle.md R135. -/
def Obligations.AttestationAndFlashOperationsRun : Prop :=
  ((∀ (s : State) (path : Path), s.Ready path →
     (s.flag F.SEC_ATTSTAT_BUSY = false →
       exec (.attestGo path) s = .next (((s.put F.SEC_ATTSTAT_BUSY 1).put F.SEC_ATTSTAT_DONE 0).noteCode path .ok)) ∧
     (s.flag F.SEC_ATTSTAT_BUSY = true → exec (.attestGo path) s = .next (s.noteCode path .ok))) ∧
   (∀ s : State, s.Quiet → s.flag F.SEC_ATTSTAT_BUSY = true → ∃ t : State, exec .attestDone s = .next t ∧
     t.get F.SEC_ATTSTAT_BUSY = 0 ∧ t.get F.SEC_ATTSTAT_DONE = 1 ∧
     (∀ i < 908, t.rd (F.SEC_ATT_WORD.addr i) = (wordsOf (s.attReport ++ padTo 64 (Config.ed25519Sign s.attReport) ++
       padTo 3309 (Config.mlDsaSign s.attReport))).getD i 0) ∧
     s.attReport.length = 256 ∧ s.attReport.take 8 = [0x4C, 0x59, 0x41, 0x54, 1, 0, 0x40, 0x76] ∧
     (s.attReport.drop 0x20).take 32 = s.regBytes F.SEC_ATTNONCE_NONCE.base 8 ∧
     (∀ a, a ≠ R.SEC_ATTSTAT.base → (∀ i < 908, a ≠ F.SEC_ATT_WORD.addr i) → t.rd a = s.rd a) ∧ t = { s with regs := t.regs })) ∧
  ((∀ (s : State) (path : Path) (addr : BitVec 26), s.Ready path → s.thawed path = true → s.flag F.SEC_NVMSTAT_BUSY = false →
     addr.toNat < s.pins.density →
     let t := fun cmd : Nat => (({ s.put F.SEC_NVMSTAT_BUSY 1 with sec := { s.sec with nvm := some (cmd, addr.toNat) } } :
       State).refreeze path).noteCode path .ok
     (addr.toNat % 4096 = 0 → s.inRunSlot addr.toNat = false → exec (.nvmErase path addr) s = .next (t 1)) ∧
     (addr.toNat % 256 = 0 → s.inRunSlot addr.toNat = false → exec (.nvmProgram path addr) s = .next (t 2)) ∧
     (addr.toNat % 256 = 0 → exec (.nvmRead path addr) s = .next (t 3)) ∧
     (addr.toNat % 4096 = 0 → s.inRunSlot addr.toNat = true → exec (.nvmErase path addr) s =
       .next ((s.put F.SEC_NVMSTAT_ERR 1).noteCode path .state)) ∧
     (addr.toNat % 256 = 0 → s.inRunSlot addr.toNat = true → exec (.nvmProgram path addr) s =
       .next ((s.put F.SEC_NVMSTAT_ERR 1).noteCode path .state))) ∧
   (∀ (s : State) (cmd a : Nat), s.Quiet → s.sec.nvm = some (cmd, a) →
     (∃ t : State, exec (.nvmOperationDone true) s = .next t ∧ t.get F.SEC_NVMSTAT_BUSY = 0 ∧ t.sec.nvm = none ∧ t.otp = s.otp ∧
       (cmd = 1 → t.flashGet a 4096 = List.replicate 4096 0xFF ∧
         ∀ b, b < a ∨ a + 4096 ≤ b → t.flashGet b 1 = s.flashGet b 1) ∧
       (cmd = 2 → t.flashGet a 256 = List.zipWith (· &&& ·) (s.flashGet a 256) (s.regBytes F.SEC_NVMBUF_WORD.base 64) ∧
         ∀ b, b < a ∨ a + 256 ≤ b → t.flashGet b 1 = s.flashGet b 1) ∧
       (cmd = 3 → t.flash = s.flash ∧ ∀ i < 64, t.rd (F.SEC_NVMBUF_WORD.addr i) = (wordsOf (s.flashGet a 256)).getD i 0)) ∧
     (∃ t : State, exec (.nvmOperationDone false) s = .next t ∧ t.get F.SEC_NVMSTAT_BUSY = 0 ∧ t.get F.SEC_NVMSTAT_ERR = 1 ∧
       t.sec.nvm = none ∧ t.flash = s.flash ∧ t.otp = s.otp)))

/-! ### The event fabric -/

/-- At the end of a command an occurrence of an enabled source counts once, logs from log upwards, sets its pending bit from
notify upwards, and derates. Rests on: 02_control_period.md R45, 02_control_period.md R46, 02_control_period.md R48,
02_control_period.md R51, 02_control_period.md R52, 02_control_period.md R55, 15_time_and_network.md R389. -/
def Obligations.AnOccurrenceIsCountedAndItsReactionPerformed : Prop :=
  ∀ (s : State) (ev : Nat) (c0 c1 : Word), ev < 1024 → s.evt.raised = [(ev, c0, c1)] → s.evt.nowLog = 0 → s.evt.woReq = none → s.evt.resignReq = none →
    s.evt.notifies = [] → s.get F.CE_TRTRIG_SRC ≠ 2 → (∀ k < 8, s.rState k ≠ 1 ∧ s.rState k ≠ 2) →
    let react := s.evt.get F.EVT_CFG_REACT ev
    let n := s.evt.get F.EVT_CNT_CNT ev
    (s.evt.enabled ev = false → s.settle = { s with evt := { s.evt with raised := [] } }) ∧
    (s.evt.enabled ev = true → n < 0xFFFFFFFE ∨ n = 0xFFFFFFFF → react ≤ 3 → s.evt.get F.EVT_CFG_SQBURST ev = 0 →
      s.evt.get F.EVT_CTRL_LOGEN = 1 → s.evt.queue.length < 64 →
      s.settle.evt.get F.EVT_CNT_CNT ev = min (n + 1) 0xFFFFFFFF ∧
      (∀ e < 1024, e ≠ ev → s.settle.evt.get F.EVT_CNT_CNT e = s.evt.get F.EVT_CNT_CNT e) ∧
      s.settle.evt.queue = s.evt.queue ++ (if react = 0 then [] else
        [⟨s.logStamp.1, s.period % 2 ^ 32, ev, react, 0, s.logStamp.2,
          ((Sparse.get (fun _ => none) s.evt.buckets ev).getD ⟨0, 0, 0, 0, 0⟩).suppressed, s.evt.get F.EVT_LOGSEQ_SEQ, c0, c1⟩]) ∧
      (2 ≤ react → (s.settle.evt.rd (F.EVT_PEND_PEND.addr (ev / 32))).getLsbD (ev % 32) = true) ∧
      (react = 3 → s.settle.derateOn = true) ∧ s.settle = { s with evt := s.settle.evt, net := s.settle.net } ∧
      (react < 2 ∨ s.evt.get F.EVT_CTRL_NETNOTIFY = 0 → s.settle.net = s.net) ∧
      (2 ≤ react → s.evt.get F.EVT_CTRL_NETNOTIFY = 1 →
        s.settle.net = (s.sendNotify (ev, min (n + 1) 0xFFFFFFFF, (s.settle.evt.get F.EVT_LOGSEQ_SEQ + 2 ^ 32 - 1) % 2 ^ 32)).net))

/-- COUNT_WRITEBACK and LOG_ENTRY_WRITE write MRAM; summaries, derate holds and EVT_CNTCLR act on the sources. Rests on:
02_control_period.md R47, 02_control_period.md R48, 02_control_period.md R51, 02_control_period.md R52, 02_control_period.md
R53, 02_control_period.md R54, 02_control_period.md R55, 02_control_period.md R57. -/
def Obligations.CountsEntriesAndSummariesOfTheFabric : Prop :=
  (∀ s : State, s.Quiet →
     (∃ m, exec .countWriteback s = .next { s with mram := m, evt := { s.evt with changed := [] } } ∧
       (∀ e ∈ s.evt.changed, leValue (Sparse.getRun (fun _ => (0 : Byte)) m (0x1000 + 4 * e) 4) = s.evt.get F.EVT_CNT_CNT e) ∧
       (∀ a, (∀ e ∈ s.evt.changed, a < 0x1000 + 4 * e ∨ 0x1004 + 4 * e ≤ a) →
         Sparse.get (fun _ => (0 : Byte)) m a = Sparse.get (fun _ => (0 : Byte)) s.mram a)) ∧
     (s.evt.queue = [] → exec .logEntryWrite s = .next s) ∧
     (∀ x q, s.evt.queue = x :: q →
       let wp := s.evt.get F.EVT_LOGWP_IDX
       let next := (wp + 1) % 126976
       x.bytes.length = 32 ∧
       exec .logEntryWrite s = .next { s.mramPut (0x20000 + 32 * wp) x.bytes with
         evt := ({ s.evt with queue := q } : Evt).put F.EVT_LOGWP_IDX next
         nv := { s.nv with logWp := next, logSeq := (x.seq + 1) % 2 ^ 32 } })) ∧
  ((∀ s : State, s.Quiet →
     ((∀ x ∈ s.evt.buckets, ∀ b, x.2 = some b → b.suppressed = 0) → exec .squallSummaryTick s = .next s) ∧
     (∀ ev b, s.evt.buckets = [(ev, some b)] → ev < 1024 → 0 < b.suppressed → 0 < (s.evt.refill ev s.ct).tokens →
       s.evt.get F.EVT_CTRL_LOGEN = 1 → s.evt.queue.length < 64 → s.evt.nowLog = 0 → ∃ e : Evt, exec .squallSummaryTick s = .next { s with evt := e } ∧
       e.queue = s.evt.queue ++ [⟨s.logStamp.1, s.period % 2 ^ 32, ev, s.evt.get F.EVT_CFG_REACT ev, 1, s.logStamp.2, b.suppressed,
         s.evt.get F.EVT_LOGSEQ_SEQ, b.ctx0, b.ctx1⟩] ∧
       Sparse.get (fun _ => none) e.buckets ev = some { s.evt.refill ev s.ct with
         tokens := (s.evt.refill ev s.ct).tokens - 1, suppressed := 0 }) ∧
     (s.evt.derateHold = [] → exec .derateHoldExpiry s = .next s) ∧
     (∀ x l, s.evt.derateHold = x :: l → exec .derateHoldExpiry s =
       .next { s with evt := { s.evt with derateHold := l.filter fun y => y.2 != x.2 } })) ∧
   (∀ (s : State) (path : Path), s.Ready path → s.thawed path = true →
     (∃ e : Evt, exec (.evtCntclrAll path) s = .next ((({ s with evt := e } : State).refreeze path).noteCode path .ok) ∧
       (∀ n < 1024, e.get F.EVT_CNT_CNT n = s.evt.nowOcc.count n % 2 ^ 32 ∧ n ∈ e.changed) ∧ e.queue = s.evt.queue ∧
       (∀ a, a < F.EVT_CNT_CNT.base ∨ F.EVT_CNT_CNT.base + 4096 ≤ a → e.rd a = s.evt.rd a)) ∧
     (∀ src : BitVec 10, ∃ e : Evt, exec (.evtCntclrSrc path src) s =
         .next ((({ s with evt := e } : State).refreeze path).noteCode path .ok) ∧
       e.get F.EVT_CNT_CNT src.toNat = s.evt.nowOcc.count src.toNat % 2 ^ 32 ∧ src.toNat ∈ e.changed ∧ e.queue = s.evt.queue ∧
       (∀ a, a ≠ F.EVT_CNT_CNT.addr src.toNat → e.rd a = s.evt.rd a))))

/-! ### Registers, guards and transactions -/

/-- An access at an address that holds no register or window word, or that is no multiple of 4, returns NOMAP, and such a read
yields zero. Rules: 19_address_map.md R454. -/
def Obligations.AccessesToNoRegisterReturnNomap : Prop :=
  (∀ (s : State) (path : Path) (addr v : Word) (par : Bool), s.Quiet → s.pathOn path = true → s.poisoned path = false → s.bus.g2 = none →
    s.mustWait path addr.toNat = false → s.shut addr.toNat = false →
    addr.toNat % 4 ≠ 0 ∨ (blockOf addr.toNat ≠ some .window ∧ s.rowAt addr.toNat = none ∧ complOf addr.toNat = none) →
    exec (.registerWrite path addr v par) s = .next (s.noteCode path .nomap) ∧ s.readWord path addr.toNat = (0, .nomap)) ∧
  (∀ (s : State) (a : Nat), blockOf a = none → s.shut a = false ∧ s.rowAt a = none ∧ complOf a = none)

/-- REGISTER_WRITE takes an immediate value at once, buffers one with a later apply point, and refuses with the status of the
failed check. Rests on: 03_register_model.md R60, 03_register_model.md R61, 03_register_model.md R62, 03_register_model.md R65,
03_register_model.md R67, 03_register_model.md R73, 02_control_period.md R35, 19_address_map.md R454. -/
def Obligations.WritesAnswerWithTheirStatus : Prop :=
  ∀ (s : State) (path : Path) (v : Word) (par : Bool), s.Ready path →
    (∀ i < 64, exec (.registerWrite path (BitVec.ofNat 32 (F.SEC_NVMBUF_WORD.addr i)) v par) s =
      .next ((s.wr (F.SEC_NVMBUF_WORD.addr i) v).noteCode path .ok)) ∧
    exec (.registerWrite path 0xF0024 v par) s = .next ((s.wr 0xF0024 v).noteCode path .ok) ∧
    (∀ i < 16, s.ownsOpen path = false → s.bufCount (F.CE_SP_VALUE.addr i) < 64 → s.bus.held = [] → s.get F.RED_STAT_ROLE = 0 →
      exec (.registerWrite path (BitVec.ofNat 32 (F.CE_SP_VALUE.addr i)) v false) s =
        .next ((s.pushBuf ⟨path, F.CE_SP_VALUE.addr i, v, 0xFFFFFFFF, false, none, false⟩).noteCode path .ok) ∧
      exec (.registerWrite path (BitVec.ofNat 32 (F.CE_SP_VALUE.addr i)) v true) s = .next ((s.noteCode path .ok).pulse Ev.XING_PAR).settle) ∧
    exec (.registerWrite path 0 v par) s = .next (s.noteCode path .ro) ∧
    (∀ n < 8, v.toNat < 100 → exec (.registerWrite path (BitVec.ofNat 32 (F.NET_TOUTPER_PER.addr n)) v par) s =
      .next ((s.pulse Ev.REG_RANGE (F.NET_TOUTPER_PER.addr n) path).noteCode path .range).settle) ∧
    (s.thawed path = false → exec (.registerWrite path 0xD8000 v par) s =
      .next ((s.pulse Ev.GUARD_REJ 0xD8000 path).noteCode path .guard).settle) ∧
    (∀ n < 4096, s.ownsOpen path = false → s.txBusy = false → exec (.registerWrite path (BitVec.ofNat 32 (F.CE_COEF_WORD.addr n)) v par) s =
      .next ((s.pulse Ev.TXN_REQ (F.CE_COEF_WORD.addr n) path).noteCode path .txnReq).settle)

/-- BUFFERED_WRITE_APPLY puts a waiting value in force at its own apply point and at no other. Rests on: 00_scope.md R9,
03_register_model.md R62, 03_register_model.md R64, 03_register_model.md R66, 10_lv_pwm.md R259. -/
def Obligations.BufferedWritesApplyAtTheirPoint : Prop :=
  ∀ (s : State), s.Quiet → s.bus.stage = [] →
    (∀ (path i : Nat) (v : Word), i < 16 → s.bus.buf = [⟨path, F.CE_SP_VALUE.addr i, v, 0xFFFFFFFF, false, none, false⟩] → s.bus.held = [] →
      (∃ u : State, exec (.bufferedWriteApply .period) s = .next u.settle ∧ u.rd (F.CE_SP_VALUE.addr i) = v ∧ u.bus.buf = [] ∧
        (∀ a, a ≠ F.CE_SP_VALUE.addr i → u.rd a = s.rd a) ∧ s.SameStore u) ∧
      (∀ l, exec (.bufferedWriteApply (.frame l)) s = .next s) ∧ (∀ c, exec (.bufferedWriteApply (.pwm c)) s = .next s) ∧
      (∀ p, exec (.bufferedWriteApply (.packet p)) s = .next s)) ∧
    (∀ (path : Nat) (c d : ChanId) (v : Word), v.toNat < 2 ^ 20 → s.bus.buf = [⟨path, F.LVS_CMP_CMP.addr c, v, 0xFFFFF, false, none, false⟩] →
      s.bus.held = [] →
      (∃ t : State, exec (.bufferedWriteApply (.pwm c)) s = .next t ∧ t.get F.LVS_CMP_CMP c = v.toNat ∧
        (t.chan c).shCmp = (if isPair c && s.pairUse c != 0 && !s.useLoop c then 0 else v.toNat) ∧ t.bus.buf = [] ∧ (∀ a, a ≠ F.LVS_CMP_CMP.addr c → t.rd a = s.rd a)) ∧
      (d ≠ c → exec (.bufferedWriteApply (.pwm d)) s = .next s))

/-- The thaw admits one guarded write, and a complement pair acts on its second word. Rests on: 03_register_model.md R67,
03_register_model.md R68, 03_register_model.md R69, 03_register_model.md R70, 03_register_model.md R74, 15_time_and_network.md
R390. -/
def Obligations.ThawsAndComplementPairsGuardTheirWrites : Prop :=
  (∀ (s : State) (path : Path), s.Quiet →
     (s.pathOn path = true → s.poisoned path = false → s.bus.g2 = none → s.bus.waiting = [] → s.otp.lcs ≠ 4 →
       (∃ t : State, exec (.sysThaw path 0x7A3C) s = .next t ∧ t.thawed path = true ∧
         (∀ q, q ≠ path → t.thawed q = s.thawed q) ∧ t = { s.noteCode path .ok with bus := { s.bus with thaw := t.bus.thaw } }) ∧
       (∀ v, v ≠ 0x7A3C → exec (.sysThaw path v) s =
         .next (((s.refreeze path).pulse Ev.GUARD_REJ 0x10 path).noteCode path .guard).settle)) ∧
     (∃ t : State, exec (.thawTimeout path) s = .next t ∧ t.thawed path = false ∧ (∀ q, q ≠ path → t.thawed q = s.thawed q) ∧
       t = { s with bus := { s.bus with thaw := t.bus.thaw } })) ∧
  (∀ (s : State) (path : Path) (v w : Word), s.Ready path →
     let held := fun a : Nat => ({ s with bus := { s.bus with g2 := some ⟨path, a, v⟩ } } : State)
     (∀ a : Word, a ∈ ([0xD0000, 0xFC020, 0xFC028] : List Word) →
       exec (.g2FirstWrite path a v) s = .next ((held a.toNat).noteCode path .ok) ∧
       (∀ p : Path, p ≠ path → s.pathOn p = true → s.poisoned p = false → exec (.g2FirstWrite p a w) (held a.toNat) =
         .next ((held a.toNat).noteCode p .busy)) ∧
       (w ≠ ~~~ v → exec (.g2ComplementWrite path (a + 4) w) (held a.toNat) =
         .next ((s.pulse Ev.GUARD_REJ (a.toNat + 4) path).noteCode path .guard).settle) ∧
       (∀ (b : Word) (par : Bool), b ≠ a + 4 → exec (.registerWrite path b w par) (held a.toNat) =
         .next ((s.pulse Ev.GUARD_REJ b.toNat path).noteCode path .guard).settle) ∧
       exec .g2Timeout (held a.toNat) = .next (s.pulse Ev.GUARD_REJ a.toNat path).settle) ∧
     (v.toNat < 8 → s.lcAllowed v.toNat = true → s.anyEnabled = false →
       exec (.g2ComplementWrite path 0xFC024 (~~~ v)) (held 0xFC020) =
         .next (if path = 0 then ({ s with sec := { s.sec with lcTarget := some v.toNat } } : State).noteCode path .ok
           else s.noteCode path .state)))

/-- TXN_BEGIN opens a transaction for its path, writes are staged in it, TXN_COMMIT names k_act or prepares the cells,
TXN_ROLLBACK aborts it. Rests on: 03_register_model.md R71, 03_register_model.md R72, 03_register_model.md R73,
03_register_model.md R76, 03_register_model.md R81. -/
def Obligations.TransactionsOpenStageCommitAndRollBack : Prop :=
  ∀ (s : State) (path : Path), s.Ready path → s.get F.RED_STAT_ROLE = 0 →
    (s.txBusy = false → ∃ t : State, exec (.txnBegin path) s = .next t ∧ t.txState = txOpen ∧ t.get F.SYS_TXNSTAT_OWNER = path ∧
      t.get F.SYS_TXNSTAT_COUNT = 0 ∧ t.get F.SYS_TXNSTAT_POISON = 0 ∧ t.bus.txn.staged = [] ∧
      (∀ a, a ≠ R.SYS_TXNSTAT.base → a ≠ R.SYS_WRSTAT.base → t.rd a = s.rd a) ∧ t.evt = s.evt) ∧
    (s.ownsOpen path = true → s.get F.SYS_TXNSTAT_POISON = 0 → s.get F.SYS_TXNSTAT_COUNT < 8192 → ∀ n < 4096, ∀ (v : Word) (par : Bool),
      ∃ t : State, exec (.registerWrite path (BitVec.ofNat 32 (F.CE_COEF_WORD.addr n)) v par) s = .next t ∧
      t.bus.txn.staged = s.bus.txn.staged ++ [(F.CE_COEF_WORD.addr n, v)] ∧
      t.get F.SYS_TXNSTAT_COUNT = s.get F.SYS_TXNSTAT_COUNT + 1 ∧
      (∀ a, a ≠ R.SYS_TXNSTAT.base → a ≠ R.SYS_WRSTAT.base → t.rd a = s.rd a)) ∧
    (∀ upd, s.ownsOpen path = true → s.get F.SYS_TXNSTAT_POISON = 0 → s.commitFault = none →
      (let cs := s.cellList.filter fun c => affectable (s.cState c) && !(s.stagedPrm c).isEmpty
       ∃ t : State, exec (.txnCommit path upd) s = .next t ∧ t.bus.txn.affected = cs ∧ t.bus.txn.updateRef = upd ∧
        t.bus.txn.staged = s.bus.txn.staged ∧
        (cs = [] → t.txState = txActivate ∧ t.bus.txn.kact = some (s.period + 2) ∧
          t.get F.SYS_TXNACT_KACT = (s.period + 2) % 2 ^ 32) ∧
        (cs ≠ [] → t.txState = txPrepare ∧ t.bus.txn.acked = []) ∧
        (∀ a, a ≠ R.SYS_TXNSTAT.base → a ≠ R.SYS_WRSTAT.base → a ≠ R.SYS_TXNCELL.base → a ≠ R.SYS_TXNACT.base → t.rd a = s.rd a))) ∧
    (s.txBusy = true → s.get F.SYS_TXNSTAT_OWNER = path → s.txState ≠ txRef → s.bus.txn.passed = false →
      ∃ t : State, exec (.txnRollback path) s = .next t ∧ t.txState = txAborted ∧
      t.get F.SYS_TXNSTAT_CAUSE = (if s.flag F.SYS_TXNSTAT_POISON then 4 else 1) ∧ t.bus.txn = {} ∧
      (∀ a, a ≠ R.SYS_TXNSTAT.base → a ≠ R.SYS_WRSTAT.base → t.rd a = s.rd a) ∧ t.evt = s.evt)

/-- TXN_IDLE_TIMEOUT and HSPI_RESET roll an open transaction back with cause IDLE, and TXN_ACK_TIMEOUT with NOACK for the lowest
missing cell. Rests on: 03_register_model.md R75, 03_register_model.md R79, 13_redundancy.md R329. -/
def Obligations.TransactionsEndWithoutTheirOwner : Prop :=
  ∀ s : State, s.Quiet → s.get F.RED_STAT_ROLE = 0 → s.get F.SEC_STATE_HSTATE = 2 →
    (s.txState = txOpen → s.bus.txn.peer = false → s.get F.SYS_TXNSTAT_POISON = 0 →
      (∃ u : State, exec .txnIdleTimeout s = .next u.settle ∧ u.txState = txAborted ∧ u.get F.SYS_TXNSTAT_CAUSE = 3 ∧ u.bus.txn = {} ∧
        u.evt.raised = [(Ev.TXN_TIMEOUT, BitVec.ofNat 32 (s.get F.SYS_TXNSTAT_OWNER), 0)] ∧
        (∀ a, a ≠ R.SYS_TXNSTAT.base → u.rd a = s.rd a) ∧
        (s.get F.SYS_TXNSTAT_OWNER = 0 → exec .hspiReset s = .next u.settle)) ∧
      (s.get F.SYS_TXNSTAT_OWNER ≠ 0 → exec .hspiReset s = .next s)) ∧
    (s.txState ≠ txOpen ∨ s.bus.txn.peer = true → exec .txnIdleTimeout s = .next s ∧ exec .hspiReset s = .next s) ∧
    (∀ c, s.txState = txPrepare → s.bus.txn.peer = false → c ∈ s.bus.txn.affected → c ∉ s.bus.txn.acked → c < 288 →
      (∀ d ∈ s.bus.txn.affected, d ∉ s.bus.txn.acked → c ≤ d) →
      ∃ u : State, exec .txnAckTimeout s = .next u.settle ∧ u.txState = txAborted ∧ u.get F.SYS_TXNSTAT_CAUSE = 2 ∧
        u.get F.SYS_TXNCELL_FAILCELL = c ∧ u.bus.txn = {} ∧ u.evt.raised = [(Ev.TXN_NOACK, BitVec.ofNat 32 c, 0)] ∧
        (∀ a, a ≠ R.SYS_TXNSTAT.base → a ≠ R.SYS_TXNCELL.base → u.rd a = s.rd a))

/-- CFG_CRC_PASS_START starts an armed pass and CFG_CRC_PASS_END writes the reference, or compares with it and raises EV_CFG_CRC
on a difference. Rests on: 03_register_model.md R84, 03_register_model.md R85, 03_register_model.md R86. -/
def Obligations.TheMonitorComparesEveryPass : Prop :=
  ∀ s : State, s.Quiet →
    (s.bus.mon.armed = true → ∃ t : State, exec .cfgCrcPassStart s = .next t ∧ t.bus.mon = { s.bus.mon with running := true, discard := false } ∧
      t.get F.SYS_CFGSTAT_REFPASS = s.bus.mon.refDue.toNat ∧ (∀ a, a ≠ R.SYS_CFGSTAT.base → t.rd a = s.rd a)) ∧
    (s.bus.mon.running = false → exec .cfgCrcPassEnd s = .next s) ∧
    (s.bus.mon.running = true → s.bus.mon.discard = true → ∃ t : State, exec .cfgCrcPassEnd s = .next t ∧ t.bus.mon.running = false ∧
      (∀ a, a ≠ R.SYS_CFGSTAT.base → t.rd a = s.rd a)) ∧
    (s.bus.mon.running = true → s.bus.mon.discard = false → ∃ u : State, exec .cfgCrcPassEnd s = .next u.settle ∧
      u.bus.mon.running = false ∧ u.get F.SYS_CFGCRC_CRC = s.configCrc % 2 ^ 32 ∧
      u.get F.SYS_CFGSTAT_PASSES = (s.get F.SYS_CFGSTAT_PASSES + 1) % F.SYS_CFGSTAT_PASSES.size ∧
      (s.get F.SYS_CFGSTAT_REFPASS = 1 → u.get F.SYS_CFGREF_REF = s.configCrc % 2 ^ 32 ∧ u.get F.SYS_CFGSTAT_REFPASS = 0 ∧
        u.bus.mon.refDue = false ∧ u.txState = (if s.txState = txRef then txDone else s.txState) ∧ u.evt = s.evt) ∧
      (s.get F.SYS_CFGSTAT_REFPASS = 0 → s.get F.SYS_CFGREF_REF = s.configCrc →
        u.get F.SYS_CFGSTAT_MISMATCH = s.get F.SYS_CFGSTAT_MISMATCH ∧ u.evt = s.evt) ∧
      (s.get F.SYS_CFGSTAT_REFPASS = 0 → s.get F.SYS_CFGREF_REF ≠ s.configCrc →
        u.get F.SYS_CFGSTAT_MISMATCH = 1 ∧ u.evt.raised = [(Ev.CFG_CRC, 0, 0)]))

/-- SYS_FREEZE_GO copies every counter of the snapshot list into its holding entry and changes nothing else. Rests on:
03_register_model.md R89, 03_register_model.md R90, 19_address_map.md R456. -/
def Obligations.FreezeCopiesEveryCounter : Prop :=
  ∀ (s : State) (path : Path), s.Ready path → 
    let was : State := { s with regs := s.ctRegs, evt := { s.evt with regs := s.ctEvt } }
    ∃ t : State, exec (.sysFreezeGo path) s = .next t ∧
    (∀ e < 1024, t.rd (F.SYS_FRZ_WORD.addr e 0) = BitVec.ofNat 32 (was.evt.get F.EVT_CNT_CNT e) ∧
      t.rd (F.SYS_FRZ_WORD.addr e 1) = if was.evt.get F.EVT_CNT_CNT e = 0xFFFFFFFF then 1 else 0) ∧
    (∀ r ∈ frzRuns, ∀ i < r.n, t.rd (F.SYS_FRZ_WORD.addr (r.first + r.step * i) 0) = BitVec.ofNat 32 (was.get r.fld i) ∧
      t.rd (F.SYS_FRZ_WORD.addr (r.first + r.step * i) 1) =
        if r.wrap then 2 else if was.get r.fld i = r.fld.size - 1 then 1 else 0) ∧
    t.rd (F.SYS_FRZ_WORD.addr 1512 0) = BitVec.ofNat 32 s.ctcnt ∧ t.rd (F.SYS_FRZ_WORD.addr 1512 1) = 2 ∧
    t.get F.SYS_FRZSTAT_VALID = 1 ∧ t.get F.SYS_FRZPER_PERIOD = s.period % 2 ^ 32 ∧
    (∀ a, a < 0x4000 ∨ 0x8000 ≤ a → a ≠ 0x54 → a ≠ 0x58 → a ≠ R.SYS_WRSTAT.base → t.rd a = s.rd a) ∧ t = { s with regs := t.regs }

/-- The period counter is 64 bits wide and counts boundaries since reset; a read of SYS_PERIODLO latches the high word for the
same path. Rules: 03_register_model.md R88. -/
def Obligations.ReadsOfLowWordsLatchTheHighWords : Prop :=
  (∀ (s : State) (cause : Nat), (s.hardReset cause).period = 0) ∧
  (∀ s : State, s.get F.SEC_STATE_HSTATE = 2 → ∃ u : State, exec .periodBoundary s = .next u.settle ∧ u.period = s.period + 1) ∧
  (∀ (s : State) (path : Path), s.Ready path →
    (∃ t : State, exec (.periodloRead path) s = .next t ∧ Sparse.get (fun _ => 0) t.bus.lastRead path = BitVec.ofNat 32 s.period ∧
      ∀ v : State, v.shut R.SYS_PERIODHI.base = false → (Sparse.get (fun _ => 0) v.bus.periodHi path = Sparse.get (fun _ => 0) t.bus.periodHi path) →
        v.readWord path R.SYS_PERIODHI.base = (BitVec.ofNat 32 (s.period % 2 ^ 64 / 2 ^ 32), .ok)) ∧
    (∃ t : State, exec (.netTimeloRead path) s = .next t ∧ Sparse.get (fun _ => 0) t.bus.lastRead path = BitVec.ofNat 32 s.netNow ∧
      Sparse.get (fun _ => 0) t.bus.timeHi path = BitVec.ofNat 32 (s.netNow / 2 ^ 32)) ∧
    (∃ t : State, exec (.clkRtcloRead path) s = .next t ∧ Sparse.get (fun _ => 0) t.bus.lastRead path = BitVec.ofNat 32 s.rtcNow ∧
      Sparse.get (fun _ => 0) t.bus.rtcHi path = BitVec.ofNat 32 (s.rtcNow / 2 ^ 32 % 2 ^ 16)))

/-! ### Damond lanes and the crosslink -/

/-- Software, the timers and the loss of lock move a lane through its states, and a lost lane is reported. Rests on:
05_damond_link.md R151, 05_damond_link.md R152, 05_damond_link.md R154, 05_damond_link.md R155, 05_damond_link.md R163,
05_damond_link.md R164, 06_cell_protocol.md R185. -/
def Obligations.LanesMoveThroughTheirStates : Prop :=
  (∀ (s : State) (path : Path) (l : LaneId), s.Ready path → s.thawed path = true →
     (s.get F.DML_CTRL_EN l = 0 → s.lnState l = lnOff → isString l = true ∨ s.duplex = true → s.flag F.DML_QSTAT_POWERED (quadOf l) = true →
       ∃ t : State, exec (.dmlEnWrite path l true) s = .next ((t.refreeze path).noteCode path .ok) ∧ t.get F.DML_CTRL_EN l = 1 ∧
       t.lnState l = (if s.flag F.DML_QSTAT_LOCKED (quadOf l) then lnLink else lnWait) ∧
       (s.flag F.DML_QSTAT_LOCKED (quadOf l) = true → (t.lane l).idleOk = false) ∧
       (∀ k < 26, k ≠ l → t.lnState k = s.lnState k ∧ t.lane k = s.lane k) ∧ t = { s with regs := t.regs, lanes := t.lanes }) ∧
     (s.get F.DML_CTRL_EN l = 1 → s.laneBusy l = false → s.flag F.DML_HALOSTAT_BUSY l = false →
       ∃ t : State, exec (.dmlEnWrite path l false) s = .next ((t.refreeze path).noteCode path .ok) ∧ t.get F.DML_CTRL_EN l = 0 ∧
       t.lnState l = lnOff ∧ t.get F.DML_STAT_BLOCKLOCK l = 0 ∧ (t.lane l).idleOk = false ∧
       (∀ k < 26, k ≠ l → t.lnState k = s.lnState k ∧ t.lane k = s.lane k) ∧
       (s.lnState l = lnService → ∀ d ∈ s.laneCells l, s.cState d ≠ csRefused → (t.cell d).lostDue = true) ∧
       t = { s with regs := t.regs, lanes := t.lanes, cells := t.cells }) ∧
     (s.get F.DML_CTRL_EN l = 1 → s.laneBusy l = true → exec (.dmlEnWrite path l false) s = .next (s.noteCode path .state)) ∧
     (∀ en : Bool, s.get F.DML_CTRL_EN l = en.toNat → s.lnState l = lnFault →
       ∃ t : State, exec (.dmlRestart path l en) s = .next ((t.refreeze path).noteCode path .ok) ∧ t.lnState l = lnLink ∧
       t.get F.DML_STAT_RETRIES l = 0 ∧ (t.lane l).idleOk = false ∧
       (∀ k < 26, k ≠ l → t.lnState k = s.lnState k ∧ t.lane k = s.lane k) ∧ t = { s with regs := t.regs, lanes := t.lanes }) ∧
     (∀ en : Bool, s.lnState l = lnAlign ∨ s.lnState l = lnService → exec (.dmlRestart path l en) s = .next (s.noteCode path .state))) ∧
  (∀ (s : State) (l : LaneId), s.Quiet →
     exec (.laneWaitExpiry l) s = .next (if s.lnState l = lnWait then
       (s.setLn l lnLink).setLane l { s.lane l with idleOk := false } else s) ∧
     (s.lnState l ≠ lnLost → exec (.laneRetryWaitExpiry l) s = .next s) ∧
     (s.lnState l = lnLost → ∃ t : State, exec (.laneRetryWaitExpiry l) s = .next t ∧ t.lnState l = lnLink ∧
       t.get F.DML_STAT_RETRIES l = min (s.get F.DML_STAT_RETRIES l + 1) 15 ∧ (t.lane l).idleOk = false ∧
       t = { s with regs := t.regs, lanes := t.lanes } ∧ (∀ k, k ≠ l → t.lane k = s.lane k) ∧
       (∀ a, a ≠ F.DML_STAT_STATE.addr l → t.rd a = s.rd a)) ∧
     exec (.retryClearExpiry l) s = .next (if s.lnState l = lnService then s.put F.DML_STAT_RETRIES 0 l else s) ∧
     (∀ (cause : Nat) (c : Instr),
       (c = .laneLinktoExpiry l ∧ cause = 4 ∧ s.lnState l = lnLink ∧ (s.lane l).idleOk = false) ∨
         (c = .blockLockLost l 0 ∧ cause = 1 ∧ (s.lnState l = lnAlign ∨ s.lnState l = lnService) ∧
           s.flag F.DML_STAT_BLOCKLOCK l = true ∧ (s.get F.SEC_STATE_HSTATE = 2 ∨ s.get F.SEC_STATE_HSTATE = 3)) →
       let fault := s.get F.DML_STAT_RETRIES l = s.get F.DML_CFG_RETRYMAX l ∧ s.get F.DML_STAT_RETRIES l ≠ 15
       ∃ u : State, exec c s = .next u.settle ∧ u.lnState l = (if fault then lnFault else lnLost) ∧
         u.get F.DML_STAT_LASTCAUSE l = cause ∧ (∀ k < 26, k ≠ l → u.lnState k = s.lnState k) ∧ (u.lane l).idleOk = false ∧
         u.evt.raised = [(Ev.LANE_LOST, BitVec.ofNat 32 l, BitVec.ofNat 32 cause)] ++
           (if isString l then [] else [(Ev.XL_LOST, BitVec.ofNat 32 (l.val - 24), BitVec.ofNat 32 cause)]) ++
           (if fault then [(Ev.LANE_FAULT, BitVec.ofNat 32 l, BitVec.ofNat 32 cause)] else []) ∧
         (s.lnState l = lnService → ∀ d ∈ s.laneCells l, s.cState d ≠ csRefused → (u.cell d).lostDue = true) ∧ s.SameStore u))

/-- BLOCK_LOCK_ACQUIRED, OWN_IDLE_RETURN and GATHER_FRAME_RECEIVE note what came back on a lane, and a crossed lane is reported.
Rests on: 02_control_period.md R35, 05_damond_link.md R141, 05_damond_link.md R144, 05_damond_link.md R146, 05_damond_link.md
R152, 05_damond_link.md R156. -/
def Obligations.WhatTheReceiverSeesIsNoted : Prop :=
  ∀ (s : State) (l : LaneId), s.Quiet →
    (s.laneHears l = true → s.lnState l ≠ lnOff → s.lnState l ≠ lnWait →
      exec (.blockLockAcquired l 0) s = .next (s.putB F.DML_STAT_BLOCKLOCK true l)) ∧
    (s.laneHears l = true → s.lnState l = lnLink → s.flag F.DML_STAT_BLOCKLOCK l = true →
      exec (.blockLockLost l 0) s =
        .next ((s.putB F.DML_STAT_BLOCKLOCK false l).setLane l { s.lane l with idleOk := false })) ∧
    (∀ f : GatherRx, s.laneHears l = true → codeErrsOf f = 0 →
      let u := (s.put F.DML_FLAKES_COUNT ((s.get F.DML_FLAKES_COUNT l + flakesOf f) % 2 ^ 32) l).setLane l
        { s.lane l with rx := some (keptFrame f) }
      ((∀ r ∈ f.recs, r.parity = false) → exec (.gatherFrameReceive l f) s = .next u ∧ keptFrame f = f) ∧
      (∀ r, f.recs.filter (·.parity) = [r] → exec (.gatherFrameReceive l f) s = .next (u.pulse Ev.XING_PAR).settle ∧
        ∀ x ∈ (keptFrame f).recs, x.parity = true → x.words = [])) ∧
    (∀ f n, s.laneHears l = false → exec (.gatherFrameReceive l f) s = .next s ∧ exec (.blockLockAcquired l n) s = .next s ∧
      exec (.blockLockLost l n) s = .next s) ∧
    (s.lnState l = lnLink → s.flag F.DML_STAT_BLOCKLOCK l = true →
      (∀ (num : BitVec 5) (gen : Bool), num.toNat = l → gen = s.flag F.DML_STAT_GEN l →
        exec (.ownIdleReturn l 0 num gen) s = .next (s.setLane l { s.lane l with idleOk := true })) ∧
      (∀ (num : BitVec 5) (gen : Bool), num.toNat ≠ l →
        exec (.ownIdleReturn l 0 num gen) s = .next (s.pulse Ev.LANE_CROSSED l num.toNat).settle) ∧
      (∀ origin num gen, origin ≠ 0 → exec (.ownIdleReturn l origin num gen) s = .next s))

/-- HALO_GO starts a scan on a lane in SERVICE, HALO_STOP aborts it with cause 1, and HALO_COMPLETE writes the result and its
width, height and area. Rests on: 05_damond_link.md R160, 05_damond_link.md R161, 05_damond_link.md R162. -/
def Obligations.AHaloScanRunsStopsAndReports : Prop :=
  (∀ (s : State) (path : Path) (l : LaneId) (dwell : BitVec 6), s.Ready path → s.flag F.THM_STAT_SHED = false →
    20 ≤ dwell.toNat → dwell.toNat ≤ 32 →
    (s.lnState l = lnService → s.flag F.DML_HALOSTAT_BUSY l = false →
      ∃ t : State, exec (.haloGo path l dwell) s = .next (t.noteCode path .ok) ∧ t.flag F.DML_HALOSTAT_BUSY l = true ∧
      t.get F.DML_HALOSTAT_DONE l = 0 ∧ t.get F.DML_HALOSTAT_ABORTED l = 0 ∧ t.get F.DML_HALOSTAT_ACAUSE l = 0 ∧
      t.lane l = { s.lane l with haloWait := s.quadScans (quadOf l), haloDwell := dwell.toNat } ∧
      (∀ a, a ≠ F.DML_HALOCTRL_GO.addr l → a ≠ F.DML_HALOSTAT_BUSY.addr l → t.rd a = s.rd a)) ∧
    (s.lnState l ≠ lnService → ∃ t : State, exec (.haloGo path l dwell) s = .next (t.noteCode path .ok) ∧
      t.get F.DML_HALOSTAT_ABORTED l = 1 ∧ t.get F.DML_HALOSTAT_ACAUSE l = 4 ∧
      t.get F.DML_HALOSTAT_BUSY l = s.get F.DML_HALOSTAT_BUSY l ∧ t = { s with regs := t.regs }) ∧
    (s.flag F.DML_HALOSTAT_BUSY l = true → ∃ t : State, exec (.haloStop path l dwell) s = .next (t.noteCode path .ok) ∧
      t.get F.DML_HALOSTAT_BUSY l = 0 ∧ t.get F.DML_HALOSTAT_ABORTED l = 1 ∧ t.get F.DML_HALOSTAT_ACAUSE l = 1 ∧
      t.get F.DML_HALOTIME_PERIOD l = s.period % F.DML_HALOTIME_PERIOD.size)) ∧
  (∀ (s : State) (l : LaneId) (errors : List Nat), s.Quiet → s.haloRuns l = true → errors.length = 2048 →
    let clean := fun i => errors.getD i 0 == 0
    let width := ((List.range 64).filter fun p => clean (32 * p + 16)).length
    let height := ((List.range 32).filter fun v => clean (32 * 32 + v)).length
    ∃ u : State, exec (.haloComplete l errors) s = .next u.settle ∧
      u.get F.DML_HALOSTAT_BUSY l = 0 ∧ u.get F.DML_HALOSTAT_DONE l = 1 ∧
      u.get F.DML_HALOSTAT_WIDTH l = width ∧ u.get F.DML_HALOSTAT_HEIGHT l = height ∧
      u.get F.DML_HALOSTAT_AREA l = ((List.range 2048).filter clean).length ∧
      (∀ i < 2048, bitsOf (u.rd (F.DML_HALO_WORD.addr l (i / 4))).toNat (8 * (i % 4) + 7) (8 * (i % 4)) =
        haloByte (s.lane l).haloDwell (errors.getD i 0)) ∧
      u.evt.raised = (if width < s.get F.DML_HALOMASK_MINW l ∨ height < s.get F.DML_HALOMASK_MINH l
        then [(Ev.HALO_MARGIN, BitVec.ofNat 32 l, BitVec.ofNat 32 (width + 65536 * height))] else []))

/-- ALIGN, INPUT, STATE and COPY segments give a standby the period, the inputs, the cells' states and the copy of the engine.
Rests on: 02_control_period.md R35, 05_damond_link.md R163, 13_redundancy.md R324, 13_redundancy.md R325, 13_redundancy.md R326,
13_redundancy.md R328, 13_redundancy.md R333. -/
def Obligations.CrosslinkSegmentsKeepAStandbyInStep : Prop :=
  ∀ s : State, s.Quiet →
    let good := fun g : XlSeg => s.xlHears g.lane = true ∧ g.head.parity = false ∧ g.head.crcOk = true
    let own := fun g : XlSeg => s.period % 2 ^ 32 = g.head.period.toNat
    let first := fun k : Nat => s.red.got.contains k = false
    (∀ (g : XlSeg) (c : Instr), (∃ m r, c = .xlAlignFrame g.lane g.head m r) ∨ (∃ f : XlInput, f.seg = g ∧ c = .xlInputFrame f) ∨
        (∃ f : XlState, f.seg = g ∧ c = .xlStateFrame f) ∨ (∃ es last, c = .xlCopyFrame g es last) ∨ (∃ es, c = .xlRegFrame g es) ∨
        c = .xlCtrlResign g ∨ (∃ h, c = .xlCtrlSwap g h) →
      (s.xlHears g.lane = true → g.head.parity = true → exec c s = .next (s.pulse Ev.XING_PAR).settle) ∧
      (s.xlHears g.lane = false ∨ (g.head.parity = false ∧ g.head.crcOk = false) → exec c s = .next s)) ∧
    (∀ (g : XlSeg) (m : Int) (r : BitVec 4), good g → first 0 → s.red.peerM = none → s.lnState (24 + g.lane.val) ≠ lnAlign →
      let gone := r.toNat == roleResigned
      let t := (s.setLane (24 + g.lane.val) { s.lane (24 + g.lane.val) with xlGot := true }).putB F.RED_STAT_PEERRDY (r.toNat == roleReady)
      let u : State := { t with red := { s.red with got := 0 :: s.red.got, ownM := some m, peerGone := gone } }
      (s.role = roleAlign → exec (.xlAlignFrame g.lane g.head m r) s =
        .next { u with period := s.period / 2 ^ 32 * 2 ^ 32 + g.head.period.toNat }) ∧
      (s.role ≠ roleAlign → own g → exec (.xlAlignFrame g.lane g.head m r) s =
        .next (if gone = true ∧ s.red.peerGone = false ∧ s.role = roleActive then (u.pulse Ev.RED_PEER).settle else u)) ∧
      (s.role ≠ roleAlign → ¬ own g → exec (.xlAlignFrame g.lane g.head m r) s = .next s)) ∧
    (∀ f : XlInput, good f.seg →
      (s.inStep = true → own f.seg → first 1 → s.red.takeDue = false → exec (.xlInputFrame f) s = .next { s with
        ce := { s.ce with xlIn := some { fast := f.fast, hk := f.hk, net := f.net, therm := f.therm, safe := f.safe } }
        red := { s.red with got := 1 :: s.red.got, safe0 := f.safe == 0 } }) ∧
      (s.inStep = false ∨ ¬ own f.seg ∨ ¬ first 1 → exec (.xlInputFrame f) s = .next s)) ∧
    (∀ f : XlState, good f.seg → s.inStep = true → first 2 → s.red.ownM = none → own f.seg →
      let same := s.ceCrc = f.ceCrc ∧ s.rd F.SYS_CFGCRC_CRC.base = f.cfgCrc
      ∃ u : State, exec (.xlStateFrame f) s = .next u.settle ∧ u.red.peerM = some f.mA ∧
        (∀ c ∈ s.cellList, f.cells.getD c 0 < 12 → u.cState c = f.cells.getD c 0) ∧
        (same → u.red.agree = s.red.agree + 1 ∧
          u.role = if s.role = roleSync ∧ s.red.copied ∧ 4 ≤ s.red.agree + 1 ∧ s.xlUp 0 ∧ s.xlUp 1 then roleReady else s.role) ∧
        (¬ same → u.red.agree = 0 ∧ u.role = roleSync ∧ (Ev.RED_DIVERGE, 0, 0) ∈ u.evt.raised)) ∧
    (∀ (g : XlSeg) (es : List (Nat × Int)) (last : Bool), good g →
      (s.role = roleSync → own g → first 3 → s.red.copied = false → es ≠ [] → es.length ≤ 128 →
        (s.red.winEnd = false → exec (.xlCopyFrame g es last) s =
          .next { s with red := { s.red with got := 3 :: s.red.got, copyDue := es, copyLast := last } }) ∧
        (s.red.winEnd = true → ∃ t : State, exec (.xlCopyFrame g es last) s = .next t ∧ t.red.copyN = s.red.copyN + es.length ∧
          t.red.copied = last ∧ (last = true → t.get F.RED_STAT_SYNCPCT = 100) ∧ (last = false → t.get F.RED_STAT_SYNCPCT ≤ 99) ∧
          t.role = roleSync)) ∧
      (s.role ≠ roleSync ∨ ¬ own g ∨ ¬ first 3 → exec (.xlCopyFrame g es last) s = .next s))

/-- REG entries, CTRL RESIGN, CTRL SWAP, the loss of both crosslink lanes and terminated command frames act on a standby as the
chapter says. Rests on: 02_control_period.md R35, 03_register_model.md R82, 05_damond_link.md R163, 13_redundancy.md R325,
13_redundancy.md R326, 13_redundancy.md R328, 13_redundancy.md R329, 13_redundancy.md R334, 13_redundancy.md R338,
13_redundancy.md R343. -/
def Obligations.CrosslinkCommandsReachAStandby : Prop :=
  ∀ s : State, s.Quiet →
    let good := fun g : XlSeg => s.xlHears g.lane = true ∧ g.head.parity = false ∧ g.head.crcOk = true
    let own := fun g : XlSeg => s.period % 2 ^ 32 = g.head.period.toNat
    let got := fun k : Nat => ({ s with red := { s.red with got := k :: s.red.got } } : State)
    (∀ (g : XlSeg) (v : Word) (path i : Nat), good g → own g → s.isStandby = true → s.red.got.contains 4 = false → i < 16 →
      s.bufCount (F.CE_SP_VALUE.addr i) < 64 → s.bus.held = [] →
      exec (.xlRegFrame g [⟨F.CE_SP_VALUE.addr i, v, path, .write⟩]) s =
        .next ((got 4).pushBuf ⟨path, F.CE_SP_VALUE.addr i, v, 0xFFFFFFFF, false, none, false⟩)) ∧
    (∀ g es, good g → s.isStandby = false ∨ s.red.got.contains 4 = true ∨ ¬ own g → exec (.xlRegFrame g es) s = .next s) ∧
    (∀ g : XlSeg, good g →
      (own g → s.red.got.contains 5 = false →
        (s.role = roleReady → s.red.takeDue = false → exec (.xlCtrlResign g) s =
          .next { s with red := { s.red with got := 5 :: s.red.got, swapAt := none, takeDue := true, bSeen := false, arrival := s.ct } }) ∧
        (s.role = roleAlign ∨ s.role = roleSync → exec (.xlCtrlResign g) s =
          .next (({ s with red := { s.red with got := 5 :: s.red.got, swapAt := none } } : State).pulse Ev.RED_NOTAKE).settle) ∧
        (s.role = roleActive → exec (.xlCtrlResign g) s =
          .next (({ s with red := { s.red with got := 5 :: s.red.got, swapAt := none } } : State).pulse Ev.RED_PEER).settle)) ∧
      (¬ own g ∨ s.red.got.contains 5 = true → exec (.xlCtrlResign g) s = .next s) ∧
      (∀ h, own g → s.red.got.contains 6 = false → s.role = roleReady →
        exec (.xlCtrlSwap g h) s = .next { s with red := { s.red with got := 6 :: s.red.got, swapAt := some h } }) ∧
      (∀ h, own g → s.red.got.contains 6 = false → s.role ≠ roleReady → exec (.xlCtrlSwap g h) s = .next (got 6)) ∧
      (∀ h, ¬ own g ∨ s.red.got.contains 6 = true → exec (.xlCtrlSwap g h) s = .next s)) ∧
    (s.duplex = true → s.xlUp 0 = false → s.xlUp 1 = false → ∃ u : State, exec .xlBothLost s = .next u.settle ∧
      u.evt.raised = [(Ev.XL_DOWN, 0, 0)] ∧ u.role = (if s.isStandby then roleAlign else s.role) ∧
      (∀ a, a ≠ R.RED_STAT.base → u.rd a = s.rd a)) ∧
    (s.xlUp 0 = true ∨ s.xlUp 1 = true → exec .xlBothLost s = .next s) ∧
    (∀ l : LaneId, s.inStep = true → s.lnState l = lnService →
      (∃ u : State, exec (.commandFrameTerminate l []) s = .next u.settle ∧
        u.red.lastCmd = s.period ∧ (∀ a, a ≠ R.RED_XERR.base → u.rd a = s.rd a) ∧ u.cells = s.cells) ∧
      (∀ r c, s.laneCells l = [c] → r.parity = true → exec (.commandFrameTerminate l [r]) s =
        .next (({ s with red := { s.red with lastCmd := s.period } } : State).pulse Ev.XING_PAR).settle)) ∧
    (∀ (l : LaneId) (recs : List GatherRec), s.inStep = true → s.lnState l = lnService → ∃ u : State,
      exec (.commandFrameTerminate l recs) s = .next u.settle ∧ u.red.lastCmd = s.period ∧ s.SameStore u ∧ u.lanes = s.lanes) ∧
    (∀ l recs, s.inStep = false → exec (.commandFrameTerminate l recs) s = .next s)

/-! ### Cells and the control engine -/

/-- CELL_START, STOP, BYPASS and RELEASE and GROUP_START and STOP wait for the boundary where the state allows them, and return
STATE elsewhere. Rests on: 01_converter_model.md R19, 03_register_model.md R62, 03_register_model.md R67, 06_cell_protocol.md
R187, 13_redundancy.md R329, 14_safety_functions.md R348. -/
def Obligations.CellAndGroupCommandsWaitForTheBoundary : Prop :=
  ∀ (s : State) (path : Path), s.Ready path → s.thawed path = true → s.ownsOpen path = false → s.bus.held = [] →
    let waits := fun (a : Nat) (v mask : Word) =>
      (((s.pushBuf ⟨path, a, v, mask, false, none, s.regGone⟩).forward ⟨a, v, path, .write⟩).refreeze path).noteCode path .ok
    (∀ c : CellId, s.bufCount (F.CELL_CTRL_CMD.addr c) < 64 →
      let sent := fun cmd : Nat => waits (F.CELL_CTRL_CMD.addr c) (BitVec.ofNat 32 cmd) 7
      (s.cellCmdOk c 1 = true → exec (.cellStart path c) s = .next (sent 1)) ∧
      (s.cellCmdOk c 2 = true → exec (.cellStop path c) s = .next (sent 2)) ∧
      (s.cellCmdOk c 3 = true → exec (.cellBypass path c) s = .next (sent 3)) ∧
      (s.cellCmdOk c 4 = true → exec (.cellRelease path c) s = .next (sent 4)) ∧
      (s.cellCmdOk c 1 = false → exec (.cellStart path c) s = .next (s.noteCode path .state)) ∧
      (s.cellCmdOk c 2 = false → exec (.cellStop path c) s = .next (s.noteCode path .state)) ∧
      (s.cellCmdOk c 3 = false → exec (.cellBypass path c) s = .next (s.noteCode path .state)) ∧
      (s.cellCmdOk c 4 = false → exec (.cellRelease path c) s = .next (s.noteCode path .state))) ∧
    (s.bufCount R.CELL_GCTRL.base < 64 →
      exec (.groupStop path) s = .next (waits R.CELL_GCTRL.base 2 3) ∧
      exec (.groupStart path) s = .next (if s.whiteout = false ∧ (s.stagedHash fun _ => true) = false
        then waits R.CELL_GCTRL.base 1 3 else s.noteCode path .state))

/-- At the boundary a waiting cell command acts on its cell and a group command on every cell that allows it. Rests on:
01_converter_model.md R22, 04_image_and_lifecycle.md R114, 04_image_and_lifecycle.md R115, 06_cell_protocol.md R183,
06_cell_protocol.md R185, 06_cell_protocol.md R186, 06_cell_protocol.md R187, 08_mv_modulation_balancing.md R234. -/
def Obligations.CellAndGroupCommandsActAtTheBoundary : Prop :=
  (let other := fun u : State => u.evt.raised
   ∀ (s : State) (path cmd : Nat) (c : CellId), s.Quiet → cmd < 8 →
     s.bus.buf = [⟨path, F.CELL_CTRL_CMD.addr c, BitVec.ofNat 32 cmd, 7, false, none, false⟩] → s.bus.held = [] → s.bus.stage = [] →
     ∃ u : State, exec (.bufferedWriteApply .period) s = .next u.settle ∧ u.bus.buf = [] ∧ s.SameStore u ∧
       (∀ d : CellId, d ≠ c → u.cState d = s.cState d ∧ u.cell d = s.cell d) ∧
       (s.cellCmdOk c cmd = false → other u = [(Ev.CELL_CFG_REJ, BitVec.ofNat 32 c, BitVec.ofNat 32 cmd)] ∧
         u.cState c = s.cState c ∧ u.cell c = s.cell c) ∧
       (s.cellCmdOk c cmd = true → other u = [] ∧
         (cmd = 1 → s.cState c = csBlocked → u.cState c = csQueued ∧ u.budget.queue = insertReq ⟨false, c, s.period⟩ s.budget.queue) ∧
         (cmd = 1 → s.cState c ≠ csBlocked → u.cState c = s.cState c ∧ u.budget = s.budget) ∧
         (cmd = 2 → u.cState c = csBlocked ∧ u.get F.CELL_STAT_PRMOK c = 0 ∧
           u.budget.queue = (s.budget.queue.filter fun r => r.pump || r.cell != c.val) ∧ (u.cell c).prech = 0 ∧
           ((s.cell c).unit = true → (u.cell c).unitBack = true) ∧
           ∃ x, (u.cell c).sets.getLast? = some x ∧ x.kind = .params ∧ x.words = stageWords x.tag true (s.paramPairs c)) ∧
         (cmd = 3 → u.cState c = s.cState c ∧ u.cell c = { s.cell c with bypassDue := true }) ∧
         (cmd = 4 → u.cState c = s.cState c ∧ u.cell c = { s.cell c with release := true }))) ∧
  (let other := fun u : State => u.evt.raised
   ∀ (s : State) (path : Nat), s.Quiet → s.bus.held = [] → s.bus.stage = [] →
     (s.bus.buf = [⟨path, R.CELL_GCTRL.base, 1, 3, false, none, false⟩] →
       let may := (s.stagedHash fun _ => true) = false ∧ s.whiteout = false ∧ s.startTest = true ∧ ∀ c ∈ s.cellList, s.cState c = csBlocked → s.flag F.CELL_STAT_PRMOK c = true
       ∃ u : State, exec (.bufferedWriteApply .period) s = .next u.settle ∧ u.bus.buf = [] ∧
         (¬ may → other u = [if (s.stagedHash fun _ => true) = true then (Ev.CELL_CFG_REJ, BitVec.ofNat 32 s.hashCell, 1)
           else (Ev.START_REFUSED, 0, 0)] ∧ u.cells = s.cells ∧ u.budget = s.budget ∧
           ∀ a, a ≠ R.CELL_GCTRL.base → u.rd a = s.rd a) ∧
         (may → other u = [] ∧ ∀ c < 288, u.cState c = (if s.cState c = csBlocked then csQueued else s.cState c) ∧
           (s.cState c = csBlocked → ⟨false, c, s.period⟩ ∈ u.budget.queue) ∧ u.cell c = s.cell c)) ∧
     (s.bus.buf = [⟨path, R.CELL_GCTRL.base, 2, 3, false, none, false⟩] →
       ∃ u : State, exec (.bufferedWriteApply .period) s = .next u.settle ∧ u.bus.buf = [] ∧ other u = [] ∧
         (∀ c < 288, u.cState c = if s.cState c = csQueued ∨ s.cState c = csPrecharge ∨ s.cState c = csReady ∨ s.cState c = csSpare
           then csBlocked else s.cState c) ∧
         ((∃ c < 288, s.cState c = csRun) → u.get F.MVS_STAT_STOPPING = 1) ∧
         ((∀ c < 288, s.cState c ≠ csRun) → u.get F.MVS_STAT_STOPPING = s.get F.MVS_STAT_STOPPING)))

/-- PRECHARGE_TIMEOUT fails a cell in PRECHARGE with EV_CELL_PRECHG; STAGING_RESEND_TIMEOUT sends a set again, and drops it
after the third resend. Rests on: 06_cell_protocol.md R182, 06_cell_protocol.md R185, 06_cell_protocol.md R186. -/
def Obligations.PrechargeAndStagingTimersActOnTheCell : Prop :=
  ∀ (s : State) (c : CellId), s.Quiet →
    (s.cState c ≠ csPrecharge → exec (.prechargeTimeout c) s = .next s) ∧
    (s.cState c = csPrecharge → ∃ u : State, exec (.prechargeTimeout c) s = .next u.settle ∧ u.cState c = csFailed ∧
      u.evt.raised = [(Ev.CELL_PRECHG, BitVec.ofNat 32 c, 0)] ∧ ((s.cell c).unit = true → (u.cell c).unitBack = true) ∧
      u.budget = { s.budget with queue := s.budget.queue.filter fun r => r.pump || r.cell != c.val } ∧
      (∀ d : CellId, d ≠ c → u.cell d = s.cell d) ∧ (∀ a, a ≠ F.CELL_STAT_STATE.addr c → u.rd a = s.rd a) ∧ s.SameStore u) ∧
    ((s.cell c).sets = [] → exec (.stagingResendTimeout c) s = .next s) ∧
    (∀ t ts, (s.cell c).sets = t :: ts →
      (t.kind = .txn ∨ t.next < t.words.length → exec (.stagingResendTimeout c) s = .next s) ∧
      (t.kind ≠ .txn → t.words.length ≤ t.next → t.resends < 3 → ∃ u : State, exec (.stagingResendTimeout c) s = .next u ∧
        (let tag := ((s.cell c).lastTag + 1) % 256
         u.cell c = { s.cell c with
           lastTag := tag, sets := { t with tag := tag, words := retag tag t.words, next := 0, resends := t.resends + 1 } :: ts }) ∧
        (∀ d, d ≠ c.val → u.cell d = s.cell d) ∧ u = { s with cells := u.cells }) ∧
      (t.kind = .params → t.words.length ≤ t.next → 3 ≤ t.resends → exec (.stagingResendTimeout c) s =
        .next ((s.setCell c { s.cell c with sets := ts }).pulse Ev.CELL_PARAM c 0xFF).settle))

/-- CE_CLR clears MAXFIN and SATLAST; ARM clears and starts trace channels, STOP ends running ones, SW asks for a trigger, and a
half that is not taken is lost. Rests on: 07_control_engine.md R193, 07_control_engine.md R214, 07_control_engine.md R216,
16_acquisition.md R408. -/
def Obligations.TraceChannelsArmStopAndSpill : Prop :=
  (∀ (s : State) (path : Path), s.Ready path →
    exec (.ceClrSatlast path) s = .next ((s.wr R.CE_SATLAST.base 0).noteCode path .ok) ∧
    (∃ t : State, exec (.ceClrMaxfin path) s = .next (t.noteCode path .ok) ∧ t = { s with regs := t.regs } ∧
      (∀ n < 3, t.get F.CE_SLSTAT_MAXFIN n = 0 ∧ t.get F.CE_SLSTAT_FINISH n = s.get F.CE_SLSTAT_FINISH n) ∧
      (∀ a, (∀ n < 3, a ≠ F.CE_SLSTAT_MAXFIN.addr n) → t.rd a = s.rd a)) ∧
    (∀ mask : BitVec 16, ∃ u : State, exec (.traceArm path mask) s = .next u.settle ∧
      ∀ n < 16, (mask.getLsbD n = true → u.trace n = {} ∧ (s.get F.CE_TRCFG_MODE n ≠ 3 → u.spillRec n = none) ∧ u.get F.CE_TRSTAT_WRPTR n = 0 ∧
          u.get F.CE_TRSTAT_STATE n = if s.get F.CE_TRCFG_MODE n = 0 then 0 else 1) ∧
        (mask.getLsbD n = false → u.trace n = s.trace n ∧ u.rd (F.CE_TRSTAT_STATE.addr n) = s.rd (F.CE_TRSTAT_STATE.addr n))) ∧
    (∀ mask : BitVec 16, ∃ u : State, exec (.traceStop path mask) s = .next u.settle ∧
      ∀ n < 16, u.trace n = s.trace n ∧ u.get F.CE_TRSTAT_STATE n =
        if mask.getLsbD n ∧ (s.get F.CE_TRSTAT_STATE n = 1 ∨ s.get F.CE_TRSTAT_STATE n = 2) then 3 else s.get F.CE_TRSTAT_STATE n) ∧
    (∀ v : Word, v &&& 0x700FF000#32 = 0 → s.ownsOpen path = false → s.bus.held = [] →
      s.bufCount R.CE_TRTRIG.base < 64 →
      let t := (s.pushBuf ⟨path, R.CE_TRTRIG.base, v, 0x0FF00FFF, false, none, s.regGone⟩).forward ⟨R.CE_TRTRIG.base, v, path, .write⟩
      exec (.traceSwTrigger path v) s =
        .next (({ t with ce := { t.ce with trigDue := t.ce.trigDue || v.getLsbD 31 } } : State).noteCode path .ok))) ∧
  (∀ (s : State) (n : Fin 16), s.Quiet →
    let due := s.get F.CE_TRSTAT_STATE n = 1 ∧ s.get F.CE_TRCFG_MODE n = 3 ∧ (s.trace n).halves < (s.trace n).taken / 32768
    (¬ due → ∀ b, exec (.traceHalfSpill n b) s = .next s) ∧
    (due → ∃ u : State, exec (.traceHalfSpill n false) s = .next u.settle ∧ u.get F.CE_TRSTAT_LOST n = 1 ∧
      u.evt.raised = [(Ev.TRACE_LOST, BitVec.ofNat 32 n, 0)] ∧
      u.trace n = { s.trace n with halves := (s.trace n).halves + 1 } ∧
      (∀ a, a ≠ F.CE_TRSTAT_LOST.addr n → u.rd a = s.rd a) ∧ s.SameStore u))

/-! ### The LV stage and the gate drives -/

/-- LVS_CMP_HOST_WRITE waits for its channel's reload and tells when it came late; LVS_FORCE_GO and LVS_FORCE_RELEASE set and
drop every force in one CT. Rests on: 03_register_model.md R62, 03_register_model.md R66, 03_register_model.md R67, 10_lv_pwm.md
R257, 10_lv_pwm.md R258, 10_lv_pwm.md R262, 10_lv_pwm.md R263, 10_lv_pwm.md R270. -/
def Obligations.HostComparesAndForcesReachTheChannels : Prop :=
  ∀ (s : State) (path : Path), s.Ready path →
    (∀ (n : ChanId) (v : Word), v.toNat < 2 ^ 20 → s.ownsOpen path = false → s.bus.held = [] →
      s.bufCount (F.LVS_CMP_CMP.addr n) < 64 →
      let a := F.LVS_CMP_CMP.addr n
      let t := ((s.pushBuf ⟨path, a, v, 0xFFFFF, false, none, false⟩).forward ⟨a, v, path, .write⟩).noteCode path .ok
      (n.val < 16 → s.flag F.LVS_CFG_HOSTCTL n = true →
        exec (.lvsCmpHostWrite path n v false) s = .next t ∧
        exec (.lvsCmpHostWrite path n v true) s = .next (((t.notNow s.bus.stage a).put F.LVS_PWM_STAT_LATE 1 n).pulse Ev.LV_LATE n).settle) ∧
      (16 ≤ n.val ∨ s.flag F.LVS_CFG_HOSTCTL n = false → ∀ late,
        exec (.lvsCmpHostWrite path n v late) s = .next (s.noteCode path .state))) ∧
    (s.thawed path = true → ∀ (i : Instr) (f : Nat → Nat),
      (i = .lvsForceGo path ∧ f = s.heldForce) ∨ (i = .lvsForceRelease path ∧ f = fun _ => 0) →
      ∃ u : State, exec i s = .next u.settle ∧ u.thawed path = false ∧
        (∀ n < 18, u.get F.LVS_PWM_STAT_FORCE n = f n ∧ u.ShowsDrives n) ∧
        u.flag F.LVS_STAT_FORCED = ((List.range 18).any fun n => f n != 0) ∧ s.SameStore u)

/-- PWM_COMPARE_MATCH, DEAD_TIME_EXPIRY, PWM_PERIOD_WRAP and CHOP_TONMIN_EXPIRY move the raw drive and the delay stage of their
own channel only. Rests on: 10_lv_pwm.md R254, 10_lv_pwm.md R260, 10_lv_pwm.md R262, 10_lv_pwm.md R264, 10_lv_pwm.md R267. -/
def Obligations.CountersAndDelaysFormTheRawDrives : Prop :=
  ∀ s : State, s.Quiet →
    (∀ n : ChanId,
      let due := (s.chan n).running = true ∧ 0 < s.get F.LVS_CMP_CMP n ∧ s.counter n = s.get F.LVS_CMP_CMP n ∧
        (n.val < 16 ∨ s.chopMode (n.val - 16) = 2)
      (¬ due → exec (.pwmCompareMatch n) s = .next s) ∧
      (due → ∃ u : State, exec (.pwmCompareMatch n) s = .next u.settle ∧ (u.chan n).raw = false ∧ u.ShowsDrives n ∧
        (n.val < 16 → (s.get F.LVS_DT_DF n = 0 → (u.chan n).dH = false) ∧ (s.get F.LVS_DT_DF n ≠ 0 → (u.chan n).dH = (s.chan n).dH) ∧
          (s.get F.LVS_DT_DR n = 0 → (s.chan n).restart = false → (u.chan n).dL = true) ∧
          (s.get F.LVS_DT_DR n ≠ 0 → (u.chan n).dL = (s.chan n).dL)) ∧
        (∀ m, m ≠ n.val → u.chan m = s.chan m))) ∧
    (∀ (n : PairId) (high : Bool),
      let passed := (s.chan n).rawCt + s.delayOf n high ≤ s.ct
      ((s.chan n).running = false ∨ (s.chan n).restart = true ∨ ¬ passed → exec (.deadTimeExpiry n high) s = .next s) ∧
      ((s.chan n).running = true → (s.chan n).restart = false → passed → ∃ u : State, exec (.deadTimeExpiry n high) s = .next u.settle ∧
        (u.chan n).dH = (if high then (s.chan n).raw else (s.chan n).dH) ∧
        (u.chan n).dL = (if high then (s.chan n).dL else !(s.chan n).raw) ∧ u.ShowsDrives n ∧
        (∀ m, m ≠ n.val → u.chan m = s.chan m))) ∧
    (∀ n : PairId,
      let k := s.get F.LVS_PWM_STAT_SHOOTCNT n
      let trips := (s.chan n).rejecting = true ∧ s.get F.LVS_GCFG_SHOOTN ≤ satInc 15 k ∧ (s.chan n).shoot = false
      (s.counter n ≠ 0 → exec (.pwmPeriodWrap ⟨n.val, by omega⟩) s = .next s) ∧
      (s.counter n = 0 → ∃ u : State, exec (.pwmPeriodWrap ⟨n.val, by omega⟩) s = .next u.settle ∧
        ((s.chan n).running = true → (u.chan n).raw = decide (0 < s.get F.LVS_CMP_CMP n)) ∧
        u.get F.LVS_PWM_STAT_SHOOTCNT n =
          (if (s.chan n).rejecting then satInc 15 k else if 1024 ≤ (s.chan n).clean + 1 then 0 else k) ∧
        (trips → (u.chan n).shoot = true ∧ (Ev.LV_SHOOT, BitVec.ofNat 32 n, BitVec.ofNat 32 s.ctcnt) ∈ u.evt.raised ∧
          (u.chan n).outH = false ∧ (u.chan n).outL = false) ∧
        (¬ trips → (u.chan n).shoot = (s.chan n).shoot) ∧ (∀ m, m ≠ n.val → u.chan m = s.chan m))) ∧
    (∀ c : Fin 2, s.counter (16 + c.val) ≠ 0 → exec (.pwmPeriodWrap ⟨16 + c.val, by omega⟩) s = .next s) ∧
    (∀ c : Fin 2, s.counter (16 + c.val) = 0 → ∃ u : State, exec (.pwmPeriodWrap ⟨16 + c.val, by omega⟩) s = .next u.settle ∧
      ((s.chan (16 + c.val)).running = true → s.chopMode c = 2 →
        (u.chan (16 + c.val)).raw = decide (0 < s.get F.LVS_CMP_CMP (16 + c.val))) ∧
      ((s.chan (16 + c.val)).running = false ∨ s.chopMode c ≠ 2 → u = s) ∧ (∀ m, m ≠ 16 + c.val → u.chan m = s.chan m)) ∧
    (∀ c : Fin 2,
      let x := s.chan (16 + c.val)
      (x.chopHold = false → exec (.chopTonminExpiry c) s = .next s) ∧
      (x.chopHold = true → s.chopMode c ≠ 1 ∨ x.raw = x.chopWin →
        exec (.chopTonminExpiry c) s = .next (s.setChan (16 + c.val) { x with chopHold := false })) ∧
      (x.chopHold = true → s.chopMode c = 1 → x.raw ≠ x.chopWin → ∃ u : State, exec (.chopTonminExpiry c) s = .next u.settle ∧
        (u.chan (16 + c.val)).raw = x.chopWin ∧ u.ShowsDrives (16 + c.val) ∧
        (u.chan (16 + c.val)).chopHold = (s.get F.LVS_CHOPCFG_TONMIN c != 0) ∧ (∀ m, m ≠ 16 + c.val → u.chan m = s.chan m)))

/-- An active trip line latches and drives every channel of its scope low; a clear is refused while it is active, and of a
SHOOTN trip while a force is on. Rests on: 10_lv_pwm.md R264, 10_lv_pwm.md R265, 10_lv_pwm.md R266, 11_gate_drive_protection.md
R278, 11_gate_drive_protection.md R280, 11_gate_drive_protection.md R281, 11_gate_drive_protection.md R282. -/
def Obligations.TripsDriveTheirScopeLowUntilCleared : Prop :=
  (∀ (s : State) (l : Fin 8), s.Quiet →
    (s.tripLevel l = true → exec (.tripLineInactive l) s = .next s) ∧
    (s.tripLevel l = false → exec (.tripLineInactive l) s = .next (s.putBit F.LVS_TRIPSTAT_ACTIVE l false) ∧
      exec (.tripLineActive l) s = .next s) ∧
    (s.tripLevel l = true → s.flag F.LVS_TRIPCFG_EN l = false →
      exec (.tripLineActive l) s = .next (s.putBit F.LVS_TRIPSTAT_ACTIVE l true)) ∧
    (s.tripLevel l = true → s.flag F.LVS_TRIPCFG_EN l = true →
      let scope := s.get F.LVS_TRIPSCOPE_SCOPE l
      ∃ u : State, exec (.tripLineActive l) s = .next u.settle ∧
        u.get F.LVS_TRIPSTAT_ACTIVE = setBit (s.get F.LVS_TRIPSTAT_ACTIVE) l true ∧
        u.get F.LVS_TRIPSTAT_LATCHED = setBit (s.get F.LVS_TRIPSTAT_LATCHED) l true ∧
        (Ev.LV_TRIP, BitVec.ofNat 32 l, BitVec.ofNat 32 scope) ∈ u.evt.raised ∧
        (∀ n < 18, scope.testBit n = true → (u.chan n).outH = false ∧ (u.chan n).outL = false ∧ (u.chan n).restart = true) ∧
        (s.flag F.GDI_FIRST_VALID = false ∨ (s.gdi.firstAt = s.ct ∧ s.tripClass l < s.get F.GDI_FIRST_CLASS) →
          u.get F.GDI_FIRST_VALID = 1 ∧ u.get F.GDI_FIRST_CLASS = s.tripClass l ∧ u.get F.GDI_FIRST_INDEX = l) ∧
        (s.flag F.GDI_FIRST_VALID = true → s.gdi.firstAt ≠ s.ct → u.rd R.GDI_FIRST.base = s.rd R.GDI_FIRST.base) ∧ s.SameStore u)) ∧
  (∀ (s : State) (path : Path) (l : Fin 8), s.Ready path →
    let latched := (s.get F.LVS_TRIPSTAT_LATCHED).testBit l
    let active := (s.get F.LVS_TRIPSTAT_ACTIVE).testBit l || s.justSet (1, l)
    (latched = false → exec (.tripLineClear path l) s = .next (s.noteCode path .ok)) ∧
    (latched = true → active = true → exec (.tripLineClear path l) s =
      .next (((s.putBit F.LVS_TRIPSTAT_TRIP_CLR_REJ l true).pulse Ev.GD_CLR_REJ l).noteCode path .ok).settle) ∧
    (latched = true → active = false → ∃ u : State, exec (.tripLineClear path l) s = .next u.settle ∧
      u.get F.LVS_TRIPSTAT_LATCHED = setBit (s.get F.LVS_TRIPSTAT_LATCHED) l false ∧
      u.get F.LVS_TRIPSTAT_TRIP_CLR_REJ = s.get F.LVS_TRIPSTAT_TRIP_CLR_REJ ∧ s.SameStore u ∧
      (∀ n < 18, s.latchLow n = true → u.latchLow n = false → (u.chan n).restart = true))) ∧
  (∀ (s : State) (path : Path) (n : PairId), s.Ready path →
    ((s.chan n).shoot = false → exec (.shootTripClear path n) s = .next ((s.put F.LVS_PWM_STAT_SHOOT_REJ 0 n).noteCode path .ok)) ∧
    ((s.chan n).shoot = true → s.forceH n = 2 ∨ s.forceL n = 2 ∨ s.justSet (2, n) = true → exec (.shootTripClear path n) s =
      .next (((s.putBit F.GDI_CLRSTAT_SHOOT n true).pulse Ev.GD_CLR_REJ n).noteCode path .ok).settle) ∧
    ((s.chan n).shoot = true → s.forceH n ≠ 2 → s.forceL n ≠ 2 → s.justSet (2, n) = false → ∃ u : State, exec (.shootTripClear path n) s = .next u.settle ∧
      (u.chan n).shoot = false ∧ u.get F.LVS_PWM_STAT_SHOOTCNT n = 0 ∧ (u.latchLow n = false → (u.chan n).restart = true) ∧
      (∀ m, m ≠ n.val → (u.chan m).shoot = (s.chan m).shoot ∧ (u.chan m).raw = (s.chan m).raw ∧ (u.chan m).dH = (s.chan m).dH ∧
        (u.chan m).dL = (s.chan m).dL ∧ (u.chan m).restart = (s.chan m).restart) ∧ s.SameStore u))

/-- FAULTn latches and holds the outputs of its scope, the end of the hold drives them low, and a latch clears only with line,
READYn and hold at rest. Rests on: 03_register_model.md R67, 11_gate_drive_protection.md R273, 11_gate_drive_protection.md R274,
11_gate_drive_protection.md R276, 11_gate_drive_protection.md R277, 11_gate_drive_protection.md R278,
11_gate_drive_protection.md R279, 11_gate_drive_protection.md R280, 11_gate_drive_protection.md R281,
11_gate_drive_protection.md R282. -/
def Obligations.DriverFaultsHoldThenDropTheirScope : Prop :=
  (∀ (s : State) (n : PairId), s.Quiet →
    let act : State := { s with gdi := { s.gdi with fltAct := setBit s.gdi.fltAct n true } }
    let acts := fun u : State => u.get F.GDI_FLT_LATCHED = setBit (s.get F.GDI_FLT_LATCHED) n true ∧ u.get F.GDI_TS_TS n = s.ctcnt ∧
      (Ev.GD_FAULT, BitVec.ofNat 32 n, 0) ∈ u.evt.raised ∧ u.flag F.GDI_HOLD_ACTIVE = true ∧
      (u.get F.GDI_HOLD_MEMBERS).testBit n = true ∧ s.SameStore u ∧
      u.get F.GDI_HOLDREL_RELEASE = (s.ctcnt + s.get F.GDI_CFG_SOFTHOLD) % 2 ^ 32 ∧
      (∀ m < 18, (s.faultScope n).testBit m = true → s.hardLow m = false → s.inDeadTime m = false →
        ¬ ((s.drives m).1 = true ∧ (s.drives m).2 = true) →
        (u.chan m).outH = (s.chan m).outH ∧ (u.chan m).outL = (s.chan m).outL)
    ((s.chan n).blank = true → exec (.faultActive n) s = .next act) ∧
    ((s.chan n).blank = false → ∃ u : State, exec (.faultActive n) s = .next u.settle ∧ acts u) ∧
    exec (.faultRelease n) s = .next { s with gdi := { s.gdi with fltAct := setBit s.gdi.fltAct n false } } ∧
    ((s.chan n).blank = false → exec (.blankingEnd n) s = .next s) ∧
    ((s.chan n).blank = true → s.gdi.fltAct.testBit n = false →
      exec (.blankingEnd n) s = .next (s.setChan n { s.chan n with blank := false })) ∧
    ((s.chan n).blank = true → s.gdi.fltAct.testBit n = true → ∃ u : State, exec (.blankingEnd n) s = .next u.settle ∧ acts u) ∧
    exec (.readyFall n) s = .next (if (s.chan n).running then ((s.putBit F.GDI_FLT_READYLOW n true).pulse Ev.GD_READY n).settle
      else s.putBit F.GDI_FLT_READYLOW n true) ∧
    exec (.readyRise n) s = .next (s.putBit F.GDI_FLT_READYLOW n false)) ∧
  (∀ s : State, s.Quiet →
    (s.flag F.GDI_HOLD_ACTIVE = false → exec .holdRelease s = .next s) ∧
    (s.flag F.GDI_HOLD_ACTIVE = true → ∃ u : State, exec .holdRelease s = .next u.settle ∧ u.get F.GDI_HOLD_ACTIVE = 0 ∧
      u.get F.GDI_FLT_LATCHED = s.get F.GDI_FLT_LATCHED ∧ s.SameStore u ∧
      ∀ n < 18, s.gdi.holdScope.testBit n = true → (u.chan n).outH = false ∧ (u.chan n).outL = false ∧ (u.chan n).restart = true)) ∧
  (∀ (s : State) (path : Path) (mask : BitVec 16), s.Ready path → s.thawed path = true →
    let latched := fun n => (s.get F.GDI_FLT_LATCHED).testBit n
    let ended := fun n => !s.gdi.fltAct.testBit n && !(s.get F.GDI_FLT_READYLOW).testBit n && !s.flag F.GDI_HOLD_ACTIVE &&
      !s.justSet (0, n)
    ∃ u : State, exec (.faultClear path mask) s = .next u.settle ∧ u.thawed path = false ∧ s.SameStore u ∧
      ∀ n < 16, (u.get F.GDI_FLT_LATCHED).testBit n = (latched n && !(mask.getLsbD n && ended n)) ∧
        (u.get F.GDI_CLRSTAT_FAULT).testBit n = ((s.get F.GDI_CLRSTAT_FAULT).testBit n || (mask.getLsbD n && latched n && !ended n)) ∧
        (mask.getLsbD n = true → latched n = true → ended n = false → (Ev.GD_CLR_REJ, BitVec.ofNat 32 n, 0) ∈ u.evt.raised))

/-! ### The coolant pump and the automatic retry -/

/-- PUMP_START and PUMP_STOP wait for the boundary; the start runs through QUEUED, DIAG, BOOT and STARTING to RUNNING, or ends
in a fault. Rests on: 03_register_model.md R62, 03_register_model.md R67, 04_image_and_lifecycle.md R115,
11_gate_drive_protection.md R285, 11_gate_drive_protection.md R288, 11_gate_drive_protection.md R289,
11_gate_drive_protection.md R291, 11_gate_drive_protection.md R293. -/
def Obligations.ThePumpStartsThroughItsStates : Prop :=
  let other := fun u : State => u.evt.raised
  (∀ (s : State) (path : Path), s.Ready path → s.thawed path = true → s.ownsOpen path = false → s.bus.held = [] →
    s.bufCount R.GDI_PUCTRL.base < 64 →
    let a := R.GDI_PUCTRL.base
    let waits := fun v : Word => (((s.pushBuf ⟨path, a, v, 3, false, none, s.regGone⟩).forward ⟨a, v, path, .write⟩).refreeze path).noteCode path .ok
    exec (.pumpStop path) s = .next (waits 2) ∧
    exec (.pumpStart path) s = .next (if s.puState = pumpLatched then s.noteCode path .state else waits 1)) ∧
  (∀ (s : State) (path : Nat), s.Quiet → s.bus.held = [] → s.bus.stage = [] →
    (s.bus.buf = [⟨path, R.GDI_PUCTRL.base, 1, 3, false, none, false⟩] → ∃ u : State, exec (.bufferedWriteApply .period) s = .next u.settle ∧
      other u = [] ∧ u.bus.buf = [] ∧
      (s.puState = pumpOff → u.puState = pumpQueued ∧ u.budget.queue = insertReq ⟨true, 0, s.period⟩ s.budget.queue) ∧
      (s.puState ≠ pumpOff → u.puState = s.puState ∧ u.budget = s.budget ∧ u.pump = s.pump)) ∧
    (s.bus.buf = [⟨path, R.GDI_PUCTRL.base, 2, 3, false, none, false⟩] →
      let ended := ∃ x, s.pump.endAt = some x ∧ x.1 = s.ct
      ∃ u : State, exec (.bufferedWriteApply .period) s = .next u.settle ∧ other u = [] ∧ u.bus.buf = [] ∧
      (¬ ended → u.get F.GDI_RETRYSTAT_COUNT 0 = s.get F.GDI_RETRYSTAT_COUNT 0) ∧
      (∀ x, s.pump.endAt = some x → x.1 = s.ct → x.2 < 16 → s.puState ≠ pumpOff →
        u.get F.GDI_RETRYSTAT_COUNT 0 = x.2 ∧ u.get F.GDI_RETRYSTAT_LATCHED 0 = 0) ∧
      (s.puState ≠ pumpOff → s.puState ≠ pumpLatched ∨ ended → u.puState = pumpOff ∧ u.get F.GDI_RETRYSTAT_WAITING 0 = 0 ∧
        u.budget.queue = (s.budget.queue.filter fun r => !r.pump) ∧
        (pumpBusyState s.puState = true → s.pump.holdsUnits = true → u.pump.unitBack = true)) ∧
      (s.puState = pumpOff ∨ (s.puState = pumpLatched ∧ ¬ ended) → u.puState = s.puState ∧ u.budget = s.budget ∧ u.pump = s.pump))) ∧
  (∀ s : State, s.Quiet →
    (s.puState ≠ pumpDiag → ∀ low high, exec (.pumpDiagStepEnd low high) s = .next s) ∧
    (∀ low high : BitVec 3, s.puState = pumpDiag → 1 ≤ s.pump.step → s.pump.step ≤ 5 →
      let k := s.pump.step
      let pass := if k = 1 then low = 7 else if k = 2 then high = 7 else low.getLsbD (k - 3) = true
      let marks := if pass then s.get F.GDI_PUDIAG_MARKS else setBit (s.get F.GDI_PUDIAG_MARKS) (5 - k) true
      ∃ u : State, exec (.pumpDiagStepEnd low high) s = .next u.settle ∧ s.SameStore u ∧
        (pass → u.get F.GDI_PUDIAG_PASS = setBit (s.get F.GDI_PUDIAG_PASS) (k - 1) true) ∧
        (k = 1 → ¬ pass → u.get F.GDI_PUDIAG_SUP = 7 - low.toNat ∧ s.PumpFaulted u 1) ∧
        (k = 2 → ¬ pass → u.get F.GDI_PUDIAG_GND = 7 - high.toNat ∧ s.PumpFaulted u 2) ∧
        (k ≤ 2 → pass → u.puState = pumpDiag ∧ u.pump.step = k + 1) ∧
        (3 ≤ k → u.get F.GDI_PUDIAG_MARKS = marks) ∧ (k = 3 ∨ k = 4 → u.puState = pumpDiag ∧ u.pump.step = k + 1) ∧
        (k = 5 → marks = 0 → u.puState = pumpBoot ∧ u.evt.raised = []) ∧ (k = 5 → marks ≠ 0 → s.PumpFaulted u 3 (openPhase marks))) ∧
    (s.puState ≠ pumpBoot → exec .pumpTbootExpiry s = .next s) ∧
    (s.puState = pumpBoot → ∃ u : State, exec .pumpTbootExpiry s = .next u.settle ∧
      u.puState = pumpStarting ∧ u.evt.raised = [] ∧ u.budget = s.budget ∧ u.pump.bootLow = false) ∧
    (s.puState ≠ pumpStarting ∨ s.get F.GDI_PUSTAT_SPEED < s.get F.GDI_PUSTART_SPDOK → exec .pumpStartholdReached s = .next s) ∧
    (s.puState = pumpStarting → s.get F.GDI_PUSTART_SPDOK ≤ s.get F.GDI_PUSTAT_SPEED →
      ∃ t : State, exec .pumpStartholdReached s = .next t ∧ t.puState = pumpRunning ∧ t.budget = s.budget ∧
        t.pump = { s.pump with unitBack := s.pump.unitBack || s.pump.holdsUnits } ∧
        (∀ a, a ≠ R.GDI_PUSTAT.base → t.rd a = s.rd a)) ∧
    (s.puState ≠ pumpStarting → exec .pumpStarttoExpiry s = .next s) ∧
    (s.puState = pumpStarting → ∃ u : State, exec .pumpStarttoExpiry s = .next u.settle ∧ s.PumpFaulted u 0xA))

/-- Hall edges, the current limit, the PWM wrap, the supply and the brake act on the pump, and each of their faults turns the
high sides off. Rests on: 11_gate_drive_protection.md R284, 11_gate_drive_protection.md R285, 11_gate_drive_protection.md R286,
11_gate_drive_protection.md R287, 11_gate_drive_protection.md R290, 11_gate_drive_protection.md R291,
11_gate_drive_protection.md R292, 11_gate_drive_protection.md R293. -/
def Obligations.ARunningPumpIsWatched : Prop :=
  ∀ s : State, s.Quiet →
    let on := s.puState = pumpStarting ∨ s.puState = pumpRunning
    (∀ code : BitVec 3, code ≠ 0 → code ≠ 7 →
      let k := hallSector code.toNat
      let d := if s.pump.hallKnown then (k + 6 - s.pump.sector) % 6 else 0
      let turn : Prop := 6 ≤ (s.pump.rev + (if d ≤ 3 then (d : Int) else d - 6)).natAbs
      let before := if turn then 0 else s.get F.GDI_PUSTAT_HALLERR
      let skip := d = 2 ∨ d = 3 ∨ d = 4
      ∃ u : State, exec (.hallChange code false) s = .next u.settle ∧ u.get F.GDI_PUSTAT_HALL = code.toNat ∧ u.pump.sector = k ∧
        u.pump.hallKnown = true ∧ u.pump.edgeAt = some s.ct ∧ u.get F.GDI_PUSTAT_HALLERR = (if skip then min (before + 1) 15 else before) ∧
        (∀ e, s.pump.edgeAt = some e → e < s.ct → u.get F.GDI_PUSTAT_SPEED =
          min 0xFFFF (6000000000 / ((s.get F.GDI_PUCFG_PPM1 + 1) * (s.ct - e)))) ∧
        (skip → 7 ≤ before → on → s.PumpFaulted u 6) ∧
        (¬ (skip ∧ 7 ≤ before ∧ on) → u.puState = s.puState ∧ u.evt.raised = [])) ∧
    (∀ code : BitVec 3, code = 0 ∨ code = 7 → exec (.hallChange code false) s =
      .next { s.put F.GDI_PUSTAT_HALL code.toNat with pump := { s.pump with bootLow := false } } ∧
      (s.pumpHigh = true → ∃ u : State, exec (.hallChange code true) s = .next u.settle ∧ s.PumpFaulted u 4)) ∧
    (let bad := (s.get F.GDI_PUSTAT_HALL = 0 ∨ s.get F.GDI_PUSTAT_HALL = 7) ∧ on
     (¬ bad → exec .hallInvalidTimeout s = .next s) ∧
     (bad → ∃ u : State, exec .hallInvalidTimeout s = .next u.settle ∧ s.PumpFaulted u 6)) ∧
    (on → s.pump.cut = false → exec .pumpOvercurrent s = .next { s with pump := { s.pump with cut := true, cutAt := s.ct } }) ∧
    (¬ on ∨ s.pump.cut = true → exec .pumpOvercurrent s = .next s) ∧
    (let n := if s.pump.cut then s.pump.limited + 1 else 0
     let fails := s.pumpCounter = 0 ∧ s.pump.cut = true ∧ s.get F.GDI_PUOC_OCN ≤ n
     (s.pumpCounter ≠ 0 → exec .pumpPwmWrap s = .next s) ∧
     (s.pumpCounter = 0 → ¬ fails → s.pump.bootLow = false → exec .pumpPwmWrap s =
       .next { s with pump := { s.pump with duty := s.pump.dutyNext, cut := false, limited := n, wrapAt := s.ct } }) ∧
     (fails → ∃ u : State, exec .pumpPwmWrap s = .next u.settle ∧ u.pump.duty = s.pump.dutyNext ∧
       u.pump.cut = false ∧ u.pump.limited = 0 ∧ s.PumpFaulted u 5)) ∧
    (let stalls := on ∧ 2 ^ 30 / 10 < s.pump.duty
     ∃ u : State, exec .pumpStallTimeout s = .next u.settle ∧ u.get F.GDI_PUSTAT_SPEED = 0 ∧ u.pump.edgeAt = s.pump.edgeAt ∧
       (stalls → s.PumpFaulted u 7) ∧ (¬ stalls → u.puState = s.puState ∧ u.evt.raised = [])) ∧
    (s.get F.SEC_STATE_HSTATE ≠ 2 → ∀ x : PumpSense, exec (.pumpVmMeasure x) s = .next (s.put F.GDI_PUVM_VM x.vm.toNat)) ∧
    (s.get F.SEC_STATE_HSTATE = 2 → ∀ x : PumpSense, x.bootLow = true → s.pumpHigh = true → s.pump.ovBrake = false →
      x.vm.toNat ≤ s.get F.GDI_PUVLIM0_OVLIM → ∃ u : State, exec (.pumpVmMeasure x) s = .next u.settle ∧
        u.get F.GDI_PUVM_VM = x.vm.toNat ∧ s.PumpFaulted u 4) ∧
    (s.get F.SEC_STATE_HSTATE = 2 → ∀ x : PumpSense, x.bootLow = false ∨ s.pumpHigh = false →
      let vm := x.vm
      let lowers := vm.toNat ≤ s.get F.GDI_PUVLIM1_BRKOFF
      let raises := ¬ lowers ∧ s.get F.GDI_PUVLIM1_BRKON ≤ vm.toNat ∧ s.pump.brkOff = false
      let ov := s.get F.GDI_PUVLIM0_OVLIM < vm.toNat ∧ s.pump.ovBrake = false ∧
        (s.pump.overV = false ∨ (s.puState ≠ pumpOff ∧ s.puState ≠ pumpWait ∧ s.puState ≠ pumpLatched))
      let uv := vm.toNat < s.get F.GDI_PUVLIM0_UVLIM ∧ on
      ∃ u : State, exec (.pumpVmMeasure x) s = .next u.settle ∧ u.get F.GDI_PUVM_VM = vm.toNat ∧ s.SameStore u ∧
        u.flag F.GDI_PUSTAT_BRK = (if lowers then false else if raises then true else s.flag F.GDI_PUSTAT_BRK) ∧
        (raises → s.flag F.GDI_PUSTAT_BRK = false → (Ev.PU_BRAKE, 0, 0) ∈ u.evt.raised) ∧
        u.pump.overV = decide (s.get F.GDI_PUVLIM0_OVLIM < vm.toNat) ∧
        (ov → s.PumpFree → u.get F.GDI_PUSTAT_LASTFAULT = 8 ∧ (Ev.PU_FAULT, 0, 8) ∈ u.evt.raised ∧
          u.get F.GDI_RETRYSTAT_COUNT 0 = min (s.get F.GDI_RETRYSTAT_COUNT 0 + 1) 15 ∧ u.puState = pumpWait ∧
          u.get F.GDI_RETRYSTAT_WAITING 0 = 0 ∧ u.pump.ovBrake = true ∧ u.pumpGates = (0, 7) ∧
          (pumpBusyState s.puState = true → u.pump.unitBack = true) ∧ u.budget.queue = s.budget.queue.filter fun r => !r.pump) ∧
        (s.pump.ovBrake = true → lowers → ¬ s.get F.GDI_PUVLIM0_OVLIM < vm.toNat → s.puState = pumpWait →
          s.get F.GDI_RETRYSTAT_WAITING 0 = 0 → u.pump.ovBrake = false ∧ u.pumpGates = (0, 0) ∧
          (s.get F.GDI_RETRYSTAT_COUNT 0 < s.get F.GDI_RETRYCFG_TRIES 0 → u.puState = pumpWait ∧ u.get F.GDI_RETRYSTAT_WAITING 0 = 1) ∧
          (s.get F.GDI_RETRYCFG_TRIES 0 ≤ s.get F.GDI_RETRYSTAT_COUNT 0 → u.puState = pumpLatched ∧
            u.get F.GDI_RETRYSTAT_LATCHED 0 = 1 ∧ (Ev.PU_LATCH, 0, BitVec.ofNat 32 s.ctcnt) ∈ u.evt.raised)) ∧
        (s.pump.ovBrake = false → ¬ ov → uv → s.PumpFaulted u 9) ∧
        (s.pump.ovBrake = false → ¬ ov → ¬ uv → u.puState = s.puState ∧ u.budget = s.budget)) ∧
    (s.flag F.GDI_PUSTAT_BRK = false → exec .brkmaxExpiry s = .next s) ∧
    (s.flag F.GDI_PUSTAT_BRK = true → ∃ u : State, exec .brkmaxExpiry s = .next u.settle ∧
      u.get F.GDI_PUSTAT_BRK = 0 ∧ u.pump.brkOff = true ∧ s.PumpFaulted u 0xB)

/-- RETRY_WAIT_EXPIRY starts again or counts a further fault, RETRY_CLEAN_EXPIRY clears the count, and RETRY_CLEAR ends a latch
whose cause has ended. Rests on: 03_register_model.md R67, 10_lv_pwm.md R268, 11_gate_drive_protection.md R278,
11_gate_drive_protection.md R280, 11_gate_drive_protection.md R291, 11_gate_drive_protection.md R292,
11_gate_drive_protection.md R293, 11_gate_drive_protection.md R294. -/
def Obligations.RetriesWaitLatchAndClear : Prop :=
  (∀ s : State, s.Quiet →
    (s.get F.SEC_STATE_HSTATE = 3 → ∀ c : Fin 3, exec (.retryCleanExpiry c) s = .next s ∧ exec (.retryWaitExpiry c) s = .next s) ∧
    (s.get F.SEC_STATE_HSTATE ≠ 3 →
    (∀ c : Fin 3, exec (.retryCleanExpiry c) s = .next (s.put F.GDI_RETRYSTAT_COUNT 0 c) ∧
      (s.flag F.GDI_RETRYSTAT_WAITING c = false → exec (.retryWaitExpiry c) s = .next s)) ∧
    (s.flag F.GDI_RETRYSTAT_WAITING 0 = true →
      let code := s.get F.GDI_PUSTAT_LASTFAULT
      ∃ u : State, exec (.retryWaitExpiry 0) s = .next u.settle ∧
        (s.pumpCauseEnded code = true ∨ (1 ≤ code ∧ code ≤ 3) → u.puState = pumpQueued ∧ u.get F.GDI_RETRYSTAT_WAITING 0 = 0 ∧ u.evt.raised = [] ∧
          u.budget.queue = insertReq ⟨true, 0, s.period⟩ s.budget.queue ∧ u.pump.brkOff = false) ∧
        (s.pumpCauseEnded code = false → code = 0 ∨ 3 < code → s.puState = pumpWait → s.PumpFaulted u code)) ∧
    (∀ c : Fin 2, s.flag F.GDI_RETRYSTAT_WAITING (c.val + 1) = true →
      (s.chopCool c = true → exec (.retryWaitExpiry c.succ) s = .next { s.clearAct Ev.LV_CHOP_E with
        pump := if c = 0 then { s.pump with resume1 := true } else { s.pump with resume2 := true } }) ∧
      (s.chopCool c = false → s.flag F.GDI_RETRYSTAT_LATCHED (c.val + 1) = false → (∀ y ∈ s.gdi.nowClr, y.1 ≠ (3, c.val + 1)) →
        ∃ u : State, exec (.retryWaitExpiry c.succ) s = .next u.settle ∧
        let n := min (s.get F.GDI_RETRYSTAT_COUNT (c.val + 1) + 1) 15
        u.get F.GDI_RETRYSTAT_COUNT (c.val + 1) = n ∧
        (Ev.LV_CHOP_E, BitVec.ofNat 32 c, BitVec.ofNat 32 s.ctcnt) ∈ u.evt.raised ∧
        u.flag F.GDI_RETRYSTAT_LATCHED (c.val + 1) = decide (s.get F.GDI_RETRYCFG_TRIES (c.val + 1) ≤ n) ∧
        (u.chan (16 + c.val)).outH = false ∧ ∀ m, m ≠ 16 + c.val → u.chan m = s.chan m)))) ∧
  (∀ (s : State) (path : Path) (mask : BitVec 3), s.Ready path → s.thawed path = true →
    let latched := fun c => s.flag F.GDI_RETRYSTAT_LATCHED c
    let ended := fun c => (if c = 0 then s.pumpCauseEnded (s.get F.GDI_PUSTAT_LASTFAULT) else s.chopCool (c - 1)) &&
      !s.gdi.nowAct.contains (3, c)
    ∃ t : State, exec (.retryClear path mask) s = .next ((t.refreeze path).noteCode path .ok) ∧ t.pending = s.pending ∧
      (∀ c < 3, t.flag F.GDI_RETRYSTAT_LATCHED c = (latched c && !(mask.getLsbD c && ended c)) ∧
        t.get F.GDI_RETRYSTAT_CLR_REJ c = (if mask.getLsbD c ∧ latched c ∧ ¬ ended c then 1 else s.get F.GDI_RETRYSTAT_CLR_REJ c) ∧
        t.get F.GDI_RETRYSTAT_COUNT c = if mask.getLsbD c ∧ latched c ∧ ended c then 0 else s.get F.GDI_RETRYSTAT_COUNT c) ∧
      t.puState = (if mask.getLsbD 0 ∧ latched 0 ∧ ended 0 then pumpOff else s.puState) ∧
      t.pump.resume1 = (s.pump.resume1 || (mask.getLsbD 1 && latched 1 && ended 1)) ∧
      t.pump.resume2 = (s.pump.resume2 || (mask.getLsbD 2 && latched 2 && ended 2)) ∧
      (∀ n, n ≠ 16 → n ≠ 17 → t.chan n = s.chan n) ∧ ∀ c < 2,
        if mask.getLsbD (c + 1) ∧ latched (c + 1) ∧ ended (c + 1) then (t.chan (16 + c)).restart = true
        else t.chan (16 + c) = s.chan (16 + c))

/-! ### Measurement -/

/-- FAST_SAMPLE keeps the codes of its instant and, at the boundary, gives each channel its result; FAST_RESULT_DEADLINE
invalidates the late ones. Rests on: 02_control_period.md R35, 12_analog_measurement.md R295, 12_analog_measurement.md R296,
12_analog_measurement.md R297, 12_analog_measurement.md R298, 12_analog_measurement.md R299, 12_analog_measurement.md R300,
12_analog_measurement.md R304. -/
def Obligations.FastChannelsConvertAtTheirInstants : Prop :=
  ∀ s : State, s.Quiet →
    (s.periodsRun = false → ∀ j codes ready parity, exec (.fastSample j codes ⟨ready, parity⟩) s = .next s ∧ exec .fastResultDeadline s = .next s) ∧
    (∀ (j : BitVec 9) codes ready, s.ns ≤ j.toNat → exec (.fastSample j codes ⟨ready, 0⟩) s = .next s) ∧
    (s.netStopped = true → ∀ j codes ready parity, exec (.fastSample j codes ⟨ready, parity⟩) s = .next s) ∧
    (∀ j codes ready (parity : BitVec 24), s.periodsRun = true → s.netStopped = false → exec (.fastSample j codes ⟨ready, parity⟩) s =
      exec (.fastSample j codes ⟨ready &&& ~~~ parity, 0⟩)
        (((List.range 24).filter parity.getLsbD).foldl (fun t _ => t.pulse Ev.XING_PAR) s)) ∧
    (∀ (j : BitVec 9) (words : Vector (BitVec 16) 24) (ready : BitVec 24), s.periodsRun = true → s.netStopped = false → j.toNat < s.ns →
      (∀ k < 8, s.rState k = 0) → s.acq.mapOfs = none →
      let codes := words.toList.map (·.toInt)
      ∃ u : State, exec (.fastSample j words ⟨ready, 0⟩) s = .next u.settle ∧ u.adc.codes = codes ∧ s.SameStore u ∧
        (j ≠ 0 → u.adc.acc = s.adc.acc ++ [codes] ∧ u.evt.raised = [] ∧ ∀ a, a ≠ R.ADC_FBUFWP.base → u.rd a = s.rd a) ∧
        (j = 0 → u.adc.acc = [] ∧ u.adc.delivered = ready.toNat ∧ ∀ n < 24,
          let cs := s.adc.acc.map (codeOf · n) ++ [codeOf codes n]
          let clip := if s.flag F.ADC_FCFG_AVG n then cs.any clipped else clipped (codeOf codes n)
          let dac := s.testOn false n || (s.flag F.ADC_FCFG_AVG n && s.adc.dacSeen.testBit n)
          let good := clip = false ∧ pu32of16 (s.getS F.ADC_FLIM_MIN n) ≤ s.fastValue n cs ∧
            s.fastValue n cs ≤ pu32of16 (s.getS F.ADC_FLIM_MAX n)
          (ready.getLsbD n = true → u.get F.ADC_FRES_CODE n = ofSigned 16 (satSigned 16 (codeOf codes n)) ∧
            u.flag F.ADC_FRES_CLIP n = clip ∧ (u.flag F.ADC_FRES_INVALID n = false ↔ good ∧ dac = false) ∧
            (good → dac = false → u.getS F.ADC_FVAL_VALUE n = s.fastValue n cs) ∧
            (¬ good → (Ev.ADC_RANGE, BitVec.ofNat 32 n, BitVec.ofNat 32 (ofSigned 32 (codeOf codes n))) ∈ u.evt.raised)) ∧
          (ready.getLsbD n = false → u.rd (F.ADC_FRES_CODE.addr n) = s.rd (F.ADC_FRES_CODE.addr n) ∧
            u.rd (F.ADC_FVAL_VALUE.addr n) = s.rd (F.ADC_FVAL_VALUE.addr n)))) ∧
    (s.periodsRun = true → ∃ u : State, exec .fastResultDeadline s = .next u.settle ∧ s.SameStore u ∧ ∀ n < 24,
      (s.adc.delivered.testBit n = false → u.flag F.ADC_FRES_INVALID n = true ∧ u.flag F.ADC_FRES_CLIP n = false ∧
        (Ev.ADC_LATE, BitVec.ofNat 32 n, 0) ∈ u.evt.raised) ∧
      (s.adc.delivered.testBit n = true → u.rd (F.ADC_FRES_CODE.addr n) = s.rd (F.ADC_FRES_CODE.addr n) ∧
        u.rd (F.ADC_FVAL_VALUE.addr n) = s.rd (F.ADC_FVAL_VALUE.addr n) ∧ u.get F.ADC_FERR_COUNT n = s.get F.ADC_FERR_COUNT n))

/-- HK_SCAN_START starts a scan at its boundaries, HK_CONVERSION_DONE takes its entries in order, and its last entry or SCANTO
ends it. Rests on: 02_control_period.md R35, 12_analog_measurement.md R301, 12_analog_measurement.md R302,
12_analog_measurement.md R303, 12_analog_measurement.md R304. -/
def Obligations.AHousekeepingScanRunsThroughItsList : Prop :=
  ∀ s : State, s.Quiet →
    (let d := s.get F.ADC_HKCFG_SCANDIV
     let due := s.periodsRun = true ∧ d ≠ 0 ∧ s.period % d = 0
     (¬ due → exec .hkScanStart s = .next s) ∧
     (due → s.flag F.ADC_STAT_HKBUSY = true → exec .hkScanStart s = .next (s.pulse Ev.HK_TO).settle) ∧
     (due → s.flag F.ADC_STAT_HKBUSY = false → ∃ t : State, exec .hkScanStart s = .next t ∧ t.get F.ADC_STAT_HKBUSY = 1 ∧
       t.get F.ADC_STAT_HKPWR = 1 ∧ t.adc = { s.adc with
         hkStart := s.period, hkScan := s.adc.hkScan + 1, hkNext := 0, hkBad := false, hkLost := false, hkGot := [] } ∧
       ∀ a, a ≠ R.ADC_STAT.base → t.rd a = s.rd a)) ∧
    (∀ (e : Nat) (chan : BitVec 5) (code : BitVec 12),
      let last := s.get F.ADC_HKCFG_NENT
      let h := s.get F.ADC_HKENT_CHAN e
      let ok := s.inPu16 F.ADC_HLIM_MIN F.ADC_HLIM_MAX h (s.hkValue h code.toNat)
      let got := s.adc.hkGot ++ [(h, code.toNat, ok && !s.testOn true h)]
      let bad := s.adc.hkBad || chan.toNat != h
      (s.flag F.ADC_STAT_HKBUSY = false ∨ e ≠ s.adc.hkNext ∨ last ≤ e ∨ s.netStopped = true → ∀ parity,
        exec (.hkConversionDone e chan ⟨code, parity⟩) s = .next s) ∧
      (s.flag F.ADC_STAT_HKBUSY = true → e = s.adc.hkNext → e + 1 < last → s.netStopped = false →
        exec (.hkConversionDone e chan ⟨code, true⟩) s =
          .next (({ s with adc := { s.adc with hkNext := e + 1 } } : State).pulse Ev.XING_PAR).settle) ∧
      (s.flag F.ADC_STAT_HKBUSY = true → e = s.adc.hkNext → e + 1 = last → s.netStopped = false →
        ∃ u : State, exec (.hkConversionDone e chan ⟨code, true⟩) s = .next u.settle ∧ u.evt.raised = [(Ev.XING_PAR, 0, 0)] ∧
          u.get F.ADC_STAT_HKBUSY = 0 ∧ u.get F.ADC_STAT_HKPWR = 0 ∧ u.adc = { s.adc with hkNext := e + 1, hkWait := true } ∧
          ∀ a, a ≠ R.ADC_STAT.base → u.rd a = s.rd a) ∧
      (s.flag F.ADC_STAT_HKBUSY = true → e = s.adc.hkNext → e < last → s.netStopped = false →
        ∃ u : State, exec (.hkConversionDone e chan ⟨code, false⟩) s = .next u.settle ∧ s.SameStore u ∧
          u.evt.raised = (if chan.toNat = h then [] else [(Ev.HK_SEQ, BitVec.ofNat 32 e, 0)]) ++
            (if ok then [] else [(Ev.HK_RANGE, BitVec.ofNat 32 h, BitVec.ofNat 32 code.toNat)]) ∧
          u.adc.hkNext = e + 1 ∧ u.adc.hkGot = got ∧ u.adc.hkBad = bad ∧
          (e + 1 < last → ∀ a, a ≠ R.ADC_HKBUFWP.base → u.rd a = s.rd a) ∧
          (e + 1 = last → u.get F.ADC_STAT_HKBUSY = 0 ∧ u.get F.ADC_STAT_HKPWR = 0 ∧
            (s.adc.hkLost = true → ∀ c < 32, u.rd (F.ADC_HRES_CODE.addr c) = s.rd (F.ADC_HRES_CODE.addr c)) ∧
            (s.adc.hkLost = false → bad = true → ∀ c ∈ s.hkChans, u.flag F.ADC_HRES_INVALID c = true) ∧
            (s.adc.hkLost = false → bad = false → ∀ c x good, c ∈ s.hkChans → x < 4096 →
              got.reverse.find? (fun y => y.1 == c) = some (c, x, good) →
              u.get F.ADC_HRES_CODE c = x ∧ u.flag F.ADC_HRES_INVALID c = !(good && !s.testOn true c))))) ∧
    (s.adc.hkWait = false → s.flag F.ADC_STAT_HKBUSY = false ∨ s.adc.hkLost = true → exec .hkScanTimeout s = .next s) ∧
    (s.adc.hkWait = true ∨ (s.flag F.ADC_STAT_HKBUSY = true ∧ s.adc.hkLost = false) → ∃ u : State, exec .hkScanTimeout s = .next u.settle ∧
      u.evt.raised = [(Ev.HK_TO, 0, 0)] ∧ u.adc.hkWait = false ∧ u.adc.hkLost = (s.adc.hkLost || !s.adc.hkWait) ∧ (∀ c ∈ s.hkChans, u.flag F.ADC_HRES_INVALID c = true) ∧
      (∀ c < 32, c ∉ s.hkChans → u.rd (F.ADC_HRES_CODE.addr c) = s.rd (F.ADC_HRES_CODE.addr c)) ∧ s.SameStore u)

/-- TEST_DAC_GO connects the DAC and starts a check unless the channel may not be disturbed, TEST_DAC_STOP releases it,
TEST_DAC_CHECK_DONE judges it. Rests on: 02_control_period.md R35, 03_register_model.md R67, 12_analog_measurement.md R304,
12_analog_measurement.md R305, 12_analog_measurement.md R307, 12_analog_measurement.md R317. -/
def Obligations.TheTestDacIsConnectedCheckedAndReleased : Prop :=
  (∀ (s : State) (path : Path), s.Ready path → s.thawed path = true →
    let follow := fun t : State =>
      (∀ a, a ≠ R.ADC_TESTSTAT.base → (∀ w < 16, a ≠ F.CMP_STAT_RAWU.addr w) → t.rd a = s.rd a) ∧
      ∀ w < 16, t.flag F.CMP_STAT_OUTU w = s.flag F.CMP_STAT_OUTU w ∧ t.flag F.CMP_STAT_OUTL w = s.flag F.CMP_STAT_OUTL w ∧
        (s.flag F.CMP_CFG_EN w = false → t.rd (F.CMP_STAT_RAWU.addr w) = s.rd (F.CMP_STAT_RAWU.addr w)) ∧
        (s.flag F.CMP_CFG_EN w = true → ∀ b, (t.compares w true = some b → t.flag F.CMP_STAT_RAWU w = b) ∧
          (t.compares w false = some b → t.flag F.CMP_STAT_RAWU w = false → t.flag F.CMP_STAT_RAWL w = b))
    (∀ (hk : Bool) (chan : BitVec 5) (code : BitVec 10),
      let done := fun t : State => (t.refreeze path).noteCode path .ok
      (hk = false → 24 ≤ chan.toNat → exec (.testDacGo path hk chan code) s =
        .next ((s.pulse Ev.REG_RANGE R.ADC_TESTCTL.base path).noteCode path .range).settle) ∧
      (hk = true ∨ chan.toNat < 24 →
        (s.testRefused hk chan.toNat = true → exec (.testDacGo path hk chan code) s = .next (s.noteCode path .state)) ∧
        (s.testRefused hk chan.toNat = false → s.adc.testRun = true → exec (.testDacGo path hk chan code) s = .next (done s)) ∧
        (s.testRefused hk chan.toNat = false → s.adc.testRun = false →
          ∃ t : State, exec (.testDacGo path hk chan code) s = .next (done t) ∧ t.get F.ADC_TESTSTAT_CONN = 1 ∧
            t.get F.ADC_TESTSTAT_DONE = 0 ∧ t.get F.ADC_TESTSTAT_PASS = 0 ∧ t.get F.ADC_TESTSTAT_MEAN = 0 ∧
            t.adc = { s.adc with
              testRun := true, testHk := hk, testChan := chan.toNat, testCode := code.toNat, testAt := s.ct, testGot := [],
              rawHist := t.adc.rawHist } ∧ follow t))) ∧
    (∃ t : State, exec (.testDacStop path) s = .next ((t.refreeze path).noteCode path .ok) ∧ t.get F.ADC_TESTSTAT_CONN = 0 ∧
      t.get F.ADC_TESTSTAT_DONE = (if s.adc.testRun then 0 else s.get F.ADC_TESTSTAT_DONE) ∧
      t.adc = { s.adc with testRun := false, rawHist := t.adc.rawHist } ∧ follow t)) ∧
  (∀ s : State, s.Quiet →
    let mean := s.testMean
    let pass := (mean - s.testExpect).natAbs ≤ s.get F.ADC_TESTTOL_TOL
    (s.netStopped = true → ∀ parity, exec (.testDacCheckDone parity) s = .next s) ∧
    (s.netStopped = false → exec (.testDacCheckDone true) s = .next (s.pulse Ev.XING_PAR).settle) ∧
    (s.adc.testRun = false ∨ s.adc.testGot.length ≠ 16 → exec (.testDacCheckDone false) s = .next s) ∧
    (s.netStopped = false → s.adc.testRun = true → s.adc.testGot.length = 16 → ∃ u : State, exec (.testDacCheckDone false) s = .next u.settle ∧ u.get F.ADC_TESTSTAT_DONE = 1 ∧
      (u.flag F.ADC_TESTSTAT_PASS = true ↔ pass) ∧ u.get F.ADC_TESTSTAT_MEAN = ofSigned 16 mean ∧
      u.get F.ADC_TESTSTAT_CONN = s.get F.ADC_TESTSTAT_CONN ∧ u.adc = { s.adc with testRun := false } ∧
      (pass → u.evt.raised = []) ∧
      (¬ pass → u.evt.raised = [(Ev.ADC_TEST, BitVec.ofNat 32 s.adc.testChan, BitVec.ofNat 32 (ofSigned 32 mean))]) ∧
      (∀ a, a ≠ R.ADC_TESTSTAT.base → u.rd a = s.rd a)))

/-- A window's outputs follow its comparators, latch, capture the time and raise their events; the first always-on comparator to
assert is the cause. Rests on: 02_control_period.md R35, 12_analog_measurement.md R304, 12_analog_measurement.md R306,
12_analog_measurement.md R307, 12_analog_measurement.md R308, 12_analog_measurement.md R309, 12_analog_measurement.md R310,
12_analog_measurement.md R311, 12_analog_measurement.md R313. -/
def Obligations.WindowsLatchCaptureAndWake : Prop :=
  (∀ (s : State) (w : WinId), s.Quiet →
    let en := s.flag F.CMP_CFG_EN w
    let settled := s.adc.winReady.testBit w
    (∀ (up : Bool) (v : Int),
      let shown : State := { s with pins := { s.pins with vin := Sparse.set (fun _ => 0) s.pins.vin (s.get F.CMP_CFG_CHAN w) v } }
      let raw := fun up : Bool => if up then F.CMP_STAT_RAWU else F.CMP_STAT_RAWL
      (en = false ∨ shown.compares w up = none → exec (.comparatorRawChange w up v) s = .next shown) ∧
      (∀ b, en = true → shown.compares w up = some b → ∃ t : State, exec (.comparatorRawChange w up v) s = .next t ∧
        t.flag (raw up) w = b ∧ t.flag (raw !up) w = (s.flag (raw !up) w && !b) ∧
        t.flag F.CMP_STAT_OUTU w = s.flag F.CMP_STAT_OUTU w ∧ t.flag F.CMP_STAT_OUTL w = s.flag F.CMP_STAT_OUTL w ∧
        (∀ a, a ≠ F.CMP_STAT_RAWU.addr w → t.rd a = s.rd a) ∧
        t = { shown with regs := t.regs, adc := { s.adc with rawHist := t.adc.rawHist } })) ∧
    (en = false ∨ settled = true → exec (.windowEnable w) s = .next s) ∧
    (en = true → settled = false → ∃ u : State, exec (.windowEnable w) s = .next u.settle ∧ u.adc.winReady.testBit w = true ∧
      u.flag F.CMP_STAT_OUTU w = u.flag F.CMP_STAT_RAWU w ∧ u.flag F.CMP_STAT_OUTL w = u.flag F.CMP_STAT_RAWL w ∧
      (∀ b, s.compares w true = some b → u.flag F.CMP_STAT_RAWU w = b) ∧
      (∀ b, s.compares w false = some b → u.flag F.CMP_STAT_RAWU w = false → u.flag F.CMP_STAT_RAWL w = b) ∧
      ¬ (u.flag F.CMP_STAT_OUTU w = true ∧ u.flag F.CMP_STAT_OUTL w = true) ∧
      (∀ v : WinId, v ≠ w → u.rd (F.CMP_STAT_OUTU.addr v) = s.rd (F.CMP_STAT_OUTU.addr v)) ∧ s.SameStore u) ∧
    (∀ (up level : Bool),
      let out := if up then F.CMP_STAT_OUTU else F.CMP_STAT_OUTL
      let lat := if up then F.CMP_STAT_LATU else F.CMP_STAT_LATL
      let ev := (if up then Ev.CMP_U0 else Ev.CMP_L0) + w.val
      (en = false ∨ settled = false ∨ s.filterShows w up level = false ∨ s.flag out w = level ∨ s.netStopped = true →
        exec (.windowOutputChange w up ⟨level, false⟩) s = .next s) ∧
      (s.netStopped = false → exec (.windowOutputChange w up ⟨level, true⟩) s = .next (s.pulse Ev.XING_PAR).settle) ∧
      (s.netStopped = false → en = true → settled = true → s.filterShows w up level = true → s.flag out w ≠ level →
        ∃ u : State, exec (.windowOutputChange w up ⟨level, false⟩) s = .next u.settle ∧ u.flag out w = level ∧ s.SameStore u ∧
          (∀ v : WinId, v ≠ w → u.rd (F.CMP_STAT_OUTU.addr v) = s.rd (F.CMP_STAT_OUTU.addr v)) ∧
          (level = true → u.flag lat w = true ∧ u.get (if up then F.CMP_CAPU_CT else F.CMP_CAPL_CT) w = s.ctcnt ∧
            (ev, 0, BitVec.ofNat 32 (ofSigned 32 (codeOf s.adc.codes (s.get F.CMP_CFG_CHAN w)))) ∈ u.evt.raised ∧
            u.evActive ev = true) ∧
          (level = false → u.flag lat w = (s.flag lat w && s.get F.CMP_CFG_LATCH w != 0) ∧ u.evt.raised = [] ∧
            u.evActive ev = false)))) ∧
  (∀ (s : State) (path : Path) (w : WinId) (up low : Bool), s.Ready path →
    ∃ t : State, exec (.windowLatchClear path w up low) s = .next (t.noteCode path .ok) ∧
      let clears := s.get F.CMP_CFG_LATCH w ≠ 0
      t.get F.CMP_STAT_LATU w = (if clears ∧ up ∧ s.flag F.CMP_STAT_OUTU w = false then 0 else s.get F.CMP_STAT_LATU w) ∧
      t.get F.CMP_STAT_LATL w = (if clears ∧ low ∧ s.flag F.CMP_STAT_OUTL w = false then 0 else s.get F.CMP_STAT_LATL w) ∧
      t.get F.CMP_STAT_OUTU w = s.get F.CMP_STAT_OUTU w ∧ t.get F.CMP_STAT_OUTL w = s.get F.CMP_STAT_OUTL w ∧
      t = { s with regs := t.regs } ∧ ∀ a, a ≠ F.CMP_STAT_LATU.addr w → t.rd a = s.rd a) ∧
  (∀ (s : State) (a : Fin 4) (strobes : Vector Nat 3), s.Quiet →
    let cur := s.aon.out.testBit a
    let moves := ∀ v ∈ strobes.toList, aonStrobe (s.aonCfg a) cur v ≠ cur
    let shown : State := { s with aon := { s.aon with out := setBit s.aon.out a !cur } }
    let first := cur = false ∧ s.aon.cause = 0
    (s.aonEn a = false ∨ ¬ moves → exec (.aonComparatorChange a strobes) s = .next s) ∧
    (s.aonEn a = true → moves → ¬ first → exec (.aonComparatorChange a strobes) s = .next shown) ∧
    (s.aonEn a = true → moves → first → ∃ u : State, exec (.aonComparatorChange a strobes) s = .next u.settle ∧
      u.aon.out = setBit s.aon.out a true ∧ u.aon.cause = 2 ^ a.val ∧ u.regs = s.regs ∧
      (s.get F.SEC_STATE_HSTATE ≠ 2 → u.aon.wake = true) ∧
      u.evt.raised = if s.get F.SEC_STATE_HSTATE = 2 then [(Ev.AON_WAKE, BitVec.ofNat 32 a, 0)] else []))

/-! ### Redundancy and safety -/

/-- RESIGN_I moves election and takeover, a resign condition turns every output off, and the redundancy timers act only in their
own states. Rests on: 03_register_model.md R82, 04_image_and_lifecycle.md R124, 13_redundancy.md R321, 13_redundancy.md R323,
13_redundancy.md R332, 13_redundancy.md R333, 13_redundancy.md R334, 13_redundancy.md R337, 13_redundancy.md R340,
14_safety_functions.md R347. -/
def Obligations.HeadsElectResignAndReintegrate : Prop :=
  ∀ s : State, s.Quiet →
    (∀ level : Bool,
      let was := s.flag F.RED_STAT_RESIGNI
      let t := s.putB F.RED_STAT_RESIGNI level
      let dropped : State := { t with red := { s.red with swapAt := none } }
      (s.duplex = false ∨ (level = true ∧ was = true) ∨ (level = false ∧ s.role ≠ roleElect) →
        exec (.resignIChange level) s = .next t) ∧
      (s.duplex = true → level = false → s.role = roleElect → ∃ u : State, exec (.resignIChange level) s = .next u ∧
        u.role = roleAlign ∧ u.flag F.RED_STAT_RESIGNI = false ∧ u.red.pad = s.red.pad ∧ u.red.alignOk = 0) ∧
      (s.duplex = true → level = true → was = false →
        (s.role = roleReady → s.red.takeDue = false → exec (.resignIChange level) s =
          .next { dropped with red := { dropped.red with takeDue := true, bSeen := false, arrival := s.ct } }) ∧
        (s.role = roleAlign ∨ s.role = roleSync → exec (.resignIChange level) s = .next (dropped.pulse Ev.RED_NOTAKE).settle) ∧
        (s.role = roleReady → s.red.takeDue = true → exec (.resignIChange level) s = .next dropped) ∧
        (s.role = roleActive → exec (.resignIChange level) s = .next (dropped.pulse Ev.RED_PEER).settle) ∧
        (s.role ≠ roleActive → s.isStandby = false → exec (.resignIChange level) s = .next t))) ∧
    (s.role = roleElect → s.flag F.RED_STAT_RESIGNI = true → ∃ u : State, exec .electTimeout s = .next u ∧ u.role = roleActive ∧
      u.red = { s.red with pad := true, takeDue := false, bSeen := false, drivenAt := s.ct } ∧
      (∀ a, a ≠ R.RED_STAT.base → a ≠ R.NET_PLSTAT.base → u.rd a = s.rd a) ∧
      (s.servoLocked = false → u.rd R.NET_PLSTAT.base = s.rd R.NET_PLSTAT.base) ∧
      (s.servoLocked = true → s.flag F.NET_PLCFG_LOCKEN = true → s.get F.SEC_STATE_HSTATE ≠ 3 →
        s.get F.NET_PLSTAT_STATE = plFree ∨ s.get F.NET_PLSTAT_STATE = plHold → u.get F.NET_PLSTAT_STATE = plPull)) ∧
    (s.role ≠ roleElect ∨ s.flag F.RED_STAT_RESIGNI = false → exec .electTimeout s = .next s) ∧
    exec .padStrobeTimeout s = .next { s with red := { s.red with pad := false } } ∧
    (let able := s.get F.SEC_STATE_HSTATE = 2 ∧ s.sec.holdFrames = none
     (∀ cond : ResignCond,
       let may := able ∧ (cond = .conflict → s.conflictMet = true)
       (¬ may → exec (.resign cond) s = .next s) ∧
       (may → ∃ u : State, exec (.resign cond) s = .next u.settle ∧ s.Resigns u (resignCode cond).1 (resignCode cond).2)) ∧
     (¬ (able ∧ s.conflictMet = true) → exec .conflictTimeout s = .next s) ∧
     (able → s.conflictMet = true → ∃ u : State, exec .conflictTimeout s = .next u.settle ∧ s.Resigns u 0x88 0)) ∧
    exec .swapageDue s = .next (if s.isStandby = true ∧ s.get F.RED_CFG_SWAPDUE ≠ 0 then (s.pulse Ev.RED_SWAPDUE).settle else s) ∧
    (∀ n : Fin 3, exec (.sliceReintegrated n) s = .next (if s.slState n = slReint ∧ (s.slice n).since + 4 ≤ s.period
      then ((s.put F.RED_SLSTAT_STATE slVoted n).pulse Ev.RED_REINT n).settle else s))

/-- TAKEOVER makes a due standby drive, RED_RESYNC and RED_SWAP are taken where the roles allow them, and RED_MODE changes only
in a transaction while stopped. Rests on: 03_register_model.md R67, 03_register_model.md R69, 03_register_model.md R73,
03_register_model.md R75, 10_lv_pwm.md R255, 13_redundancy.md R319, 13_redundancy.md R328, 13_redundancy.md R334,
13_redundancy.md R335, 13_redundancy.md R338, 13_redundancy.md R343, 13_redundancy.md R344. -/
def Obligations.TakeoversSwapsAndModeChangesAreOrdered : Prop :=
  (∀ s : State, s.Quiet →
    let due := s.isStandby = true ∧ s.red.takeDue = true ∧ s.red.bSeen = true
    (¬ due → exec .takeover s = .next s) ∧
    (due → ∃ u : State, exec .takeover s = .next u.settle ∧ u.role = roleActive ∧ u.red.pad = true ∧ u.red.takeDue = false ∧
      u.red.drivenAt = s.ct ∧ u.get F.RED_TOVER_PERIOD = s.period % 2 ^ 32 ∧
      u.get F.RED_GAP_GAP = min (s.bnd + s.img.per.p - s.red.arrival) 0x1FFFF ∧
      u.get F.RED_GAP_HOLDS = min 2 (s.period - s.red.lastCmd - 1) ∧
      u.get F.RED_CNT_TAKEOVERS = min (s.get F.RED_CNT_TAKEOVERS + 1) 0xFFFF ∧ (Ev.RED_TAKEOVER, 0, 0) ∈ u.evt.raised ∧
      (s.txBusy = true → s.txState ≠ txRef → s.bus.txn.passed = false → u.txState = txAborted ∧ u.get F.SYS_TXNSTAT_CAUSE = 6) ∧
      (s.red.safe0 = true → u.whiteout = true) ∧ (s.red.safe0 = false → u.whiteout = s.whiteout) ∧ s.SameStore u)) ∧
  (∀ (s : State) (path : Path), s.get F.SEC_STATE_HSTATE = 2 → s.otp.lcs ≤ 2 → s.pathOn path = true → s.bus.g2 = none → s.Quiet →
    s.poisoned path = false → s.regFull = false → s.bus.waiting = [] → s.thawed path = true →
    (s.inStep = true → ∃ t : State, exec (.redResync path) s = .next ((t.refreeze path).noteCode path .ok) ∧ t.role = roleSync ∧
      t.get F.RED_STAT_SYNCPCT = 0 ∧ t.get F.RED_ALIGN_EMAX = 0 ∧
      t.red = { s.red with alignBad := 0, agree := 0, copied := false, copyN := 0, copyDue := [] } ∧
      ∀ a, a ≠ R.RED_STAT.base → a ≠ R.RED_ALIGN.base → t.rd a = s.rd a) ∧
    (s.inStep = false → exec (.redResync path) s = .next (s.noteCode path .state)) ∧
    (s.swapAllowed = true → ∃ h, s.period < h ∧ (∀ n < 18, s.chanUsed n = true → h % s.reloadM n = 0) ∧
      exec (.redSwap path) s =
        .next ((({ s with red := { s.red with swapAt := some h } } : State).refreeze path).noteCode path .ok)) ∧
    (s.swapAllowed = false → exec (.redSwap path) s = .next (s.noteCode path .state))) ∧
  (∀ (s : State) (path : Path) (v : Word), s.Ready path →
    let held := s.noteCode path .ok
    (∀ w : Word, w ≠ ~~~ v → exec (.redModeWrite path v w) s =
      .next ((held.pulse Ev.GUARD_REJ (R.RED_MODE.base + 4) path).noteCode path .guard).settle) ∧
    (let m := s.get F.RED_MODE_MODE
     let allowed := (m = 1 ∧ v = 0) ∨ (m = 3 ∧ v = 2)
     (s.ownsOpen path = false → s.txBusy = false → s.stopped = true → allowed → exec (.redModeWrite path v (~~~ v)) s =
       .next ((held.pulse Ev.TXN_REQ R.RED_MODE.base path).noteCode path .txnReq).settle) ∧
     (allowed → s.stopped = false → exec (.redModeWrite path v (~~~ v)) s = .next (held.noteCode path .state)) ∧
     (¬ allowed → exec (.redModeWrite path v (~~~ v)) s =
       .next ((held.pulse Ev.REG_RANGE R.RED_MODE.base path).noteCode path .range).settle) ∧
     (allowed → s.stopped = true → s.ownsOpen path = true → s.get F.SYS_TXNSTAT_POISON = 0 → s.get F.SYS_TXNSTAT_COUNT < 8192 →
       ∃ t : State, exec (.redModeWrite path v (~~~ v)) s = .next t ∧ t.bus.txn.staged = s.bus.txn.staged ++ [(R.RED_MODE.base, v)] ∧
         t.get F.SYS_TXNSTAT_COUNT = s.get F.SYS_TXNSTAT_COUNT + 1 ∧ t.get F.RED_MODE_MODE = m ∧ t.bus.g2 = none)))

/-- Every demand latches whiteout and drives the LV outputs low, and only a reset without a demand ends it, at a boundary. Rests
on: 03_register_model.md R67, 14_safety_functions.md R345, 14_safety_functions.md R346, 14_safety_functions.md R348,
14_safety_functions.md R349, 14_safety_functions.md R350, 14_safety_functions.md R359, 14_safety_functions.md R361. -/
def Obligations.WhiteoutLatchesUntilAnAllowedReset : Prop :=
  (∀ s : State, s.Quiet →
    (∀ cause : WhiteoutCause,
      (cause.cls = 0 ∨ 0xB < cause.cls.toNat → exec (.whiteout cause) s = .next s) ∧
      (cause.cls ≠ 0 → cause.cls.toNat ≤ 0xB → ∃ u : State, exec (.whiteout cause) s = .next u.settle ∧
        s.WhitedOut u cause.cls.toNat cause.index.toNat ∧ s.SameStore u)) ∧
    (∃ u : State, exec .logicCopyDisagree s = .next u.settle ∧ u.get F.SAF_STAT_LOGICOK = 0 ∧ s.WhitedOut u 0xA 0 ∧
      (Ev.SAF_LOGIC, 0, 0) ∈ u.evt.raised ∧ s.SameStore u) ∧
    (∀ t : Fin 4,
      (s.get F.SAF_TGSTAT_STATE t ≠ 2 → exec (.telegramWatchdogExpiry t) s = .next s) ∧
      (s.get F.SAF_TGSTAT_STATE t = 2 → ∃ u : State, exec (.telegramWatchdogExpiry t) s = .next u.settle ∧
        u.get F.SAF_TGSTAT_STATE t = 3 ∧ (Ev.SAF_TG_WDT, BitVec.ofNat 32 t, 0) ∈ u.evt.raised ∧ s.WhitedOut u 7 t ∧ s.SameStore u))) ∧
  (∀ (s : State) (path : Path), s.Ready path → s.thawed path = true →
    (∃ u : State, exec (.safWoreq path) s = .next u.settle ∧ u.thawed path = false ∧ s.WhitedOut u 9 path ∧ s.SameStore u) ∧
    (let sent := fun t : State => ((t.forward ⟨R.SAF_CTRL.base, 1, path, .write⟩).refreeze path).noteCode path .ok
     (s.resetAllowed = true → s.saf.demandAt ≠ some s.ct → exec (.safReset path) s =
       .next (sent ({ s with saf := { s.saf with
         resetAt := true, resetCt := s.ct, resetHold := s.duplex && s.role == roleActive && s.red.regSent } } : State))) ∧
     (s.resetAllowed = false ∨ s.saf.demandAt = some s.ct → exec (.safReset path) s =
       .next (sent ((s.put F.SAF_STAT_RST_REJ 1).pulse Ev.SAF_RST_REJ)).settle)))

/-- Safe inputs demand on their levels, failed test pulses and discrepancies; telegrams are accepted in equal pairs and demand
on a trip or a disagreement. Rests on: 14_safety_functions.md R345, 14_safety_functions.md R350, 14_safety_functions.md R351,
14_safety_functions.md R352, 14_safety_functions.md R353, 14_safety_functions.md R354, 14_safety_functions.md R355,
14_safety_functions.md R357, 14_safety_functions.md R358, 15_time_and_network.md R367. -/
def Obligations.SafeInputsAndTelegramsDemand : Prop :=
  (∀ (s : State) (n : Fin 8), s.Quiet →
    (∀ (k : Fin 4) (low : Bool), exec (.testPulse k low) s = .next (if s.periodsRun = true ∧ s.pins.coreGood = true
      then { s with saf := { s.saf with tp := setBit s.saf.tp k (!low) } } else s)) ∧
    (s.safeMode n ≠ 1 → ∀ b pass, exec (.testPulseCheck n b pass) s = .next s) ∧
    (s.safeMode n = 1 →
      exec (.testPulseCheck n false true) s =
        .next (s.setSafeIn n { s.safeIn n with failA := 0, passA := (s.safeIn n).passA + 1 }) ∧
      exec (.testPulseCheck n true true) s =
        .next (s.setSafeIn n { s.safeIn n with failB := 0, passB := (s.safeIn n).passB + 1 })) ∧
    (∀ (i : Instr) (cls : Nat) (lat : Fld) (ev c1 : Nat),
      let newly := (s.get lat).testBit n = false ∨ i = .discrepancyTimeout n
      ((∃ b : Bool, i = .testPulseCheck n b false ∧ cls = 3 ∧ ev = Ev.SAF_TPFAIL ∧ c1 = b.toNat ∧ s.safeMode n = 1 ∧
          lat = (if b then F.SAF_INSTAT_BFLT else F.SAF_INSTAT_AFLT) ∧
          s.get F.SAF_TPCFG_TPFAILN ≤ (if b then (s.safeIn n).failB else (s.safeIn n).failA)) ∨
        (i = .discrepancyTimeout n ∧ cls = 4 ∧ ev = Ev.SAF_DISC ∧ c1 = 0 ∧ lat = F.SAF_INSTAT_DISC ∧ s.safeMode n ≠ 0 ∧
          s.safeChanDemand n false ≠ s.safeChanDemand n true)) → newly →
      ∃ u : State, exec i s = .next u.settle ∧ (u.get lat).testBit n = true ∧ (u.get F.SAF_INSTAT_DEMAND).testBit n = true ∧
        (ev, BitVec.ofNat 32 n, BitVec.ofNat 32 c1) ∈ u.evt.raised ∧ s.SameStore u ∧
        (i = .discrepancyTimeout n → (u.safeIn n).bothDown = false ∧ (u.safeIn n).discEnded = false) ∧
        (s.flag F.SAF_INCFG_ACT n = true → s.WhitedOut u cls n) ∧
        (s.flag F.SAF_INCFG_ACT n = false → u.whiteout = s.whiteout ∧
          ((s.get F.SAF_INSTAT_DEMAND).testBit n = false → (Ev.SAF_DEMAND, BitVec.ofNat 32 n, 0) ∈ u.evt.raised))) ∧
    (∀ b high : Bool,
      let t := s.putBit (if b then F.SAF_CHAN_B else F.SAF_CHAN_A) n high
      let dem := t.safeMode n != 0 && (t.safeLevel n || t.safeLatched n)
      let was := (s.get F.SAF_INSTAT_DEMAND).testBit n
      let rose := t.safeLevel n && !s.safeLevel n
      ∃ u : State, exec (.safeInputChange n b high) s = .next u.settle ∧ s.SameStore u ∧
        u.rd R.SAF_CHAN.base = t.rd R.SAF_CHAN.base ∧ (u.get F.SAF_INSTAT_DEMAND).testBit n = dem ∧
        (dem = true → was = false ∨ rose = true → s.flag F.SAF_INCFG_ACT n = true → s.WhitedOut u 2 n) ∧
        (dem = true → was = false → s.flag F.SAF_INCFG_ACT n = false → (Ev.SAF_DEMAND, BitVec.ofNat 32 n, 0) ∈ u.evt.raised) ∧
        (dem = false ∨ (was = true ∧ (rose = false ∨ s.flag F.SAF_INCFG_ACT n = false)) → u.whiteout = s.whiteout ∧ u.evt.raised = []))) ∧
  (∀ (s : State) (p : Fin 2) (x : Telegram), s.Quiet → x.seq < 2 ^ 32 →
    let clr := fun t : State => t.setRx p none
    let mine := s.portOn p = true ∧ (s.inFrame p 3 = true ∨ x.fcsOk = false) ∧ s.tgMine p x = true
    (¬ mine → exec (.telegramCopy p x) s = .next (clr s)) ∧
    (mine → x.parity = true → exec (.telegramCopy p x) s = .next (clr (s.pulse Ev.XING_PAR)).settle) ∧
    (mine → x.parity = false → s.tgFind x = none → exec (.telegramCopy p x) s = .next (clr (s.pulse Ev.SAF_TG_BAD 0xFFFFFFFF)).settle) ∧
    (∀ t, mine → x.parity = false → s.tgFind x = some t →
      let good := tgRight x = true ∧ s.flag F.SAF_TGCFG_EN t = true
      let newer := 0 < toSigned 32 ((x.seq + 2 ^ 32 - s.get F.SAF_TGSEQ_LAST t) % 2 ^ 32)
      (¬ good → ∃ u : State, exec (.telegramCopy p x) s = .next u.settle ∧ u.get F.SAF_TGCNT_BAD t = min (s.get F.SAF_TGCNT_BAD t + 1) 0xFFF ∧
        (Ev.SAF_TG_BAD, BitVec.ofNat 32 t, 0) ∈ u.evt.raised ∧ ∀ a, a ≠ F.SAF_TGCNT_BAD.addr t → u.rd a = s.rd a) ∧
      (good → ¬ newer → exec (.telegramCopy p x) s = .next (clr s)) ∧
      (good → newer → x.flags % 2 = 1 → ∃ u : State, exec (.telegramCopy p x) s = .next u.settle ∧
        (Ev.SAF_TG_TRIP, BitVec.ofNat 32 t, 0) ∈ u.evt.raised ∧ u.whiteout = true ∧ (u.get F.SAF_STAT_CAUSES).testBit 4 = true) ∧
      (good → newer → x.flags % 2 = 0 →
        ((s.tgConn t).pend = none → exec (.telegramCopy p x) s = .next (clr (s.tgPend t (some (x, p))))) ∧
        (∀ y q, (s.tgConn t).pend = some (y, q) → y.seq ≠ x.seq → ∃ u : State, exec (.telegramCopy p x) s = .next u.settle ∧
          (Ev.SAF_TG_SINGLE, BitVec.ofNat 32 t, 0) ∈ u.evt.raised ∧ (u.tgConn t).pend = some (x, p.val) ∧
          u.get F.SAF_TGSTAT_PEND t = 1) ∧
        (∀ y q, (s.tgConn t).pend = some (y, q) → y.seq = x.seq →
          (q = p → ∃ u : State, exec (.telegramCopy p x) s = .next u.settle ∧ u.tgConn t = s.tgConn t ∧
            u.get F.SAF_TGCNT_BAD t = min (s.get F.SAF_TGCNT_BAD t + 1) 0xFFF ∧ u.whiteout = s.whiteout) ∧
          (q ≠ p → tgBytes y = tgBytes x → y.scrc = x.scrc → ∃ u : State, exec (.telegramCopy p x) s = .next u ∧ u.tgConn t = ⟨none, some s.ct⟩ ∧
            u.get F.SAF_TGSEQ_LAST t = x.seq ∧ u.get F.SAF_TGSTAT_STATE t = 2 ∧ u.get F.SAF_TGSTAT_TRIP t = 0 ∧
            u.get F.SAF_TGSTAT_PERMIT t = x.flags / 2 % 2 ∧ u.get F.SAF_TGSTAT_PEND t = 0) ∧
          (q ≠ p → tgBytes x ≠ tgBytes y ∨ x.scrc ≠ y.scrc → ∃ u : State, exec (.telegramCopy p x) s = .next u.settle ∧ s.WhitedOut u 6 t ∧
            (Ev.SAF_TG_DISAGREE, BitVec.ofNat 32 t, 0) ∈ u.evt.raised ∧ (u.tgConn t).pend = none ∧
            u.get F.SAF_TGSEQ_LAST t = x.seq)))) ∧
    (∀ t : Fin 4, ((s.tgConn t).pend = none → exec (.telegramWindowExpiry t) s = .next s) ∧
      (∀ y q, (s.tgConn t).pend = some (y, q) → y.seq < 2 ^ 32 → ∃ u : State, exec (.telegramWindowExpiry t) s = .next u.settle ∧
        (Ev.SAF_TG_SINGLE, BitVec.ofNat 32 t, 0) ∈ u.evt.raised ∧ (u.tgConn t).pend = none ∧ u.get F.SAF_TGSEQ_LAST t = y.seq ∧
        u.get F.SAF_TGCNT_SINGLES t = min (s.get F.SAF_TGCNT_SINGLES t + 1) 0xFFF ∧
        (s.flag F.SAF_TGCFG_SINGLE t = true → u.get F.SAF_TGSTAT_STATE t = 2 ∧ u.get F.SAF_TGSTAT_TRIP t = y.flags % 2 ∧
          (u.tgConn t).accAt = some s.ct) ∧
        (s.flag F.SAF_TGCFG_SINGLE t = false → u.get F.SAF_TGSTAT_STATE t = s.get F.SAF_TGSTAT_STATE t ∧
          (u.tgConn t).accAt = (s.tgConn t).accAt))))

/-! ### Network -/

/-- Sync samples filter into their domain and steer within the limits, jumps hold, Announces name the grandmaster, and steering
switches only to a good domain. Rests on: 15_time_and_network.md R367, 15_time_and_network.md R368, 15_time_and_network.md R369,
15_time_and_network.md R371, 15_time_and_network.md R373, 15_time_and_network.md R374, 15_time_and_network.md R375,
15_time_and_network.md R376, 15_time_and_network.md R378, 15_time_and_network.md R390. -/
def Obligations.NetworkTimeFollowsItsDomains : Prop :=
  (∀ (s : State) (d : Fin 2) (m : PtpSample), s.Quiet →
    let r := s.setRx m.port none
    let x0 := s.dom d
    let x1 := { x0 with pd := Sparse.set (fun _ => 0) x0.pd m.port (s.peerDelay m.port m.pdelay) }
    let hears := s.inFrame m.port 0 = true ∧ s.listens d m.port = true
    let elsewhere := x0.announced = true ∧ s.get F.NET_DSTAT_PORT d ≠ m.port.val
    let o := s.syncOffset m
    let x := if x0.restart then { x1 with n := 0, jc := 0, since := 0, back := 0, hist := [], restart := false } else x1
    let far := s.get F.NET_PTPSTAT_STATE ≠ ptpAcquire ∧ 4 ≤ x.n ∧ s.stepLimit < absQ (o - x.ofs)
    let holds := s.steering = d.val ∧ s.get F.NET_PTPSTAT_STATE = ptpHoldover
    (s.inFrame m.port 0 = false → exec (.ptpSyncSample d m) s = .next s) ∧
    (s.inFrame m.port 0 = true → s.listens d m.port = false → exec (.ptpSyncSample d m) s = .next r) ∧
    (hears → s.ptpOk d m.head = false → ∃ u : State, exec (.ptpSyncSample d m) s = .next u.settle ∧ u.net = r.net ∧
      (Ev.PTP_MSG, BitVec.ofNat 32 d, 0) ∈ u.evt.raised ∧ ∀ a, a ≠ F.NET_DERR_COUNT.addr d → u.rd a = s.rd a) ∧
    (hears → s.ptpOk d m.head = true → elsewhere → exec (.ptpSyncSample d m) s = .next (r.setDom d x1)) ∧
    (hears → s.ptpOk d m.head = true → ¬ elsewhere → s.flag F.NET_PTPSTAT_ARMED = false →
      ∃ u : State, exec (.ptpSyncSample d m) s = .next u.settle ∧ s.SameStore u ∧ u.steering = s.steering ∧ (u.dom d).pd = x1.pd ∧
        (s.get F.NET_DSTAT_PORT d = m.port.val →
          u.get F.NET_DPDLY_PDLY d = ofSigned 32 (roundHalfAway (s.peerDelay m.port m.pdelay))) ∧
        (¬ far → s.steering ≠ d.val ∨ s.get F.NET_PTPSTAT_STATE ≠ ptpAcquire →
          (u.dom d).ofs = (if x.n = 0 then o else x.ofs + (o - x.ofs) / 4) ∧ (u.dom d).n = x.n + 1 ∧ (u.dom d).jc = 0 ∧
          (u.dom d).last = o ∧ (u.dom d).hist = ((o, s.ct) :: x.hist).take 8 ∧
          ∀ e : Fin 2, e ≠ d → u.dom e = { s.dom e with back := (u.dom e).back }) ∧
        (¬ far → s.steering = d.val → s.get F.NET_PTPSTAT_STATE = ptpLocking ∨ s.get F.NET_PTPSTAT_STATE = ptpLocked →
          (u.getS F.NET_FREQ_FREQ).natAbs ≤ 500000000) ∧
        (¬ far → holds →
          let k := if absQ (o - x.pre) ≤ s.stepLimit then x.back + 1 else 0
          (s.get F.NET_PTPCFG_JUMPN ≤ k → u.get F.NET_PTPSTAT_STATE = ptpLocking) ∧
          (k < s.get F.NET_PTPCFG_JUMPN → u.get F.NET_PTPSTAT_STATE = ptpHoldover ∧ (u.dom d).back = k)) ∧
        (far → (u.dom d).ofs = x.ofs ∧ (u.dom d).n = x.n ∧ (u.dom d).jc = x.jc + 1 ∧
          (∀ e : Fin 2, e ≠ d → u.dom e = { s.dom e with back := (u.dom e).back }) ∧
          (x.jc + 1 = s.get F.NET_PTPCFG_JUMPN → s.steering = d.val → u.get F.NET_PTPSTAT_STATE = ptpHoldover ∧ (u.dom d).pre = x.ofs) ∧
          (x.jc + 1 ≠ s.get F.NET_PTPCFG_JUMPN → u.evt.raised = [] ∧
            (¬ holds → u.get F.NET_PTPSTAT_STATE = s.get F.NET_PTPSTAT_STATE))))) ∧
  (∀ (s : State) (d : Fin 2), s.Quiet →
    let good := s.otherGood = true ∧ (s.dom (1 - d.val)).timedOut = false
    let lost := fun u : State => (good → u.steering = 1 - d.val ∧ (Ev.PTP_SWITCH, BitVec.ofNat 32 (1 - d.val), 0) ∈ u.evt.raised) ∧
      (¬ good → u.steering = d.val ∧ u.get F.NET_PTPSTAT_STATE = ptpHoldover ∧ (Ev.PTP_HOLD, BitVec.ofNat 32 d, 0) ∈ u.evt.raised)
    (∀ a : PtpAnnounce,
      let r := s.setRx a.port none
      (s.inFrame a.port 0 = false → exec (.ptpAnnounce d a) s = .next s) ∧
      (s.inFrame a.port 0 = true → s.listens d a.port = false → exec (.ptpAnnounce d a) s = .next r) ∧
      (s.inFrame a.port 0 = true → s.listens d a.port = true → s.ptpOk d a.head = false →
        ∃ u : State, exec (.ptpAnnounce d a) s = .next u.settle ∧ u.net = r.net ∧ (Ev.PTP_MSG, BitVec.ofNat 32 d, 0) ∈ u.evt.raised) ∧
      (∀ b, s.inFrame a.port 0 = true → s.listens d a.port = true → s.ptpOk d a.head = true → ((s.dom d).hear a).best = some b →
        let gm := s.get F.NET_DGMLO_ID d + 2 ^ 32 * s.get F.NET_DGMHI_ID d
        let changed := (s.dom d).gmSeen = true ∧ gm ≠ b.gm.toNat
        ∃ u : State, exec (.ptpAnnounce d a) s = .next u.settle ∧ (u.dom d).announced = true ∧ (u.dom d).timedOut = false ∧
          (u.dom d).ann = ((s.dom d).hear a).ann ∧ (u.dom d).altTime = a.altTime.or (s.dom d).altTime ∧
          u.get F.NET_DGMLO_ID d + 2 ^ 32 * u.get F.NET_DGMHI_ID d = b.gm.toNat ∧ u.get F.NET_DSTAT_PORT d = b.port.val ∧
          (∀ o < 2 ^ 16, a.utc = some o → s.steering = d.val → ¬ changed → u.get F.NET_UTCOFS_VALID = 1 ∧ u.get F.NET_UTCOFS_OFS = o) ∧
          (changed → (u.dom d).restart = true) ∧ (¬ changed → (u.dom d).restart = (s.dom d).restart ∧ u.evt.raised = []) ∧
          (changed → s.steering = d.val → lost u))) ∧
    (s.flag F.NET_DCFG_EN d = false → exec (.ptpAnnounceTimeout d) s = .next s) ∧
    (s.flag F.NET_DCFG_EN d = true → ∃ u : State, exec (.ptpAnnounceTimeout d) s = .next u.settle ∧
      (u.dom d).announced = false ∧ (u.dom d).timedOut = true ∧ (u.dom d).ann = [] ∧ (s.steering = d.val → lost u) ∧
      (s.steering ≠ d.val → u.steering = s.steering ∧ u.evt.raised = []))) ∧
  (∀ (s : State) (p : PortId) (q : PdelayReq), s.Quiet →
    let r := s.setRx p none
    let takes := fun d : Nat => s.listens d p = true ∧ s.ptpOk d q.head = true
    (s.inFrame p 0 = false → exec (.ptpPdelayReq p q) s = .next s) ∧
    (s.inFrame p 0 = true → s.listens 0 p = false → s.listens 1 p = false → exec (.ptpPdelayReq p q) s = .next r) ∧
    (∀ d : Fin 2, s.inFrame p 0 = true → takes d → (d = 1 → ¬ takes 0) → exec (.ptpPdelayReq p q) s = .next (r.send (.pdelay p
      ⟨s.get F.NET_DCFG_MINOR d, s.get F.NET_DCFG_DOMAIN d, q.seq, (q.stamp16 : Int) - s.getS F.NET_RXCOR_COR p,
        (q.txStamp16 : Int) + s.getS F.NET_TXCOR_COR p⟩))) ∧
    (s.inFrame p 0 = true → s.listens 0 p = true ∨ s.listens 1 p = true → ¬ takes 0 → ¬ takes 1 →
      ∃ u : State, exec (.ptpPdelayReq p q) s = .next u.settle ∧ u.net = r.net ∧
        (Ev.PTP_MSG, BitVec.ofNat 32 (if s.listens 0 p then 0 else 1), 0) ∈ u.evt.raised)) ∧
  (∀ (s : State) (path : Path) (sel : BitVec 2), s.Ready path → s.thawed path = true →
    let done := fun t : State => (t.refreeze path).noteCode path .ok
    let other := sel.toNat = 2 - s.steering
    (¬ other → exec (.ptpSelect path sel) s = .next (done s)) ∧
    (other → s.otherGood = false → exec (.ptpSelect path sel) s = .next (s.noteCode path .state)) ∧
    (other → s.otherGood = true → ∃ u : State, exec (.ptpSelect path sel) s = .next u.settle ∧ u.steering = 1 - s.steering ∧
      u.get F.NET_PTPSTAT_ARMED = 0 ∧ u.net.switchedAt = some s.period ∧ (Ev.PTP_SWITCH, BitVec.ofNat 32 (1 - s.steering), 0) ∈ u.evt.raised ∧ u.thawed path = false) ∧
    (s.net.switchedAt = some s.period → exec (.ptpArmstep path) s = .next (done s)) ∧
    (s.net.switchedAt ≠ some s.period → ∃ t : State, exec (.ptpArmstep path) s = .next (done t) ∧ t.get F.NET_PTPSTAT_ARMED = 1 ∧ t.net = { s.net with armStep := [] } ∧
      ∀ a, a ≠ R.NET_PTPSTAT.base → t.rd a = s.rd a)) ∧
  (∀ s : State, s.Quiet →
    let settled := s.get F.NET_PLSTAT_STATE = plPull ∧ (s.getS F.NET_PLSTAT_E).natAbs ≤ 10
    (¬ settled → exec .periodLockSettled s = .next s) ∧
    (settled → ∃ u : State, exec .periodLockSettled s = .next u.settle ∧ u.get F.NET_PLSTAT_STATE = plLocked ∧
      u.get F.MVS_STAT_NETLOCK = 1 ∧ u.evt.raised = [(Ev.PL_LOCK, 0, 0)] ∧
      ∀ a, a ≠ R.NET_PLSTAT.base → a ≠ R.MVS_STAT.base → u.rd a = s.rd a))

/-- Links and frames are counted as they are taken, dropped or policed, and a timed output runs through its states. Rests on:
15_time_and_network.md R366, 15_time_and_network.md R367, 15_time_and_network.md R377, 15_time_and_network.md R380,
15_time_and_network.md R381. -/
def Obligations.PortsAndTimedOutputsAct : Prop :=
  (∀ (s : State) (p : PortId), s.Quiet →
    (∀ x : LinkState,
      let up := x.up && (s.flag F.NET_PCFG_IFMODE p || x.gigFull)
      exec (.netLinkChange p x) s = .next (if s.portOn p = true ∧ (s.get F.NET_STAT_LINK).testBit p ≠ up
        then ((s.putBit F.NET_STAT_LINK p up).pulse Ev.NET_LINK p up.toNat).settle else s)) ∧
    (∀ f : NetFrame,
      let tagOk := fun c => f.tag = none ∨ f.tag = some 0 ∨
        f.tag = if c = 3 then (if s.flag F.SAF_TGGLOB_TAGGED then some (s.get F.SAF_TGGLOB_VID) else none) else some (s.get F.NET_PCFG_VID p)
      let good := f.fcsOk = true ∧ f.len ≤ 1522
      let r := s.setRx p none
      (s.portOn p = false → exec (.netFrameReceive p f) s = .next s) ∧
      (s.portOn p = true → ∃ u : State, exec (.netFrameReceive p f) s = .next u.settle ∧ s.SameStore u ∧
        (∀ a, a ≠ F.NET_PSTAT_FCS.addr p → a ≠ F.NET_RXCNT_COUNT.addr p → u.rd a = s.rd a) ∧
        (¬ good → u.get F.NET_PSTAT_FCS p = min (s.get F.NET_PSTAT_FCS p + 1) 0xFFFF ∧
          u.get F.NET_RXCNT_COUNT p = s.get F.NET_RXCNT_COUNT p ∧ u.net = r.net) ∧
        (good → (∀ c, s.frameClass p f = some c → ¬ tagOk c) → u.get F.NET_PSTAT_DROP p = min (s.get F.NET_PSTAT_DROP p + 1) 0xFFFF ∧
          u.get F.NET_RXCNT_COUNT p = s.get F.NET_RXCNT_COUNT p ∧ u.net = r.net) ∧
        (∀ c, good → s.frameClass p f = some c → tagOk c →
          ((s.police p c).2 = true → u.get F.NET_RXCNT_COUNT p = (s.get F.NET_RXCNT_COUNT p + 1) % 2 ^ 32 ∧
            u.net.egress = (if c = 4 then (s.send (.arp p)).net.egress else s.net.egress) ∧
            (u.inFrame p c = true ↔ c ≠ 4) ∧ u.evt.raised = []) ∧
          ((s.police p c).2 = false → u.inFrame p c = false ∧ u.get F.NET_PSTAT_DROP p = min (s.get F.NET_PSTAT_DROP p + 1) 0xFFFF ∧
            (Ev.NET_POLICE, BitVec.ofNat 32 p, BitVec.ofNat 32 c) ∈ u.evt.raised))))) ∧
  (∀ (s : State) (path : Path) (n : Fin 8), s.Ready path →
    let st := s.get F.NET_TOUTSTAT_STATE n
    let x := s.tout n
    let mode := s.get F.NET_TOUTCFG_MODE n
    let tgt := s.get F.NET_TOUTTGT_TGT n
    (∃ u : State, exec (.toutArm path n) s = .next u.settle ∧ (u.tout n).mode = mode ∧ (u.tout n).pol = s.get F.NET_TOUTCFG_POL n ∧
      (u.tout n).width = s.get F.NET_TOUTW_W n ∧ u.get F.NET_TOUTSTAT_DONE n = 0 ∧ u.get F.NET_TOUTSTAT_ABORTED n = 0 ∧
      (∀ m : Fin 8, m ≠ n → u.tout m = s.tout m) ∧
      (mode = 0 → u.get F.NET_TOUTSTAT_STATE n = 0 ∧ u.get F.NET_TOUTSTAT_COUNT n = 0 ∧ u.evt.raised = []) ∧
      (mode ≠ 0 → 0 < s.toutAhead tgt → u.get F.NET_TOUTSTAT_STATE n = 1 ∧ u.get F.NET_TOUTSTAT_COUNT n = 0 ∧
        (u.tout n).tgt = tgt ∧ u.evt.raised = []) ∧
      (mode ≠ 0 → s.toutAhead tgt ≤ 0 → u.get F.NET_TOUTSTAT_STATE n = 2 ∧ u.get F.NET_TOUTSTAT_COUNT n = 1 ∧
        (u.tout n).high = true ∧ u.get F.NET_TOUTSTAT_LATE n = 1 ∧ u.evt.raised = [(Ev.TOUT_LATE, BitVec.ofNat 32 n, 0)] ∧
        (u.tout n).tgt = if mode = 2 then (tgt + s.get F.NET_TOUTPER_PER n) % 2 ^ 32 else tgt)) ∧
    (st = 1 → s.toutAhead x.tgt ≤ 0 → ∃ t : State,
      exec (.toutStop path n) s = .next (t.noteCode path (if x.mode = 2 then .ok else .abortLate)) ∧ t.get F.NET_TOUTSTAT_STATE n = 2 ∧
      t.get F.NET_TOUTSTAT_COUNT n = (s.get F.NET_TOUTSTAT_COUNT n + 1) % 65536 ∧ (t.tout n).high = true ∧
      (t.tout n).stop = (x.stop || x.mode == 2) ∧ t.get F.NET_TOUTSTAT_ABORTED n = s.get F.NET_TOUTSTAT_ABORTED n) ∧
    (st = 1 → 0 < s.toutAhead x.tgt → ∃ t : State, exec (.toutStop path n) s = .next (t.noteCode path .ok) ∧ t.get F.NET_TOUTSTAT_STATE n = 0 ∧
      t.get F.NET_TOUTSTAT_ABORTED n = 1 ∧ t = { s with regs := t.regs } ∧ ∀ a, a ≠ F.NET_TOUTSTAT_STATE.addr n → t.rd a = s.rd a) ∧
    (st = 2 → x.mode = 2 → exec (.toutStop path n) s = .next ((s.setTout n { x with stop := true }).noteCode path .ok)) ∧
    ((st = 2 ∧ x.mode ≠ 2) ∨ (st ≠ 1 ∧ st ≠ 2 ∧ s.flag F.NET_TOUTSTAT_DONE n = true) →
      exec (.toutStop path n) s = .next (s.noteCode path .abortLate)) ∧
    (st ≠ 1 → st ≠ 2 → s.flag F.NET_TOUTSTAT_DONE n = false → exec (.toutStop path n) s = .next (s.noteCode path .ok))) ∧
  (∀ (s : State) (n : Fin 8), s.Quiet →
    let st := s.get F.NET_TOUTSTAT_STATE n
    let x := s.tout n
    (st ≠ 1 → exec (.toutTargetReached n) s = .next s) ∧
    (st = 1 → ∃ t : State, exec (.toutTargetReached n) s = .next t ∧ t.get F.NET_TOUTSTAT_STATE n = 2 ∧
      t.get F.NET_TOUTSTAT_COUNT n = (s.get F.NET_TOUTSTAT_COUNT n + 1) % 65536 ∧ t.get F.NET_TOUTLAST_NS n = s.netNow % 2 ^ 32 ∧
      t.tout n = { x with high := true, stepped := false, tgt := if x.mode = 2 then (x.tgt + x.per) % 2 ^ 32 else x.tgt } ∧
      (∀ m : Fin 8, m ≠ n → t.tout m = s.tout m)) ∧
    (st ≠ 2 → exec (.toutPulseEnd n) s = .next (s.setTout n { x with high := false, stop := false })) ∧
    (st = 2 → x.mode ≠ 2 → ∃ t : State, exec (.toutPulseEnd n) s = .next t ∧ t.get F.NET_TOUTSTAT_STATE n = 0 ∧
      t.get F.NET_TOUTSTAT_DONE n = 1 ∧ (t.tout n).high = false) ∧
    (st = 2 → x.mode = 2 → x.stop = true → ∃ t : State, exec (.toutPulseEnd n) s = .next t ∧ t.get F.NET_TOUTSTAT_STATE n = 0 ∧
      t.get F.NET_TOUTSTAT_ABORTED n = 1 ∧ (t.tout n).high = false) ∧
    (st = 2 → x.mode = 2 → x.stop = false → 0 < s.toutAhead x.tgt → ∃ t : State, exec (.toutPulseEnd n) s = .next t ∧
      t.get F.NET_TOUTSTAT_STATE n = 1 ∧ t.tout n = { x with high := false, stop := false }) ∧
    (st = 2 → x.mode = 2 → x.stop = false → s.toutAhead x.tgt ≤ 0 → ∃ u : State, exec (.toutPulseEnd n) s = .next u.settle ∧
      u.get F.NET_TOUTSTAT_STATE n = 2 ∧ u.get F.NET_TOUTSTAT_COUNT n = (s.get F.NET_TOUTSTAT_COUNT n + 1) % 65536 ∧
      u.evt.raised = [(Ev.TOUT_LATE, BitVec.ofNat 32 n, 0)] ∧ u.tout n = { x with
        high := true, stop := false, stepped := false, tgt := if x.stepped then s.nextTarget x.tgt x.per else (x.tgt + x.per) % 2 ^ 32 }))

/-- GOOSE and Sampled Values subscriptions take matching messages in order, are invalid on a mismatch, a gap or a timeout, and
GOOSE_RETRANSMIT backs off. Rests on: 02_control_period.md R35, 15_time_and_network.md R367, 15_time_and_network.md R382,
15_time_and_network.md R383, 15_time_and_network.md R384, 15_time_and_network.md R386, 15_time_and_network.md R390. -/
def Obligations.SubscriptionsTakeTheirMessages : Prop :=
  (∀ (s : State) (m : GooseMsg), s.Quiet →
    let r := s.setRx m.port none
    let comes := s.inFrame m.port 1 = true
    (¬ comes → exec (.gooseReceive m) s = .next s) ∧
    (comes → m.parity = true → exec (.gooseReceive m) s = .next (r.pulse Ev.XING_PAR).settle) ∧
    (comes → m.parity = false → ∃ u : State, exec (.gooseReceive m) s = .next u.settle ∧ s.SameStore u ∧ ∀ i < 64,
      let w0 := s.gsubW i 0
      let x := s.gsub i
      let matches_ := addrMatch w0 (s.gsubW i 1) (s.gsubW i 2) m.dst m.appid = true ∧ (m.sim = true → w0.getLsbD 28 = true)
      let right := (fieldGet w0 30 29).testBit m.port = true ∧ m.cbCrc = s.gsubW i 3 ∧ m.confRev = s.gsubW i 4 ∧ m.nds = false ∧ m.entries = fieldGet w0 7 0
      let dst := toSigned 32 (m.st.toNat + 2 ^ 32 - x.st)
      let dsq := toSigned 32 (m.sq.toNat + 2 ^ 32 - x.sq)
      (¬ matches_ → u.gsub i = x ∧ u.gooseValid i = s.gooseValid i) ∧
      (matches_ → ¬ right → u.gsub i = x ∧ u.gooseValid i = false ∧ (Ev.GOOSE_CFG, BitVec.ofNat 32 i, 0) ∈ u.evt.raised) ∧
      (matches_ → right → x.seen = false ∨ 0 < dst ∨ (dst < 0 ∧ s.gooseValid i = false) →
        u.gsub i = ⟨true, m.st.toNat, m.sq.toNat, m.tal, m.vals, s.ct⟩ ∧
        u.gooseValid i = true ∧ u.gsubW i 6 = m.st) ∧
      (matches_ → right → x.seen = true → dst = 0 → 0 < dsq → u.gsub i = { x with sq := m.sq.toNat, tal := m.tal, at_ := s.ct } ∧
        u.gooseValid i = true) ∧
      (matches_ → right → x.seen = true → (dst = 0 ∧ dsq ≤ 0) ∨ (dst < 0 ∧ s.gooseValid i = true) →
        u.gsub i = x ∧ u.gooseValid i = s.gooseValid i))) ∧
  (∀ s : State, s.Quiet →
    (∀ i : Fin 64, (s.gooseValid i = false ∨ (s.gsub i).at_ = s.ct → exec (.gooseTalExpiry i) s = .next s) ∧
      (s.gooseValid i = true → (s.gsub i).at_ ≠ s.ct → ∃ u : State, exec (.gooseTalExpiry i) s = .next u.settle ∧ u.gooseValid i = false ∧
        u.evt.raised = [(Ev.GOOSE_TO, BitVec.ofNat 32 i, 0)] ∧ ∀ j : Fin 64, j ≠ i → u.gooseValid j = s.gooseValid j)) ∧
    (∀ j : Fin 8,
      let x := s.pub j
      let runs := s.flag F.NET_GPCFG_EN j = true ∧ s.driving = true ∧ x.started = true
      (¬ runs → exec (.gooseRetransmit j) s = .next s) ∧
      (runs → ∃ t : State, exec (.gooseRetransmit j) s = .next t ∧
        t.pub j = { x with interval := min (2 * x.interval) (s.get F.NET_GPTIM_TMAX j) } ∧
        t.get F.NET_GPSQ_SQNUM j = (s.get F.NET_GPSQ_SQNUM j + 1) % 2 ^ 32 ∧
        (∀ p : Fin 2, s.portOn p = true → (s.get F.NET_GPCFG_PORTS j).testBit p = true → .goose p ⟨s.img.pubs.getD j {},
          s.get F.NET_GPCFG_APPID j, s.get F.NET_GPST_STNUM j, t.get F.NET_GPSQ_SQNUM j, x.t, 2 * (t.pub j).interval, !s.servoLocked, x.vals⟩ ∈
            t.net.egress) ∧ ∀ k : Fin 8, k ≠ j → t.pub k = s.pub k))) ∧
  (∀ (s : State) (m : SvMsg), s.Quiet →
    let r := s.setRx m.port none
    let comes := s.inFrame m.port 2 = true
    (¬ comes → exec (.svReceive m) s = .next s) ∧
    (comes → m.parity = true → exec (.svReceive m) s = .next (r.pulse Ev.XING_PAR).settle) ∧
    (comes → m.parity = false → ∃ u : State, exec (.svReceive m) s = .next u.settle ∧ s.SameStore u ∧ ∀ i < 8,
      let w0 := s.svsubW i 0
      let x := s.svsub i
      let rate := svRate w0
      let cnts := m.asdus.map (·.cnt)
      let matches_ := addrMatch w0 (s.svsubW i 1) (s.svsubW i 2) m.dst m.appid = true ∧ (m.sim = true → w0.getLsbD 28 = true)
      let right := (fieldGet w0 30 29).testBit m.port = true ∧ m.svCrc = s.svsubW i 3 ∧ m.confRev = s.svsubW i 4 ∧
        1 ≤ m.asdus.length ∧ m.asdus.length ≤ 8 ∧ ∀ a ∈ m.asdus, a.vals.length = fieldGet w0 7 0
      let copy := (1 - m.port.val, cnts) ∈ x.used
      let used := (x.used ++ [(m.port.val, cnts)]).drop (x.used.length + 1 - 16)
      (¬ matches_ → u.svsub i = x ∧ u.svValid i = s.svValid i) ∧
      (matches_ → ¬ right → u.svsub i = x ∧ u.svValid i = false ∧ (Ev.SV_CFG, BitVec.ofNat 32 i, 0) ∈ u.evt.raised) ∧
      (matches_ → right → copy → u.svsub i = { x with used := x.used.erase (1 - m.port.val, cnts) } ∧ u.svValid i = s.svValid i) ∧
      (matches_ → right → ¬ copy → (u.svsub i).used = used ∧ (u.svsub i).seen = true ∧ cnts.getLast? = some (u.svsub i).cnt) ∧
      ∀ a : SvAsdu, matches_ → right → ¬ copy → m.asdus = [a] →
        let skip := (a.cnt + 2 * rate - x.cnt % rate - 1) % rate
        let gap := x.seen = true ∧ fieldGet (s.svsubW i 5) 7 0 < skip
        (x.seen = true → a.cnt = x.cnt → u.svsub i = { x with used := used } ∧ u.svValid i = s.svValid i) ∧
        (x.seen = false ∨ a.cnt ≠ x.cnt → (u.svsub i).vals = a.vals ∧ (u.svsub i).bad = (w0.getLsbD 27 && a.synch == 0) ∧
          (gap → u.svValid i = false ∧ (Ev.SV_GAP, BitVec.ofNat 32 i, BitVec.ofNat 32 skip) ∈ u.evt.raised) ∧
          (¬ gap → u.svValid i = true))))

/-- RAP_OPEN opens the lowest free session, a newer request is carried out once and its response kept, a repeated or older one
is not, and sessions close. Rests on: 02_control_period.md R35, 03_register_model.md R58, 03_register_model.md R75,
13_redundancy.md R325, 15_time_and_network.md R367, 15_time_and_network.md R387, 15_time_and_network.md R388,
15_time_and_network.md R389. -/
def Obligations.SessionsOpenAnswerAndClose : Prop :=
  (∀ (s : State) (q : RapOpenReq), s.Quiet →
    let r := s.setRx q.port none
    let comes := s.inFrame q.port 5 = true
    let key := s.netKey q.kslot
    let takes := s.rapPort q.port = true ∧ rapRight q.magic q.ver = true ∧ s.netKeyIn q.kslot = true ∧ q.nonce.length = 16
    let macOk := q.mac = Config.hmac key (rapOpenBytes q)
    (¬ comes → exec (.rapOpen q) s = .next s) ∧
    (comes → ¬ takes → exec (.rapOpen q) s = .next r) ∧
    (comes → takes → ¬ macOk → ∃ u : State, exec (.rapOpen q) s = .next u.settle ∧ u.net = r.net ∧
      (Ev.RAP_AUTH, BitVec.ofNat 32 q.port, 0) ∈ u.evt.raised) ∧
    (comes → takes → macOk →
      ((∀ n, 1 ≤ n → n ≤ 4 → (s.session n).open_ = true) → exec (.rapOpen q) s =
        .next (r.sendRap q.port key { op := 2, sess := 0, kslot := q.kslot, seq := q.seq.toNat })) ∧
      (∀ n, 1 ≤ n → n ≤ 4 → (s.session n).open_ = false → (∀ k, 1 ≤ k → k < n → (s.session k).open_ = true) →
        let nh := Config.randomBytes s.free 16
        ∃ t : State, exec (.rapOpen q) s = .next t ∧
          t.session n = { open_ := true, port := q.port, kslot := q.kslot, ks := sessionKey key q.nonce nh n } ∧ t.free = s.free + 1 ∧
          t.net.egress = (s.sendRap q.port key { op := 2, sess := n, kslot := q.kslot, seq := q.seq.toNat, nonce := nh }).net.egress ∧
          t.get F.NET_RAPSTAT_OPEN = setBit (s.get F.NET_RAPSTAT_OPEN) (n - 1) true ∧ ∀ k, k ≠ n → t.session k = s.session k))) ∧
  (∀ (s : State) (m : RapMsg) (i : Instr) (op : RapOp), s.Quiet →
    (i, op) ∈ [(Instr.rapRead m, RapOp.read), (.rapReadFixed m, .readFixed), (.rapWrite m, .write), (.rapWriteFixed m, .writeFixed),
      (.rapKeepalive m, .keepalive), (.rapClose m, .close)] →
    let n := m.sess.val
    let r := s.setRx m.port none
    let comes := s.inFrame m.port 5 = true
    let takes := comes ∧ m.parity = false ∧ s.rapTakes m = true
    let macOk := m.mac = Config.hmac (s.session n).ks (rapBytes m op)
    let runs := takes ∧ macOk ∧ 0 < s.rapAhead m ∧ rapCounted op m = true ∧ s.rapHolds op m = false
    (¬ comes → exec i s = .next s) ∧
    (comes → m.parity = true → exec i s = .next (r.pulse Ev.XING_PAR).settle) ∧
    (comes → m.parity = false → s.rapTakes m = false → exec i s = .next r) ∧
    (takes → ¬ macOk → ∃ u : State, exec i s = .next u.settle ∧ u.net = r.net ∧ (Ev.RAP_AUTH, BitVec.ofNat 32 m.port, 0) ∈ u.evt.raised) ∧
    (takes → macOk → s.rapAhead m = 0 → exec i s = .next (r.rapAnswer op m)) ∧
    (takes → macOk → s.rapAhead m < 0 → ∃ u : State, exec i s = .next u.settle ∧ u.net = r.net ∧
      u.get F.NET_RAPERR_REPLAY = min (s.get F.NET_RAPERR_REPLAY + 1) 0xFFFF) ∧
    (takes → macOk → 0 < s.rapAhead m → rapCounted op m = false → exec i s = .next r) ∧
    (takes → macOk → 0 < s.rapAhead m → rapCounted op m = true → s.rapHolds op m = true →
      exec i s = .next { r with net := { r.net with rapHeld := s.net.rapHeld ++ [(op, m)] } }) ∧
    (runs → op = .read ∨ op = .readFixed →
      ∃ u : State, exec i s = .next (u.rapAnswer op m).settle ∧ (u.session n).lastSeq = some m.seq.toNat ∧
        (u.session n).resp.seq = m.seq.toNat ∧ u.net.egress = s.net.egress ∧
        (u.session n).resp.words.length = m.count ∧ (u.session n).resp.codes.length = m.count ∧
        (∀ a, a ≠ R.SYS_WRSTAT.base → u.rd a = s.rd a) ∧
        (let b := r.busRead n m.addr.toNat
         (u.session n).resp.words.head? = some b.2.1 ∧ (u.session n).resp.codes.head? = some b.2.2.num)) ∧
    (runs → op = .write ∨ op = .writeFixed → m.count = 1 → s.pathOn n = true →
      let b := r.busWrite n m.addr.toNat (m.body.getD 0 0)
      (b.1.session n).open_ = true → exec i s = .next ((b.1.setSession n { b.1.session n with
        lastSeq := some m.seq.toNat, resp := ⟨m.seq.toNat, [b.2.num], []⟩ }).rapAnswer op m).settle) ∧
    (runs → op = .keepalive → exec i s = .next (r.setSession n { s.session n with
      lastSeq := some m.seq.toNat, resp := ⟨m.seq.toNat, [], []⟩ })) ∧
    (runs → op = .close → ∃ u : State, exec i s = .next u.settle ∧ u.session n = {} ∧
      (u.get F.NET_RAPSTAT_OPEN).testBit (n - 1) = false ∧ (Ev.RAP_SESSION, BitVec.ofNat 32 n, 0) ∈ u.evt.raised ∧
      ∀ k, k ≠ n → u.session k = s.session k)) ∧
  (∀ (s : State) (k : Fin 4), s.Quiet →
    ((s.session (k.val + 1)).open_ = false → exec (.rapIdleTimeout k) s = .next s) ∧
    ((s.session (k.val + 1)).open_ = true → ∃ u : State, exec (.rapIdleTimeout k) s = .next u.settle ∧ u.session (k.val + 1) = {} ∧
      (u.get F.NET_RAPSTAT_OPEN).testBit k = false ∧ (Ev.RAP_SESSION, BitVec.ofNat 32 (k.val + 1), 0) ∈ u.evt.raised ∧
      ∀ j, j ≠ k.val + 1 → u.session j = s.session j))

/-! ### Acquisition -/

/-- Recorders arm, stop, trigger and close, masks count their violations, streams take pages, and an overrun closes the open
physical records. Rests on: 02_control_period.md R34, 16_acquisition.md R392, 16_acquisition.md R397, 16_acquisition.md R399,
16_acquisition.md R400, 16_acquisition.md R401, 16_acquisition.md R402, 16_acquisition.md R404, 16_acquisition.md R405,
16_acquisition.md R406, 16_acquisition.md R407. -/
def Obligations.RecordersArmStopTriggerAndClose : Prop :=
  (∀ (s : State) (path : Path) (k : RecId), s.Ready path →
    let refused := s.flag F.ACQ_STAT_SHED = true ∨ (s.rChans k ≠ [] ∧ s.flag F.ADC_CTRL_FBUFEN = false) ∨
      (s.flag F.ACQ_RCFG_KEEP k = true ∧ s.loosePages < s.get F.ACQ_CFG_MINFREE + s.ringTotal k + 1) ∨
      ∃ b, s.newRec (s.blankRec k) = .error b
    (s.rState k ≠ 0 → exec (.recorderArm path k) s = .next (s.noteCode path .ok)) ∧
    (s.rState k = 0 → refused → exec (.recorderArm path k) s = .next (s.noteCode path .state)) ∧
    (s.rState k = 0 → ¬ refused → (∀ c < 4, s.get F.ACQ_RTRG0_KIND k c ≠ 5) →
      ∃ u : State, exec (.recorderArm path k) s = .next u.settle ∧ u.rState k = 1 ∧ s.otp = u.otp ∧ s.mram = u.mram ∧
        (∃ e r, (u.rcr k).entry = some e ∧ u.recEntry e = some r ∧ r.opened = true ∧ r.listed = false ∧ r.src = k.val ∧
          (u.page r.page).owner = some e) ∧
        (u.rcr k).made = 0 ∧ (u.rcr k).holdDone = (s.get F.ACQ_RHOLD_HOLDOFF k == 0) ∧
        ∀ j : RecId, j ≠ k → u.rState j = s.rState j ∧ u.rcr j = s.rcr j) ∧
    (s.rState k = 1 ∨ s.rState k = 2 → ∃ t : State, exec (.recorderStop path k) s = .next (t.noteCode path .ok) ∧ t.rState k = 0 ∧
      (∀ e r, (s.rcr k).entry = some e → s.recEntry e = some r → t.recEntry e = none ∧ t.rcr k = {} ∧ ∀ p ∈ r.allPages, t.page p = {}) ∧
      (∀ a, a ≠ F.ACQ_RSTAT_STATE.addr k → t.rd a = s.rd a) ∧ s.SameStore t) ∧
    (∀ e r, s.rState k = 3 ∨ s.rState k = 4 → (s.rcr k).entry = some e → s.recEntry e = some r → r.opened = true →
      ∃ u : State, exec (.recorderStop path k) s = .next u.settle ∧ u.rState k = 0 ∧ u.rcr k = {} ∧ s.RecClosed u k e r 2) ∧
    (s.rState k = 0 → exec (.recorderStop path k) s =
      .next (s.noteCode path (if s.get F.ACQ_RSTAT_RECORDS k = 0 then .ok else .abortLate))) ∧
    (let takes := fun c => (s.get F.ACQ_RCOMB_ENA k).testBit c = true ∧ s.get F.ACQ_RTRG0_KIND k c = 8
     let waits := (s.rState k = 1 ∨ s.rState k = 2) ∧ (s.rcr k).holdDone = true ∧ (s.rcr k).due = none
     (¬ waits ∨ (∀ c < 4, ¬ takes c) → ∃ t : State, exec (.recorderForce path k) s = .next (t.noteCode path .ok) ∧ t.regs = s.regs ∧
       s.SameStore t ∧ ∀ j : RecId, t.rcr j = s.rcr j) ∧
     (∀ e r c, waits → s.get F.ACQ_RCOMB_FUNC k = 1 → c < 4 → takes c → (∀ d < c, ¬ takes d) → (s.rcr k).entry = some e →
       s.recEntry e = some r → ∃ u : State, exec (.recorderForce path k) s = .next u.settle ∧
         s.RecFired u k e r c (s.arrival 9).1 (s.arrival 9).2 0 2))) ∧
  (∀ (s : State) (k : RecId) (tofs : BitVec 12), s.Quiet →
    let runs := s.rState k = 1 ∨ s.rState k = 2
    (¬ runs ∨ (s.rcr k).due = none → exec (.recorderTrigger k tofs) s = .next s) ∧
    (∀ e r t, runs → (s.rcr k).due = some t → (s.rcr k).entry = some e → s.recEntry e = some r →
      ∃ u : State, exec (.recorderTrigger k tofs) s = .next u.settle ∧
        s.RecFired u k e r t.cond t.period t.j (if t.qual = 1 then min 3999 tofs.toNat else t.tofs) t.qual) ∧
    exec (.recorderHoldoffExpiry k) s = .next (if runs ∧ s.get F.ACQ_RHOLD_HOLDOFF k ≤ (s.rcr k).samples
      then s.setRcr k { s.rcr k with holdDone := true } else s) ∧
    (s.rState k ≠ 4 → exec (.recorderPostComplete k) s = .next s) ∧
    (∀ e r, s.rState k = 4 → (s.rcr k).entry = some e → s.recEntry e = some r → r.opened = true →
      let made := (s.rcr k).made + 1
      let again := s.get F.ACQ_RCFG_MODE k = 1 ∧ (s.get F.ACQ_RCFG_COUNT k = 0 ∨ made < s.get F.ACQ_RCFG_COUNT k) ∧
        (s.rcr k).maskStop = false ∧ s.flag F.ACQ_STAT_SHED = false
      ∃ u : State, exec (.recorderPostComplete k) s = .next u.settle ∧ s.RecClosed u k e r 0 ∧
        (¬ again → u.rState k = 0 ∧ u.rcr k = {} ∧ u.evt.raised = []) ∧
        (again → (u.rState k = 1 ∧ (u.rcr k).made = made) ∨
          (u.rState k = 0 ∧ ((Ev.ACQ_DIRFULL, BitVec.ofNat 32 k, 0) ∈ u.evt.raised ∨
            (Ev.ACQ_NOPAGE, BitVec.ofNat 32 k, 0) ∈ u.evt.raised))))) ∧
  (∀ (s : State) (m : Fin 8) (row : Word), s.Quiet →
    let k := s.get F.ACQ_MCFG_REC m
    let found := (m.val, row.toNat) ∈ s.acq.viol
    let inRec := (s.rState k = 3 ∨ s.rState k = 4) ∧ (s.rcr k).first ≤ row.toNat
    (¬ found → exec (.maskViolation m row) s = .next s) ∧
    (found → ∃ u : State, exec (.maskViolation m row) s = .next u.settle ∧
      u.get F.ACQ_MCNT_COUNT m = min (s.get F.ACQ_MCNT_COUNT m + 1) 0xFFFFFFFF ∧
      (Ev.ACQ_MASK, BitVec.ofNat 32 m, 0) ∈ u.evt.raised ∧
      (s.get F.ACQ_MCFG_ACTION m = 2 → (u.rcr k).maskStop = true) ∧
      (s.get F.ACQ_MCFG_ACTION m = 0 → u.acq.viol = s.acq.viol.erase (m.val, row.toNat) ∧ (∀ j : RecId, u.rState j = s.rState j) ∧
        (∀ j, j ≠ k → u.rcr j = s.rcr j) ∧
        (s.rState k = 1 ∨ s.rState k = 2 → u.rcr k = { s.rcr k with viols := (s.rcr k).viols ++ [(m.val, row.toNat)] }) ∧
        (s.rState k ≠ 1 → s.rState k ≠ 2 → u.rcr k = s.rcr k) ∧
        ∀ e r, inRec → (s.rcr k).entry = some e → s.recEntry e = some r → (Sparse.get (fun _ => (0, 0)) r.masks m).1 = 0 →
          u.get F.ACQ_MFIRST_ROW m = row.toNat - (s.rcr k).first ∧ ∃ x, u.recEntry e = some x ∧
            Sparse.get (fun _ => (0, 0)) x.masks m = (1, (row.toNat - (s.rcr k).first) % 65536)))) ∧
  (∀ (s : State) (k : RecId), s.Quiet →
    let needs := fun x : Nat × Stream => x.2.spare.isEmpty && x.2.rowBytes != 0 &&
      (x.2.pages.isEmpty || decide (x.2.inPage ≥ pageData / x.2.rowBytes))
    ((s.rcr k).entry = none → exec (.pageEviction k) s = .next s) ∧
    (∀ e r, (s.rcr k).entry = some e → s.recEntry e = some r →
      (r.streams.find? needs = none → exec (.pageEviction k) s = .next s) ∧
      (∀ st t, r.streams.find? needs = some (st, t) → r.stream st = t →
        (∀ p s1, s.takePage = some (p, s1) → ∃ u : State, exec (.pageEviction k) s = .next u.settle ∧
          u.page p = { owner := some e, kind := st, ring := !r.listed } ∧ u.recEntry e = some (r.setStream st { t with spare := [p] }) ∧
          u.rState k = s.rState k) ∧
        (s.takePage = none → r.opened = true → s.rState k = 3 ∨ s.rState k = 4 →
          ∃ u : State, exec (.pageEviction k) s = .next u.settle ∧
            (Ev.ACQ_NOPAGE, BitVec.ofNat 32 k, BitVec.ofNat 32 st) ∈ u.evt.raised ∧ s.RecClosed u k e r 1)))) ∧
  (∀ s : State, s.Quiet → (∀ k : RecId, s.get F.ACQ_RCFG_MODE k ≠ 1) →
    ∃ u : State, exec .acqOverrun s = .next u.settle ∧ u.get F.ACQ_STAT_OVRUN = 1 ∧ (Ev.ACQ_OVRUN, 0, 0) ∈ u.evt.raised ∧
      ∀ k : RecId,
        let hit := (s.rState k = 3 ∨ s.rState k = 4) ∧ s.rChans k ≠ []
        (¬ hit → u.rState k = s.rState k ∧ u.rcr k = s.rcr k) ∧
        ∀ e r, hit → (s.rcr k).entry = some e → s.recEntry e = some r → r.opened = true →
          u.rState k = 0 ∧ u.rcr k = {} ∧ s.RecClosed u k e r 5)

/-- CAL starts, ends and writes the skews; the maps are copied and cleared. Rests on: 03_register_model.md R60,
03_register_model.md R67, 16_acquisition.md R394, 16_acquisition.md R395, 16_acquisition.md R396, 16_acquisition.md R410,
16_acquisition.md R411, 17_clocks_thermal_power.md R428. -/
def Obligations.CalibrationAndMapsAct : Prop :=
  (∀ (s : State) (path : Path), s.Ready path → s.thawed path = true →
    let done := fun t : State => (t.refreeze path).noteCode path .ok
    (s.flag F.ACQ_STAT_SHED = true → exec (.calGo path) s = .next (done s)) ∧
    (s.flag F.ACQ_STAT_SHED = false → ∃ t : State, exec (.calGo path) s = .next (done t) ∧ t = { s with regs := t.regs } ∧
      t.get F.ACQ_STAT_MODE = 1 ∧ t.get F.ACQ_CALSTAT_STATE = 2 ∧ t.get F.ACQ_CALSTAT_CAUSE = 2 ∧
      ∀ a, a ≠ R.ACQ_STAT.base → a ≠ R.ACQ_CALSTAT.base → t.rd a = s.rd a)) ∧
  (∀ (s : State) (skews : List Int), s.Quiet →
    (s.get F.ACQ_CALSTAT_STATE ≠ 2 → exec (.calComplete skews) s = .next s) ∧
    (s.get F.ACQ_CALSTAT_STATE = 2 → ∃ u : State, exec (.calComplete skews) s = .next u.settle ∧ s.SameStore u ∧
      u.get F.ACQ_STAT_MODE = 0 ∧ u.get F.ACQ_CALSTAT_STATE = 0 ∧
      u.get F.ACQ_CALSTAT_COUNT = min (s.get F.ACQ_CALSTAT_COUNT + 1) 0xFFFF ∧
      (∃ big, (Ev.ACQ_CAL, 0, BitVec.ofNat 32 big) ∈ u.evt.raised ∧
        ∀ n < 24, (skews.getD n 0 - s.getS F.ACQ_SKEW_SKEW n).natAbs ≤ big) ∧
      (∀ (k : RecId) (e : Nat), (s.rcr k).entry = some e → (u.rcr k).fdAt = (s.rcr k).fdAt ++ [(s.rcr k).samples]) ∧
      ∀ n < 24,
        let sk := satSigned 16 (skews.getD n 0)
        let fd := fdOf sk (s.getS F.ACQ_FDOFS_OFS n)
        u.getS F.ACQ_SKEW_SKEW n = sk ∧ u.getS F.ACQ_FD_FD n = fd.1 ∧
          ((Ev.ACQ_FDLIM, BitVec.ofNat 32 n, 0) ∈ u.evt.raised ↔ fd.2 = true))) ∧
  (∀ (s : State) (path : Path), s.Ready path →
    (s.mapPage 2 = none → exec (.mapSnap path) s = .next (s.noteCode path .ok)) ∧
    (∀ q, s.mapPage 2 = some q → (s.page q).host = true → exec (.mapSnap path) s = .next (s.noteCode path .state)) ∧
    (∀ q, s.mapPage 2 = some q → (s.page q).host = false → ∃ t : State, exec (.mapSnap path) s = .next (t.noteCode path .ok) ∧
      t.get F.ACQ_MAPSTAT_BUSY = 1 ∧ t.acq = { s.acq with snapFrames := s.acq.mapFrames } ∧ s.SameStore t ∧
      ∀ a, a ≠ R.ACQ_MAPSTAT.base → t.rd a = s.rd a) ∧
    (s.mapPage 1 = none → exec (.mapClr path) s = .next (s.noteCode path .ok)) ∧
    (∀ p, s.mapPage 1 = some p → ∃ t : State, exec (.mapClr path) s = .next (t.noteCode path .ok) ∧ t.regs = s.regs ∧
      t.acq = { s.acq with mapOfs := none, mapFirst := none, mapLast := 0, mapFrames := 0 } ∧
      ∀ a, t.dramGet a 1 = if a / 2 ^ 21 = p then [0] else s.dramGet a 1)) ∧
  (∀ s : State, s.Quiet →
    (∃ t : State, exec .mapSnapDone s = .next t ∧ t.get F.ACQ_MAPSTAT_BUSY = 0 ∧ t.acq = s.acq ∧
      ∀ a, a ≠ R.ACQ_MAPSTAT.base → t.rd a = s.rd a) ∧
    (s.flag F.ACQ_MAPSTAT_BUSY = false ∨ s.mapPage 1 = none ∨ s.mapPage 2 = none ∨ (∃ q, s.mapPage 2 = some q ∧ (s.page q).host = true) →
      exec .mapSnapDone s = .next (s.put F.ACQ_MAPSTAT_BUSY 0)) ∧
    (∀ p q, s.flag F.ACQ_MAPSTAT_BUSY = true → s.mapPage 1 = some p → s.mapPage 2 = some q → (s.page q).host = false → p ≠ q →
      Sparse.wf (fun _ => (0 : Byte)) s.dram = true →
      ∃ t : State, exec .mapSnapDone s = .next t ∧ (∀ a, a / 2 ^ 21 ≠ q → t.dramGet a 1 = s.dramGet a 1) ∧
        ∀ o, 0x80 ≤ o → o < 2 ^ 21 → t.dramGet (q * 2 ^ 21 + o) 1 = s.dramGet (p * 2 ^ 21 + o) 1))

/-- Window slots take and give back pages, and the directory protects, releases and deletes records. Rests on:
03_register_model.md R60, 03_register_model.md R67, 16_acquisition.md R405, 16_acquisition.md R407, 16_acquisition.md R411,
16_acquisition.md R412. -/
def Obligations.WindowsAndTheDirectoryAct : Prop :=
  (∀ (s : State) (path : Path), s.Ready path → s.thawed path = true →
    let done := fun t : State => (t.refreeze path).noteCode path .ok
    let found := s.findRec (s.get F.ACQ_DIRARG_RECID)
    (found = none → exec (.dirProtect path) s = .next (s.noteCode path .state) ∧ exec (.dirUnprotect path) s = .next (s.noteCode path .state) ∧
      exec (.dirDelete path) s = .next (s.noteCode path .state)) ∧
    (∀ e r, found = some (e, r) → s.recEntry e = some r →
      let away := fun a => ∀ p ∈ r.allPages, a / 2 ^ 21 ≠ p
      let kept := s.setRec e (some { r with prot := true })
      (r.opened = true → exec (.dirProtect path) s = .next (done (s.setRec e (some { r with protClose := true })))) ∧
      (r.opened = false → kept.loosePages < s.get F.ACQ_CFG_MINFREE → exec (.dirProtect path) s = .next (s.noteCode path .state)) ∧
      (r.opened = false → s.get F.ACQ_CFG_MINFREE ≤ kept.loosePages → ∃ t : State, exec (.dirProtect path) s = .next (done t) ∧
        t.acq = kept.acq ∧ t.regs = s.regs ∧ ∀ a, away a → t.dramGet a 1 = s.dramGet a 1) ∧
      (∃ t : State, exec (.dirUnprotect path) s = .next (done t) ∧ t.recEntry e = some { r with prot := false, protClose := false } ∧
        t.regs = s.regs ∧ t.acq.pages = s.acq.pages ∧ ∀ a, r.opened = true ∨ away a → t.dramGet a 1 = s.dramGet a 1) ∧
      (r.opened = true ∨ s.recOwned r = true → exec (.dirDelete path) s = .next (s.noteCode path .state)) ∧
      (r.opened = false → s.recOwned r = false → ∃ t : State, exec (.dirDelete path) s = .next (done t) ∧ t.recEntry e = none ∧
        t.regs = s.regs ∧ s.SameStore t ∧ (∀ p ∈ r.allPages, t.page p = {}) ∧ ∀ p, p ∉ r.allPages → t.page p = s.page p))) ∧
  (∀ (s : State) (path : Path) (n : Fin 32) (page : BitVec 12), s.Ready path →
    let p := page.toNat
    let given := s.releaseSlot n
    let taken := given.setPage p { given.page p with host := true }
    let enough := (s.page p).mapKind = 2 ∨ s.get F.ACQ_CFG_MINFREE ≤ taken.loosePages
    (s.claimable p = false ∨ ¬ enough → exec (.wmapClaim path n page) s = .next (s.noteCode path .state)) ∧
    (s.claimable p = true → enough → ∃ t : State, exec (.wmapClaim path n page) s = .next (t.noteCode path .ok) ∧
      t.get F.ACQ_WMAP_OWN n = 1 ∧ t.get F.ACQ_WMAP_PAGE n = p ∧ t.page p = { s.page p with host := true } ∧ t.acq = taken.acq ∧
      s.SameStore t ∧ ∀ a, a ≠ F.ACQ_WMAP_OWN.addr n → t.rd a = s.rd a) ∧
    (∃ t : State, exec (.wmapRelease path n) s = .next (t.noteCode path .ok) ∧ t.get F.ACQ_WMAP_OWN n = 0 ∧ s.SameStore t ∧
      (∀ a, a ≠ F.ACQ_WMAP_OWN.addr n → t.rd a = s.rd a) ∧
      ∀ q,
        let gives := s.flag F.ACQ_WMAP_OWN n = true ∧ s.get F.ACQ_WMAP_PAGE n = q ∧
          ∀ m < 32, m ≠ n.val → s.flag F.ACQ_WMAP_OWN m = true → s.get F.ACQ_WMAP_PAGE m ≠ q
        (gives → t.page q = { s.page q with host := false }) ∧ (¬ gives → t.page q = s.page q)))

/-! ### Clocks and temperature -/

/-- A clock alarm resigns, loses its lanes or recovers its PLL, a clock output takes its setting, and sensor readings set
levels, shedding and band. Rests on: 02_control_period.md R35, 16_acquisition.md R395, 17_clocks_thermal_power.md R417,
17_clocks_thermal_power.md R418, 17_clocks_thermal_power.md R419, 17_clocks_thermal_power.md R420, 17_clocks_thermal_power.md
R422, 17_clocks_thermal_power.md R423, 17_clocks_thermal_power.md R424, 17_clocks_thermal_power.md R426,
17_clocks_thermal_power.md R428, 17_clocks_thermal_power.md R429. -/
def Obligations.ClockAlarmsRecoverAndTemperaturesLimit : Prop :=
  (∀ (s : State) (c : ClockId) (dev : BitVec 16), s.Quiet → ∃ u : State, exec (.clockAlarm c dev) s = .next u.settle ∧
    u.get F.CLK_ALARM_ALARM = setBit (s.get F.CLK_ALARM_ALARM) c true ∧
    (Ev.CLK_ALARM, BitVec.ofNat 32 c, BitVec.ofNat 32 dev.toNat) ∈ u.evt.raised ∧
    (c.val < 3 → u.evt.resignReq = some (0x83, Ev.CLK_ALARM)) ∧
    (3 ≤ c.val → u.evt.resignReq = none) ∧
    (8 ≤ c.val → u.get F.DML_QSTAT_CLKALARM (c.val - 8) = 1 ∧ ∀ l : LaneId,
      let hit := quadOf l = c.val - 8 ∧ (s.lnState l = lnLink ∨ s.lnState l = lnAlign ∨ s.lnState l = lnService)
      (¬ hit → u.lnState l = s.lnState l) ∧
      (hit → (u.lnState l = lnLost ∨ u.lnState l = lnFault) ∧ u.get F.DML_STAT_LASTCAUSE l = 3 ∧
        (Ev.LANE_LOST, BitVec.ofNat 32 l, 3) ∈ u.evt.raised)) ∧
    (∀ p, recoverPll c = some p →
      let again := s.clk.recovering.testBit p = true ∨
        ∃ t, Sparse.get (fun _ => none) s.clk.lastAlarm p = some t ∧ s.ct ≤ t + 6000000000
      (u.get F.CLK_STAT_LOCKED).testBit (p - 2) = false ∧ Sparse.get (fun _ => none) u.clk.lastAlarm p = some s.ct ∧
      (again → (u.get F.CLK_ALARM_LATCHED).testBit c = true ∧ (Ev.CLK_LATCH, BitVec.ofNat 32 c, 0) ∈ u.evt.raised ∧
        u.clk.recovering.testBit p = false) ∧
      (¬ again → u.get F.CLK_ALARM_LATCHED = s.get F.CLK_ALARM_LATCHED ∧ u.clk.recovering.testBit p = true)) ∧
    (c.val = 5 → (∀ k : RecId, s.get F.ACQ_RCFG_MODE k ≠ 1) → ∀ (k : RecId) e r, s.rState k = 3 ∨ s.rState k = 4 →
      (s.rcr k).entry = some e → s.recEntry e = some r → r.opened = true → u.rState k = 0 ∧ s.RecClosed u k e r 5)) ∧
  (∀ (s : State) (c : ClockId), s.Quiet →
    (recoverPll c = none → exec (.pllRecoveryDone c) s = .next s) ∧
    (∀ p, recoverPll c = some p →
      (s.clk.recovering.testBit p = false → exec (.pllRecoveryDone c) s = .next s) ∧
      (s.clk.recovering.testBit p = true → ∃ u : State, exec (.pllRecoveryDone c) s = .next u.settle ∧ s.SameStore u ∧
        u.clk = { s.clk with recovering := setBit s.clk.recovering p false } ∧ (u.get F.CLK_STAT_LOCKED).testBit (p - 2) = true ∧
        (∀ b < 16, (u.get F.CLK_ALARM_ALARM).testBit b =
          ((s.get F.CLK_ALARM_ALARM).testBit b && recoverPll b != some p)) ∧ u.evt.raised = [] ∧
        (s.flag F.ACQ_STAT_SHED = false → s.get F.SEC_STATE_HSTATE ≠ 3 → u.get F.ACQ_STAT_MODE = 1 ∧ u.get F.ACQ_CALSTAT_CAUSE = 4) ∧
        (s.flag F.ACQ_STAT_SHED = true ∨ s.get F.SEC_STATE_HSTATE = 3 → u.get F.ACQ_STAT_MODE = s.get F.ACQ_STAT_MODE)))) ∧
  (∀ (s : State) (o : Fin 2), s.Quiet → ∃ t : State, exec (.clkoutConfigApply o) s = .next t ∧ s.SameStore t ∧
    let w := s.rd (F.CLK_OUTCFG_EN.addr o)
    let c := s.outClock (fieldGet w 17 16)
    Sparse.get (fun _ => 0) t.clk.outNow o = w ∧
    (t.get F.CLK_OUTSTAT_RUNNING).testBit o =
      (w.getLsbD 31 && !(s.get F.CLK_ALARM_ALARM).testBit c && (c == 0 || c == 1 || s.pllOn (c - 2))) ∧
    (∀ p : Fin 2, p ≠ o → Sparse.get (fun _ => 0) t.clk.outNow p = Sparse.get (fun _ => 0) s.clk.outNow p ∧
      (t.get F.CLK_OUTSTAT_RUNNING).testBit p = (s.get F.CLK_OUTSTAT_RUNNING).testBit p) ∧
    ∀ a, a ≠ R.CLK_OUTSTAT.base → t.rd a = s.rd a) ∧
  (∀ (s : State) (ws : List TempWord), s.Quiet → (s.netStopped = true → exec (.dieSensorRead ws) s = .next s) ∧ (s.netStopped = false →
    let rs := readingsOf ws s.lastDie
    let val := fun i => dieInRange (rs.getD i none)
    let m2 := median2 ((List.range 8).filterMap val)
    let ok := fun i => match val i with
      | some t => nearMedian m2 t
      | none => false
    let n := ((List.range 8).filter ok).length
    let die := ((List.range 8).filter ok).filterMap val
    let hot := ((List.range 8).find? fun i => ok i && val i == some (die.foldl max 0)).getD 0
    let top := if die = [] then s.get F.THM_STAT_DIE else die.foldl max 0
    let t : Int := if n < 3 then max (s.get F.THM_DIECFG1_SHUT : Int) top else (top : Int)
    let now := levels3 (!s.thm.seen.contains 0) (s.levelsAt 0) t s.dieLimits
    let band := bandOf (s.get F.THM_STAT_BAND) top
    ∃ u : State, exec (.dieSensorRead ws) s = .next u.settle ∧ s.otp = u.otp ∧ s.flash = u.flash ∧ s.mram = u.mram ∧
      (∀ w ∈ ws, w.parity = true → (Ev.XING_PAR, 0, 0) ∈ u.evt.raised) ∧
      (∀ i < 8, u.flag F.THM_DIERD_VALID i = ok i ∧
        u.get F.THM_DIERD_T i = (match rs.getD i none with
          | some x => x.toNat
          | none => s.get F.THM_DIERD_T i) ∧
        (ok i = false → s.thm.bad.contains i = false → (Ev.THM_SENSOR, BitVec.ofNat 32 i, 0) ∈ u.evt.raised)) ∧
      u.get F.THM_STAT_NVALID = n ∧ u.get F.THM_STAT_DIE = top ∧ u.levelsAt 0 = now ∧
      (∀ i < 3, now.testBit i = true → (s.levelsAt 0).testBit i = false →
        (levelEvent 0 i, BitVec.ofNat 32 hot, BitVec.ofNat 32 (ofSigned 32 t)) ∈ u.evt.raised) ∧
      u.flag F.THM_STAT_SHED = now.testBit 1 ∧ u.get F.THM_STAT_BAND = band ∧
      (s.flag F.THM_STAT_SHED = s.flag F.ACQ_STAT_SHED → u.flag F.ACQ_STAT_SHED = now.testBit 1) ∧
      (band ≠ s.get F.THM_STAT_BAND → (Ev.THM_BAND, 0, BitVec.ofNat 32 band) ∈ u.evt.raised ∧ u.thm.eqNext = some 0 ∧
        (s.flag F.ACQ_CFG_CALBAND = true → u.flag F.ACQ_STAT_SHED = false → s.get F.SEC_STATE_HSTATE ≠ 3 →
          u.get F.ACQ_STAT_MODE = 1 ∧ u.get F.ACQ_CALSTAT_CAUSE = 3)))) ∧
  (∀ (s : State) (ws : List TempWord), s.Quiet → (s.netStopped = true → exec (.extDiodeRead ws) s = .next s) ∧ (s.netStopped = false →
    ∃ u : State, exec (.extDiodeRead ws) s = .next u.settle ∧ s.SameStore u ∧
    (∀ w ∈ ws, w.parity = true → (Ev.XING_PAR, 0, 0) ∈ u.evt.raised) ∧
    ∀ x < 4,
      let rs := readingsOf ws fun _ => none
      let v : Option Int := (rs.getD x none).bind fun t => if t.toNat ≤ 2500 then some (t.toNat : Int) else none
      let q := (s.extQ x).feed v (s.get F.THM_EXTCFG_SUB x) 3
      let now := levels3 (!s.thm.seen.contains (8 + x)) (s.levelsAt (8 + x)) q.val (s.extLimits x)
      (s.flag F.THM_EXTCFG_EN x = false → u.extQ x = s.extQ x ∧ u.rd (F.THM_EXTRD_T.addr x) = s.rd (F.THM_EXTRD_T.addr x) ∧
        u.levelsAt (8 + x) = s.levelsAt (8 + x)) ∧
      (s.flag F.THM_EXTCFG_EN x = true → u.extQ x = q ∧ u.flag F.THM_EXTRD_VALID x = q.ok ∧
        u.get F.THM_EXTRD_T x = q.val.toNat % 4096 ∧ u.levelsAt (8 + x) = now ∧
        ∀ i < 3, now.testBit i = true → (s.levelsAt (8 + x)).testBit i = false →
          (levelEvent (8 + x) i, BitVec.ofNat 32 (8 + x), BitVec.ofNat 32 (ofSigned 32 q.val)) ∈ u.evt.raised)))

/-! ### The control period -/

/-- The boundary begins a period and launches gather frames, T_OPEN takes the inputs, the vote and the deadline decide about the
launch. Rests on: 02_control_period.md R38, 02_control_period.md R41, 02_control_period.md R42, 02_control_period.md R44,
07_control_engine.md R210, 07_control_engine.md R211, 07_control_engine.md R212, 08_mv_modulation_balancing.md R234,
08_mv_modulation_balancing.md R237, 10_lv_pwm.md R259, 13_redundancy.md R327, 13_redundancy.md R340. -/
def Obligations.ThePeriodTakesItsInputsAllocatesAndLaunches : Prop :=
  (∀ s : State, s.Quiet →
    (s.periodsRun = false → exec .periodBoundary s = .next s) ∧
    (s.periodsRun = true → ∃ u : State, exec .periodBoundary s = .next u.settle ∧ u.period = s.period + 1 ∧ u.bnd = s.ct ∧ u.ct = s.ct ∧
      u.flash = s.flash ∧ u.otp = s.otp ∧ u.img = s.img ∧
      (s.sec.holdFrames = some 0 → u.get F.SEC_STATE_HSTATE = 3) ∧
      (s.get F.SEC_STATE_HSTATE = 2 → s.sec.holdFrames = none → u.ce.withheld = false ∧ ∀ l < 24,
        (u.lane l).launched = u.gathers l ∧ (u.lane l).rx = none) ∧
      (∀ w < 16, u.get F.CMP_CFG_LATCH w = 1 → (u.get F.CMP_STAT_OUTU w = 0 → u.get F.CMP_STAT_LATU w = 0) ∧
        (u.get F.CMP_STAT_OUTL w = 0 → u.get F.CMP_STAT_LATL w = 0)))) ∧
  (∀ s : State, s.Quiet →
    let runs := s.get F.SEC_STATE_HSTATE = 2
    let fast := (List.range 24).map fun n => (s.fastQ n).seenOr (pu32of16 (s.getS F.ADC_FSUB_SUB n))
    let hk := (List.range 32).map fun h => (s.hkQ h).seenOr (pu32of16 (s.getS F.ADC_HCFG_SUB h))
    (¬ (runs ∧ s.duplex = true) → exec .standbyInputCut s = .next s) ∧
    (runs → s.duplex = true → ∃ u : State, exec .standbyInputCut s = .next u.settle ∧ s.SameStore u ∧
      ∃ x, u.ce = { s.ce with cut := some x } ∧ x.fast = fast ∧ x.hk = hk ∧ x.therm = s.get F.THM_LEVEL_LEVEL ∧
        x.net = (List.range 128).map u.mapValue) ∧
    (∀ ecc, ¬ runs → exec (.inputSnapshot ecc) s = .next s) ∧
    (∀ ecc, runs → s.bus.waiting = [] → s.net.rapHeld = [] → ∃ u : State, exec (.inputSnapshot ecc) s = .next u.settle ∧ u.ce.prev = s.ce.snap ∧ u.period = s.period ∧
      u.flash = s.flash ∧ u.otp = s.otp ∧
      (let peer := s.inStep = true ∧ s.red.takeDue = false
       let y := u.ce.snap
       (∀ x, peer → s.ce.xlIn = some x → y.fast = x.fast ∧ y.hk = x.hk ∧ y.net = x.net ∧ y.therm = x.therm ∧ y.safe = x.safe) ∧
       (peer → s.ce.xlIn = none → s.red.inHad = true → y.fast = s.ce.snap.fast.map (fun z => (z.1, false)) ∧
         y.net = s.ce.snap.net.map fun z => (z.1, false)) ∧
       (peer → s.ce.xlIn = none → s.red.inHad = false → y.hk = (List.range 32).map (fun h => (pu32of16 (s.getS F.ADC_HCFG_SUB h), false)) ∧
         y.fast = (List.range 24).map fun n => (pu32of16 (s.getS F.ADC_FSUB_SUB n), false)) ∧
       (peer → u.red.inHad = s.ce.xlIn.isSome) ∧
       (∀ x, ¬ peer → s.ce.cut = some x → y.fast = x.fast ∧ y.hk = x.hk ∧ y.net = x.net ∧ y.therm = x.therm) ∧
       (¬ peer → s.ce.cut = none → y.fast = fast ∧ y.hk = hk)) ∧
      u.ce.snap.sp = (List.range 16).map (fun n => s.getS F.CE_SP_VALUE n) ∧
      u.ce.stopBlk = (s.ce.stopBlk || (u.flag F.MVS_STAT_STOPPING && u.drivesLanes &&
        (u.ce.stopDue || u.groupsUsed.all u.belowStop) && !u.spareComing))) ∧
    (let late := s.flag F.MVS_STAT_STOPPING = true ∧ s.ce.stopBlk = false ∧ s.ce.stopDue = false ∧ s.drivesLanes = true
     (¬ late → exec .groupStopTimeout s = .next s) ∧
     (late → exec .groupStopTimeout s =
       .next (({ s with ce := { s.ce with stopBlk := !s.spareComing, stopDue := s.spareComing } } : State).pulse Ev.MV_STOPTO).settle)) ∧
    (¬ runs → exec .windowEnd s = .next s) ∧
    (runs → (∀ k : RecId, s.get F.ACQ_RCFG_MODE k ≠ 1) → ∃ u : State, exec .windowEnd s = .next u.settle ∧ u.ce.trigDue = false ∧
      (∀ k : RecId, s.rState k = 1 ∨ s.rState k = 2 → s.rVirt k ≠ [] → ∃ vals, vals.length = s.get F.ACQ_RVCH_VCNT k ∧
        (u.rcr k).vpre = lastN (s.vPeriods (s.get F.ACQ_RPRE_PRE k) + 8) ((s.rcr k).vpre ++ [(s.period, vals)])) ∧
      ∀ j < 8, (s.flag F.NET_GPCFG_EN j = false ∨ s.driving = false → u.pub j = s.pub j) ∧
        (s.flag F.NET_GPCFG_EN j = true → s.driving = true → (s.pub j).started = true ∧ u.pub j = s.pub j ∨
          ∃ vals, vals.length = s.get F.NET_GPCFG_NELEM j ∧ u.pub j = ⟨true, vals, s.get F.NET_GPTIM_TMIN j, s.netNow⟩ ∧
            u.get F.NET_GPST_STNUM j = (s.get F.NET_GPST_STNUM j + 1) % 2 ^ 32 ∧ u.get F.NET_GPSQ_SQNUM j = 0))) ∧
  (∀ (s : State) (votes : List SliceVote), s.Quiet → (votes.map (·.slice)).Nodup →
    let late := fun n => s.onTime votes n = false
    let missed := fun u : State => u.ce.withheld = true ∧ u.get F.CE_DLCNT_COUNT = min (s.get F.CE_DLCNT_COUNT + 1) 0xFFFFFFFF ∧
      (Ev.CE_DEADLINE, 0, 0) ∈ u.evt.raised
    let launches := fun u : State => u.ce.withheld = false ∧ (s.drivesLanes = true → u.ce.packed = true) ∧
      u.get F.CE_DLCNT_COUNT = s.get F.CE_DLCNT_COUNT ∧ u.evt.resignReq = none
    (s.get F.SEC_STATE_HSTATE ≠ 2 → exec (.allocatorStart votes) s = .next s) ∧
    (s.get F.SEC_STATE_HSTATE = 2 → s.ce.withheld = false → ∃ u : State, exec (.allocatorStart votes) s = .next u.settle ∧
      (∀ v ∈ votes, u.get F.CE_SLSTAT_FINISH v.slice = min 0xFFFF v.finish ∧
        u.get F.CE_SLSTAT_MAXFIN v.slice = max (s.get F.CE_SLSTAT_MAXFIN v.slice) (min 0xFFFF v.finish)) ∧
      u.ce.slackRun = (if votes.any (fun v => decide (s.img.sched.w < v.finish + s.get F.CE_SLACK_MIN))
        then min 16 (s.ce.slackRun + 1) else 0) ∧
      (s.img.per.perf = true →
        ((∃ n < 3, late n) → missed u) ∧ ((∀ n < 3, ¬ late n) → launches u) ∧
        ((∃ v ∈ votes, ∃ w ∈ votes, v.pstar ≠ w.pstar) → (Ev.CE_SDIFF, 0, 0) ∈ u.evt.raised) ∧
        (∀ v ∈ votes, v.slice.val = 0 → u.get F.CE_ARBOUT_PSTAR = v.pstar.toNat)) ∧
      (s.img.per.perf = false →
        (((List.range 3).filter (s.onTime votes)).length < 2 → missed u) ∧
        (2 ≤ ((List.range 3).filter (s.onTime votes)).length → ∀ n ∈ s.votedSlices, late n →
          (Ev.CE_SLICE_LATE, BitVec.ofNat 32 n, 0) ∈ u.evt.raised ∧ u.slState n ≠ slVoted) ∧
        ((∀ n < 3, ¬ late n) →
          let bad := votes.filter fun v => v.differs && s.votedSlices.contains v.slice.val
          let lost := s.votedSlices.length < 2 ∨ (∃ v ∈ votes, v.votersAgree = false)
          (lost → u.ce.withheld = true ∧ u.evt.resignReq = some (0x86, 0)) ∧
          (¬ lost → bad = [] → launches u ∧ ∀ n < 3, u.slState n = s.slState n) ∧
          (∀ v, ¬ lost → bad = [v] → s.votedSlices.length = 3 → launches u ∧
            (Ev.RED_MINORITY, BitVec.ofNat 32 v.slice, BitVec.ofNat 32 (v.kind.toNat * 512 + v.index.toNat)) ∈ u.evt.raised ∧
            (u.slState v.slice = slMasked ∨ u.slState v.slice = slFailed)) ∧
          (¬ lost → 2 ≤ bad.length ∨ (bad ≠ [] ∧ s.votedSlices.length = 2) →
            u.ce.withheld = true ∧ u.evt.resignReq = some (0x86, 0)))))) ∧
  (∀ s : State, s.Quiet →
    let runs := s.get F.SEC_STATE_HSTATE = 2
    let told := fun t : State => if s.duplex = true ∧ s.role = roleActive
      then { t with red := { t.red with sentReady := s.flag F.RED_STAT_PEERRDY } } else t
    (¬ runs → exec .commandLaunch s = .next s) ∧
    (runs → s.ce.withheld = true → s.whiteout = false → exec .commandLaunch s = .next (told s)) ∧
    (runs → ∃ u : State, exec .commandLaunch s = .next u.settle ∧ s.SameStore u ∧ u.red = (told s).red ∧
      u.ce = (if s.ce.withheld then s.ce else { s.ce with loopWas := s.rd R.CE_LOOPEN.base }) ∧
      (s.whiteout = true → s.drivesLanes = true → s.clkBad 4 = false → u.saf.blkSent = true) ∧
      (s.ce.withheld = false →
        u.pump.dutyNext = clampI 0 (s.get F.GDI_PUPWM_DMAX * 65536 : Nat) (s.srcNow (s.get F.GDI_PUSRC_SRC)).1 ∧
        (s.drivesLanes = true → ∀ n < 16, s.pairUse n ≠ 0 → s.flag F.LVS_CFG_HOSTCTL n = false →
          (u.chan n).shCmp = (s.pairCmp n).1) ∧
        (s.drivesLanes = true → ∀ n < 16, s.pairUse n ≠ 0 → s.flag F.LVS_CFG_HOSTCTL n = true → s.useLoop n = false →
          (u.chan n).shCmp = 0)) ∧
      ∀ n, (u.chan n).outH = (s.chan n).outH ∧ (u.chan n).outL = (s.chan n).outL))
end

