-- ==== Sys2Proof/Laws/Field.lean ====
section
/-! SUPPORT. The laws of bit fields: a field reads what was written to it, and writing one leaves the fields beside it. -/

namespace Sys2Proof.Machine

/-- The bits of a field mask. -/
theorem fieldMask_bit {hi lo i : Nat} (hi31 : hi ≤ 31) (h : lo ≤ hi) :
    (fieldMask hi lo).getLsbD i = (decide (lo ≤ i) && decide (i ≤ hi)) := by
  simp only [fieldMask, BitVec.getLsbD_ofNat, Nat.testBit_shiftLeft, Nat.testBit_two_pow_sub_one]
  rcases Nat.lt_or_ge i lo with c | c
  · simp [Nat.not_le.mpr c]
  · by_cases d : i ≤ hi
    · simp [c, d, show i < 32 by omega, show i - lo < hi - lo + 1 by omega]
    · simp [c, d, show ¬ i - lo < hi - lo + 1 by omega]

/-- The bits of a word after a field is written. -/
theorem fieldSet_bit (w : Word) {hi lo i : Nat} (v : Nat) (hi31 : hi ≤ 31) (h : lo ≤ hi) :
    (fieldSet w hi lo v).getLsbD i = if lo ≤ i ∧ i ≤ hi then v.testBit (i - lo) else w.getLsbD i := by
  simp only [fieldSet, BitVec.getLsbD_or, BitVec.getLsbD_and, BitVec.getLsbD_not, fieldMask_bit hi31 h,
    BitVec.getLsbD_shiftLeft, BitVec.getLsbD_ofNat]
  by_cases c : lo ≤ i
  · by_cases d : i ≤ hi
    · simp [c, d, show i < 32 by omega, show ¬ i < lo by omega, show i - lo < 32 by omega]
    · by_cases e : i < 32
      · simp [c, d, e]
      · simp [c, d, e, BitVec.getLsbD_of_ge _ _ (Nat.le_of_not_lt e)]
  · by_cases e : i < 32
    · simp [c, e, show i < lo by omega]
    · omega

theorem fieldGet_bit (w : Word) {hi lo i : Nat} :
    (fieldGet w hi lo).testBit i = (decide (i < hi - lo + 1) && w.getLsbD (lo + i)) := by
  rw [fieldGet, BitVec.testBit_toNat, BitVec.getLsbD_extractLsb']

theorem fieldGet_lt (w : Word) (hi lo : Nat) : fieldGet w hi lo < 2 ^ (hi - lo + 1) := by
  rw [fieldGet]; exact BitVec.isLt _

/-- A field reads what was written to it, cut to its width. -/
theorem fieldGet_fieldSet (w : Word) {hi lo : Nat} (v : Nat) (hi31 : hi ≤ 31) (h : lo ≤ hi) :
    fieldGet (fieldSet w hi lo v) hi lo = v % 2 ^ (hi - lo + 1) := by
  apply Nat.eq_of_testBit_eq
  intro i
  rw [fieldGet_bit, fieldSet_bit w v hi31 h, Nat.testBit_mod_two_pow]
  by_cases c : i < hi - lo + 1
  · simp [c, show lo + i ≤ hi by omega]
  · simp [c]

/-- Writing a field leaves a field that shares no bit with it. -/
theorem fieldGet_fieldSet_ne (w : Word) {hi lo hi' lo' : Nat} (v : Nat) (hi31 : hi ≤ 31) (h : lo ≤ hi) (h' : lo' ≤ hi')
    (d : hi < lo' ∨ hi' < lo) : fieldGet (fieldSet w hi lo v) hi' lo' = fieldGet w hi' lo' := by
  apply Nat.eq_of_testBit_eq
  intro i
  rw [fieldGet_bit, fieldGet_bit, fieldSet_bit w v hi31 h]
  by_cases c : i < hi' - lo' + 1
  · have : ¬ (lo ≤ lo' + i ∧ lo' + i ≤ hi) := by omega
    simp [c, this]
  · simp [c]

/-- Writing the same field twice leaves the second value. -/
theorem fieldSet_fieldSet (w : Word) {hi lo : Nat} (v v' : Nat) (hi31 : hi ≤ 31) (h : lo ≤ hi) :
    fieldSet (fieldSet w hi lo v) hi lo v' = fieldSet w hi lo v' := by
  apply BitVec.eq_of_getLsbD_eq
  intro i _
  rw [fieldSet_bit _ _ hi31 h, fieldSet_bit _ _ hi31 h, fieldSet_bit _ _ hi31 h]
  split <;> rfl

end Sys2Proof.Machine
end

