-- ==== Sys2Proof/Laws/Sparse.lean ====
section
/-! SUPPORT. The laws of sparse maps: a read after a write, and that every operation keeps the canonical form. -/

namespace Sys2Proof.Machine.Sparse

variable {α : Type}

/-! ### A read after a write -/

theorem get_ins_same (d : Nat → α) (l : Sparse α) (k : Nat) (v : α) : get d (ins l k v) k = v := by
  induction l with
  | nil => simp [ins, get]
  | cons e l ih =>
    obtain ⟨j, w⟩ := e
    simp only [ins]
    split
    · simp [get]
    · split
      · simp [get]
      · have : ¬ j = k := by omega
        simp [get, this, ih]

theorem get_ins_ne (d : Nat → α) (l : Sparse α) {k j : Nat} (v : α) (h : j ≠ k) : get d (ins l k v) j = get d l j := by
  induction l with
  | nil => simp [ins, get, Ne.symm h]
  | cons e l ih =>
    obtain ⟨i, w⟩ := e
    simp only [ins]
    split
    · simp [get, Ne.symm h]
    · split
      · rename_i hk
        subst hk
        simp [get, Ne.symm h]
      · simp [get, ih]

theorem get_erase_ne (d : Nat → α) (l : Sparse α) {k j : Nat} (h : j ≠ k) : get d (erase l k) j = get d l j := by
  induction l with
  | nil => rfl
  | cons e l ih =>
    obtain ⟨i, w⟩ := e
    simp only [erase, List.filter_cons] at ih ⊢
    by_cases hi : i = k
    · subst hi
      simp [get, Ne.symm h, ih]
    · simp [get, hi, ih]

theorem get_erase_same (d : Nat → α) (l : Sparse α) (k : Nat) : get d (erase l k) k = d k := by
  induction l with
  | nil => rfl
  | cons e l ih =>
    obtain ⟨i, w⟩ := e
    simp only [erase, List.filter_cons] at ih ⊢
    by_cases hi : i = k
    · subst hi
      simp [ih]
    · simp [get, hi, ih]

variable [DecidableEq α]

@[simp] theorem get_set_same (d : Nat → α) (l : Sparse α) (k : Nat) (v : α) : get d (set d l k v) k = v := by
  unfold set
  split
  · next h => rw [get_erase_same, h]
  · exact get_ins_same d l k v

theorem get_set_ne (d : Nat → α) (l : Sparse α) {k j : Nat} (v : α) (h : j ≠ k) : get d (set d l k v) j = get d l j := by
  unfold set
  split
  · exact get_erase_ne d l h
  · exact get_ins_ne d l v h

theorem get_set (d : Nat → α) (l : Sparse α) (k j : Nat) (v : α) :
    get d (set d l k v) j = if j = k then v else get d l j := by
  split
  · next h => rw [h, get_set_same]
  · next h => exact get_set_ne d l v h

/-! ### The canonical form -/

theorem wfFrom_le (d : Nat → α) {m n : Nat} (h : m ≤ n) {l : Sparse α} (w : wfFrom d n l = true) :
    wfFrom d m l = true := by
  cases l with
  | nil => rfl
  | cons e l =>
    simp only [wfFrom, Bool.and_eq_true, decide_eq_true_eq] at w ⊢
    exact ⟨⟨Nat.le_trans h w.1.1, w.1.2⟩, w.2⟩

/-- Dropping entries keeps the canonical form. -/
theorem wfFrom_filter (d : Nat → α) (p : Nat × α → Bool) {n : Nat} {l : Sparse α} (w : wfFrom d n l = true) :
    wfFrom d n (l.filter p) = true := by
  induction l generalizing n with
  | nil => rfl
  | cons e l ih =>
    obtain ⟨k, v⟩ := e
    simp only [wfFrom, Bool.and_eq_true, decide_eq_true_eq] at w
    rw [List.filter_cons]
    split
    · simp only [wfFrom, Bool.and_eq_true, decide_eq_true_eq]
      exact ⟨w.1, ih w.2⟩
    · exact ih (wfFrom_le d (Nat.le_succ_of_le w.1.1) w.2)

theorem wfFrom_ins (d : Nat → α) {n k : Nat} {v : α} (hn : n ≤ k) (hv : v ≠ d k) {l : Sparse α}
    (w : wfFrom d n l = true) : wfFrom d n (ins l k v) = true := by
  induction l generalizing n with
  | nil => simp [ins, wfFrom, hn, hv]
  | cons e l ih =>
    obtain ⟨j, x⟩ := e
    simp only [wfFrom, Bool.and_eq_true, decide_eq_true_eq] at w
    simp only [ins]
    split
    · next h =>
      simp only [wfFrom, Bool.and_eq_true, decide_eq_true_eq]
      exact ⟨⟨hn, hv⟩, ⟨h, w.1.2⟩, w.2⟩
    · split
      · next h =>
        subst h
        simp only [wfFrom, Bool.and_eq_true, decide_eq_true_eq]
        exact ⟨⟨hn, hv⟩, w.2⟩
      · simp only [wfFrom, Bool.and_eq_true, decide_eq_true_eq]
        exact ⟨w.1, ih (by omega) w.2⟩

theorem wf_erase (d : Nat → α) {l : Sparse α} (k : Nat) (w : wf d l = true) : wf d (erase l k) = true :=
  wfFrom_filter d _ w

theorem wf_keep (d : Nat → α) (p : Nat → Bool) {l : Sparse α} (w : wf d l = true) : wf d (keep p l) = true :=
  wfFrom_filter d _ w

theorem wf_set (d : Nat → α) {l : Sparse α} (k : Nat) (v : α) (w : wf d l = true) : wf d (set d l k v) = true := by
  unfold set
  split
  · exact wf_erase d k w
  · next h => exact wfFrom_ins d (Nat.zero_le k) h w

theorem wf_setRun (d : Nat → α) (stride : Nat) {l : Sparse α} (k : Nat) (vs : List α) (w : wf d l = true) :
    wf d (setRun d stride l k vs) = true := by
  induction vs generalizing l k with
  | nil => exact w
  | cons v vs ih => exact ih (k + stride) (wf_set d k v w)

theorem wf_nil (d : Nat → α) : wf d [] = true := rfl

/-- Two maps in canonical form that read alike are equal: equal memories are equal data. -/
theorem wfFrom_ext (d : Nat → α) {n : Nat} {l m : Sparse α} (hl : wfFrom d n l = true) (hm : wfFrom d n m = true)
    (h : ∀ k, n ≤ k → get d l k = get d m k) : l = m := by
  have low : ∀ {n k : Nat} {l : Sparse α}, wfFrom d n l = true → k < n → get d l k = d k := by
    intro n k l
    induction l generalizing n with
    | nil => intros; rfl
    | cons e l ih =>
      intro w hk
      simp only [wfFrom, Bool.and_eq_true, decide_eq_true_eq] at w
      have : ¬ e.1 = k := by omega
      simp only [get, this, if_false]
      exact ih w.2 (by omega)
  induction l generalizing n m with
  | nil =>
    cases m with
    | nil => rfl
    | cons e m =>
      simp only [wfFrom, Bool.and_eq_true, decide_eq_true_eq] at hm
      have := h e.1 hm.1.1
      simp [get] at this
      exact absurd this.symm hm.1.2
  | cons e l ih =>
    obtain ⟨j, v⟩ := e
    have hl' := hl
    simp only [wfFrom, Bool.and_eq_true, decide_eq_true_eq] at hl
    cases m with
    | nil =>
      have := h j hl.1.1
      simp [get] at this
      exact absurd this hl.1.2
    | cons f m =>
      obtain ⟨i, w⟩ := f
      have hm' := hm
      simp only [wfFrom, Bool.and_eq_true, decide_eq_true_eq] at hm
      have hij : j = i := by
        rcases Nat.lt_trichotomy j i with c | c | c
        · have e1 := h j hl.1.1
          have e2 : get d ((i, w) :: m) j = d j := by
            have : ¬ i = j := by omega
            simp only [get, this, if_false]
            exact low hm.2 (by omega)
          rw [e2] at e1
          simp [get] at e1
          exact absurd e1 hl.1.2
        · exact c
        · have e1 := h i hm.1.1
          have e2 : get d ((j, v) :: l) i = d i := by
            have : ¬ j = i := by omega
            simp only [get, this, if_false]
            exact low hl.2 (by omega)
          rw [e2] at e1
          simp [get] at e1
          exact absurd e1.symm hm.1.2
      subst hij
      have hv : v = w := by
        have := h j hl.1.1
        simpa [get] using this
      subst hv
      congr 1
      refine ih hl.2 hm.2 fun k hk => ?_
      have := h k (by omega)
      have hjk : ¬ j = k := by omega
      simpa [get, hjk] using this

end Sys2Proof.Machine.Sparse
end

