-- ==== Sys2Proof/Laws/Register.lean ====
section
/-! SUPPORT. The laws of the register file: what a read shows after a write, field by field. -/

namespace Sys2Proof.Machine

/-- A field lies within its word. -/
abbrev Fld.InWord (f : Fld) : Prop := f.lo ≤ f.hi ∧ f.hi ≤ 31

theorem State.rd_wr (s : State) (a b : Nat) (v : Word) : (s.wr a v).rd b = if b = a then v else s.rd b :=
  Sparse.get_set _ _ _ _ _

@[simp] theorem State.rd_wr_same (s : State) (a : Nat) (v : Word) : (s.wr a v).rd a = v := by simp [State.rd_wr]

theorem State.rd_wr_ne (s : State) {a b : Nat} (v : Word) (h : b ≠ a) : (s.wr a v).rd b = s.rd b := by simp [State.rd_wr, h]

/-- Writing a field leaves every other register. -/
theorem State.rd_put_ne (s : State) (f : Fld) (v : Nat) {i j b : Nat} (h : b ≠ f.addr i j) : (s.put f v i j).rd b = s.rd b :=
  State.rd_wr_ne s _ h

/-- A field reads what was written to it, cut to its width. -/
theorem State.get_put_same (s : State) (f : Fld) (v i j : Nat) (h : f.InWord) :
    (s.put f v i j).get f i j = v % 2 ^ (f.hi - f.lo + 1) := by
  simp only [State.get, State.put, State.rd_wr_same]
  exact fieldGet_fieldSet _ _ h.2 h.1

/-- Writing a field leaves a field of another register. -/
theorem State.get_put_addr (s : State) (f g : Fld) (v i j k l : Nat) (h : g.addr k l ≠ f.addr i j) :
    (s.put f v i j).get g k l = s.get g k l := by
  simp only [State.get]
  rw [State.rd_put_ne s f v h]

/-- Writing a field leaves the fields beside it in its register. -/
theorem State.get_put_bits (s : State) (f g : Fld) (v i j k l : Nat) (hf : f.InWord) (hg : g.InWord)
    (h : f.hi < g.lo ∨ g.hi < f.lo) : (s.put f v i j).get g k l = s.get g k l := by
  by_cases e : g.addr k l = f.addr i j
  · simp only [State.get, State.put, e, State.rd_wr_same]
    exact fieldGet_fieldSet_ne _ _ hf.2 hf.1 hg.1 h
  · exact State.get_put_addr s f g v i j k l e

theorem State.get_lt (s : State) (f : Fld) (i j : Nat) : s.get f i j < 2 ^ (f.hi - f.lo + 1) := fieldGet_lt _ _ _

theorem Evt.rd_wr (e : Evt) (a b : Nat) (v : Word) : (e.wr a v).rd b = if b = a then v else e.rd b :=
  Sparse.get_set _ _ _ _ _

theorem Evt.get_put_same (e : Evt) (f : Fld) (v i : Nat) (h : f.InWord) :
    (e.put f v i).get f i = v % 2 ^ (f.hi - f.lo + 1) := by
  simp only [Evt.get, Evt.put, Evt.rd_wr, if_true]
  exact fieldGet_fieldSet _ _ h.2 h.1

theorem Evt.get_put_addr (e : Evt) (f g : Fld) (v i k : Nat) (h : g.addr k ≠ f.addr i) : (e.put f v i).get g k = e.get g k := by
  simp only [Evt.get, Evt.put, Evt.rd_wr, h, if_false]

/-- Only the register file differs after a field is written. -/
theorem State.put_eq (s : State) (f : Fld) (v i j : Nat) : s.put f v i j = { s with regs := (s.put f v i j).regs } := rfl

end Sys2Proof.Machine
end

