-- ==== Sys2Proof/Laws/State.lean ====
section
/-! SUPPORT. One lemma per field per update: what each shared update of the state leaves. -/

namespace Sys2Proof.Machine

variable (s : State)

@[simp] theorem State.wr_evt (a : Nat) (v : Word) : (s.wr a v).evt = s.evt := rfl
@[simp] theorem State.wr_bus (a : Nat) (v : Word) : (s.wr a v).bus = s.bus := rfl
@[simp] theorem State.wr_otp (a : Nat) (v : Word) : (s.wr a v).otp = s.otp := rfl
@[simp] theorem State.wr_nv (a : Nat) (v : Word) : (s.wr a v).nv = s.nv := rfl
@[simp] theorem State.wr_aon (a : Nat) (v : Word) : (s.wr a v).aon = s.aon := rfl
@[simp] theorem State.wr_pins (a : Nat) (v : Word) : (s.wr a v).pins = s.pins := rfl
@[simp] theorem State.wr_boot (a : Nat) (v : Word) : (s.wr a v).boot = s.boot := rfl
@[simp] theorem State.wr_sec (a : Nat) (v : Word) : (s.wr a v).sec = s.sec := rfl
@[simp] theorem State.wr_img (a : Nat) (v : Word) : (s.wr a v).img = s.img := rfl
@[simp] theorem State.wr_lanes (a : Nat) (v : Word) : (s.wr a v).lanes = s.lanes := rfl
@[simp] theorem State.wr_cells (a : Nat) (v : Word) : (s.wr a v).cells = s.cells := rfl
@[simp] theorem State.wr_groups (a : Nat) (v : Word) : (s.wr a v).groups = s.groups := rfl
@[simp] theorem State.wr_budget (a : Nat) (v : Word) : (s.wr a v).budget = s.budget := rfl
@[simp] theorem State.wr_ce (a : Nat) (v : Word) : (s.wr a v).ce = s.ce := rfl
@[simp] theorem State.wr_chans (a : Nat) (v : Word) : (s.wr a v).chans = s.chans := rfl
@[simp] theorem State.wr_gdi (a : Nat) (v : Word) : (s.wr a v).gdi = s.gdi := rfl
@[simp] theorem State.wr_pump (a : Nat) (v : Word) : (s.wr a v).pump = s.pump := rfl
@[simp] theorem State.wr_red (a : Nat) (v : Word) : (s.wr a v).red = s.red := rfl
@[simp] theorem State.wr_saf (a : Nat) (v : Word) : (s.wr a v).saf = s.saf := rfl
@[simp] theorem State.wr_time (a : Nat) (v : Word) : (s.wr a v).time = s.time := rfl
@[simp] theorem State.wr_adc (a : Nat) (v : Word) : (s.wr a v).adc = s.adc := rfl
@[simp] theorem State.wr_net (a : Nat) (v : Word) : (s.wr a v).net = s.net := rfl
@[simp] theorem State.wr_acq (a : Nat) (v : Word) : (s.wr a v).acq = s.acq := rfl
@[simp] theorem State.wr_clk (a : Nat) (v : Word) : (s.wr a v).clk = s.clk := rfl
@[simp] theorem State.wr_thm (a : Nat) (v : Word) : (s.wr a v).thm = s.thm := rfl
@[simp] theorem State.wr_mram (a : Nat) (v : Word) : (s.wr a v).mram = s.mram := rfl
@[simp] theorem State.wr_flash (a : Nat) (v : Word) : (s.wr a v).flash = s.flash := rfl
@[simp] theorem State.wr_dram (a : Nat) (v : Word) : (s.wr a v).dram = s.dram := rfl
@[simp] theorem State.wr_ct (a : Nat) (v : Word) : (s.wr a v).ct = s.ct := rfl
@[simp] theorem State.wr_bnd (a : Nat) (v : Word) : (s.wr a v).bnd = s.bnd := rfl
@[simp] theorem State.wr_period (a : Nat) (v : Word) : (s.wr a v).period = s.period := rfl
@[simp] theorem State.wr_free (a : Nat) (v : Word) : (s.wr a v).free = s.free := rfl
@[simp] theorem State.wr_pending (a : Nat) (v : Word) : (s.wr a v).pending = s.pending := rfl
@[simp] theorem State.wr_ctRegs (a : Nat) (v : Word) : (s.wr a v).ctRegs = s.ctRegs := rfl
@[simp] theorem State.wr_ctEvt (a : Nat) (v : Word) : (s.wr a v).ctEvt = s.ctEvt := rfl
@[simp] theorem State.wr_lane (a : Nat) (v : Word) (z : Nat) : (s.wr a v).lane z = s.lane z := rfl
@[simp] theorem State.wr_cell (a : Nat) (v : Word) (z : Nat) : (s.wr a v).cell z = s.cell z := rfl
@[simp] theorem State.wr_chan (a : Nat) (v : Word) (z : Nat) : (s.wr a v).chan z = s.chan z := rfl

@[simp] theorem State.put_evt (f : Fld) (v i j : Nat) : (s.put f v i j).evt = s.evt := rfl
@[simp] theorem State.put_bus (f : Fld) (v i j : Nat) : (s.put f v i j).bus = s.bus := rfl
@[simp] theorem State.put_otp (f : Fld) (v i j : Nat) : (s.put f v i j).otp = s.otp := rfl
@[simp] theorem State.put_nv (f : Fld) (v i j : Nat) : (s.put f v i j).nv = s.nv := rfl
@[simp] theorem State.put_aon (f : Fld) (v i j : Nat) : (s.put f v i j).aon = s.aon := rfl
@[simp] theorem State.put_pins (f : Fld) (v i j : Nat) : (s.put f v i j).pins = s.pins := rfl
@[simp] theorem State.put_boot (f : Fld) (v i j : Nat) : (s.put f v i j).boot = s.boot := rfl
@[simp] theorem State.put_sec (f : Fld) (v i j : Nat) : (s.put f v i j).sec = s.sec := rfl
@[simp] theorem State.put_img (f : Fld) (v i j : Nat) : (s.put f v i j).img = s.img := rfl
@[simp] theorem State.put_lanes (f : Fld) (v i j : Nat) : (s.put f v i j).lanes = s.lanes := rfl
@[simp] theorem State.put_cells (f : Fld) (v i j : Nat) : (s.put f v i j).cells = s.cells := rfl
@[simp] theorem State.put_groups (f : Fld) (v i j : Nat) : (s.put f v i j).groups = s.groups := rfl
@[simp] theorem State.put_budget (f : Fld) (v i j : Nat) : (s.put f v i j).budget = s.budget := rfl
@[simp] theorem State.put_ce (f : Fld) (v i j : Nat) : (s.put f v i j).ce = s.ce := rfl
@[simp] theorem State.put_chans (f : Fld) (v i j : Nat) : (s.put f v i j).chans = s.chans := rfl
@[simp] theorem State.put_gdi (f : Fld) (v i j : Nat) : (s.put f v i j).gdi = s.gdi := rfl
@[simp] theorem State.put_pump (f : Fld) (v i j : Nat) : (s.put f v i j).pump = s.pump := rfl
@[simp] theorem State.put_red (f : Fld) (v i j : Nat) : (s.put f v i j).red = s.red := rfl
@[simp] theorem State.put_saf (f : Fld) (v i j : Nat) : (s.put f v i j).saf = s.saf := rfl
@[simp] theorem State.put_time (f : Fld) (v i j : Nat) : (s.put f v i j).time = s.time := rfl
@[simp] theorem State.put_adc (f : Fld) (v i j : Nat) : (s.put f v i j).adc = s.adc := rfl
@[simp] theorem State.put_net (f : Fld) (v i j : Nat) : (s.put f v i j).net = s.net := rfl
@[simp] theorem State.put_acq (f : Fld) (v i j : Nat) : (s.put f v i j).acq = s.acq := rfl
@[simp] theorem State.put_clk (f : Fld) (v i j : Nat) : (s.put f v i j).clk = s.clk := rfl
@[simp] theorem State.put_thm (f : Fld) (v i j : Nat) : (s.put f v i j).thm = s.thm := rfl
@[simp] theorem State.put_mram (f : Fld) (v i j : Nat) : (s.put f v i j).mram = s.mram := rfl
@[simp] theorem State.put_flash (f : Fld) (v i j : Nat) : (s.put f v i j).flash = s.flash := rfl
@[simp] theorem State.put_dram (f : Fld) (v i j : Nat) : (s.put f v i j).dram = s.dram := rfl
@[simp] theorem State.put_ct (f : Fld) (v i j : Nat) : (s.put f v i j).ct = s.ct := rfl
@[simp] theorem State.put_bnd (f : Fld) (v i j : Nat) : (s.put f v i j).bnd = s.bnd := rfl
@[simp] theorem State.put_period (f : Fld) (v i j : Nat) : (s.put f v i j).period = s.period := rfl
@[simp] theorem State.put_free (f : Fld) (v i j : Nat) : (s.put f v i j).free = s.free := rfl
@[simp] theorem State.put_pending (f : Fld) (v i j : Nat) : (s.put f v i j).pending = s.pending := rfl
@[simp] theorem State.put_ctRegs (f : Fld) (v i j : Nat) : (s.put f v i j).ctRegs = s.ctRegs := rfl
@[simp] theorem State.put_ctEvt (f : Fld) (v i j : Nat) : (s.put f v i j).ctEvt = s.ctEvt := rfl
@[simp] theorem State.put_lane (f : Fld) (v i j : Nat) (z : Nat) : (s.put f v i j).lane z = s.lane z := rfl
@[simp] theorem State.put_cell (f : Fld) (v i j : Nat) (z : Nat) : (s.put f v i j).cell z = s.cell z := rfl
@[simp] theorem State.put_chan (f : Fld) (v i j : Nat) (z : Nat) : (s.put f v i j).chan z = s.chan z := rfl

@[simp] theorem State.putB_evt (f : Fld) (b : Bool) (i j : Nat) : (s.putB f b i j).evt = s.evt := rfl
@[simp] theorem State.putB_bus (f : Fld) (b : Bool) (i j : Nat) : (s.putB f b i j).bus = s.bus := rfl
@[simp] theorem State.putB_otp (f : Fld) (b : Bool) (i j : Nat) : (s.putB f b i j).otp = s.otp := rfl
@[simp] theorem State.putB_nv (f : Fld) (b : Bool) (i j : Nat) : (s.putB f b i j).nv = s.nv := rfl
@[simp] theorem State.putB_aon (f : Fld) (b : Bool) (i j : Nat) : (s.putB f b i j).aon = s.aon := rfl
@[simp] theorem State.putB_pins (f : Fld) (b : Bool) (i j : Nat) : (s.putB f b i j).pins = s.pins := rfl
@[simp] theorem State.putB_boot (f : Fld) (b : Bool) (i j : Nat) : (s.putB f b i j).boot = s.boot := rfl
@[simp] theorem State.putB_sec (f : Fld) (b : Bool) (i j : Nat) : (s.putB f b i j).sec = s.sec := rfl
@[simp] theorem State.putB_img (f : Fld) (b : Bool) (i j : Nat) : (s.putB f b i j).img = s.img := rfl
@[simp] theorem State.putB_lanes (f : Fld) (b : Bool) (i j : Nat) : (s.putB f b i j).lanes = s.lanes := rfl
@[simp] theorem State.putB_cells (f : Fld) (b : Bool) (i j : Nat) : (s.putB f b i j).cells = s.cells := rfl
@[simp] theorem State.putB_groups (f : Fld) (b : Bool) (i j : Nat) : (s.putB f b i j).groups = s.groups := rfl
@[simp] theorem State.putB_budget (f : Fld) (b : Bool) (i j : Nat) : (s.putB f b i j).budget = s.budget := rfl
@[simp] theorem State.putB_ce (f : Fld) (b : Bool) (i j : Nat) : (s.putB f b i j).ce = s.ce := rfl
@[simp] theorem State.putB_chans (f : Fld) (b : Bool) (i j : Nat) : (s.putB f b i j).chans = s.chans := rfl
@[simp] theorem State.putB_gdi (f : Fld) (b : Bool) (i j : Nat) : (s.putB f b i j).gdi = s.gdi := rfl
@[simp] theorem State.putB_pump (f : Fld) (b : Bool) (i j : Nat) : (s.putB f b i j).pump = s.pump := rfl
@[simp] theorem State.putB_red (f : Fld) (b : Bool) (i j : Nat) : (s.putB f b i j).red = s.red := rfl
@[simp] theorem State.putB_saf (f : Fld) (b : Bool) (i j : Nat) : (s.putB f b i j).saf = s.saf := rfl
@[simp] theorem State.putB_time (f : Fld) (b : Bool) (i j : Nat) : (s.putB f b i j).time = s.time := rfl
@[simp] theorem State.putB_adc (f : Fld) (b : Bool) (i j : Nat) : (s.putB f b i j).adc = s.adc := rfl
@[simp] theorem State.putB_net (f : Fld) (b : Bool) (i j : Nat) : (s.putB f b i j).net = s.net := rfl
@[simp] theorem State.putB_acq (f : Fld) (b : Bool) (i j : Nat) : (s.putB f b i j).acq = s.acq := rfl
@[simp] theorem State.putB_clk (f : Fld) (b : Bool) (i j : Nat) : (s.putB f b i j).clk = s.clk := rfl
@[simp] theorem State.putB_thm (f : Fld) (b : Bool) (i j : Nat) : (s.putB f b i j).thm = s.thm := rfl
@[simp] theorem State.putB_mram (f : Fld) (b : Bool) (i j : Nat) : (s.putB f b i j).mram = s.mram := rfl
@[simp] theorem State.putB_flash (f : Fld) (b : Bool) (i j : Nat) : (s.putB f b i j).flash = s.flash := rfl
@[simp] theorem State.putB_dram (f : Fld) (b : Bool) (i j : Nat) : (s.putB f b i j).dram = s.dram := rfl
@[simp] theorem State.putB_ct (f : Fld) (b : Bool) (i j : Nat) : (s.putB f b i j).ct = s.ct := rfl
@[simp] theorem State.putB_bnd (f : Fld) (b : Bool) (i j : Nat) : (s.putB f b i j).bnd = s.bnd := rfl
@[simp] theorem State.putB_period (f : Fld) (b : Bool) (i j : Nat) : (s.putB f b i j).period = s.period := rfl
@[simp] theorem State.putB_free (f : Fld) (b : Bool) (i j : Nat) : (s.putB f b i j).free = s.free := rfl
@[simp] theorem State.putB_pending (f : Fld) (b : Bool) (i j : Nat) : (s.putB f b i j).pending = s.pending := rfl
@[simp] theorem State.putB_ctRegs (f : Fld) (b : Bool) (i j : Nat) : (s.putB f b i j).ctRegs = s.ctRegs := rfl
@[simp] theorem State.putB_ctEvt (f : Fld) (b : Bool) (i j : Nat) : (s.putB f b i j).ctEvt = s.ctEvt := rfl
@[simp] theorem State.putB_lane (f : Fld) (b : Bool) (i j : Nat) (z : Nat) : (s.putB f b i j).lane z = s.lane z := rfl
@[simp] theorem State.putB_cell (f : Fld) (b : Bool) (i j : Nat) (z : Nat) : (s.putB f b i j).cell z = s.cell z := rfl
@[simp] theorem State.putB_chan (f : Fld) (b : Bool) (i j : Nat) (z : Nat) : (s.putB f b i j).chan z = s.chan z := rfl

@[simp] theorem State.putS_evt (f : Fld) (v : Int) (i j : Nat) : (s.putS f v i j).evt = s.evt := rfl
@[simp] theorem State.putS_bus (f : Fld) (v : Int) (i j : Nat) : (s.putS f v i j).bus = s.bus := rfl
@[simp] theorem State.putS_otp (f : Fld) (v : Int) (i j : Nat) : (s.putS f v i j).otp = s.otp := rfl
@[simp] theorem State.putS_nv (f : Fld) (v : Int) (i j : Nat) : (s.putS f v i j).nv = s.nv := rfl
@[simp] theorem State.putS_aon (f : Fld) (v : Int) (i j : Nat) : (s.putS f v i j).aon = s.aon := rfl
@[simp] theorem State.putS_pins (f : Fld) (v : Int) (i j : Nat) : (s.putS f v i j).pins = s.pins := rfl
@[simp] theorem State.putS_boot (f : Fld) (v : Int) (i j : Nat) : (s.putS f v i j).boot = s.boot := rfl
@[simp] theorem State.putS_sec (f : Fld) (v : Int) (i j : Nat) : (s.putS f v i j).sec = s.sec := rfl
@[simp] theorem State.putS_img (f : Fld) (v : Int) (i j : Nat) : (s.putS f v i j).img = s.img := rfl
@[simp] theorem State.putS_lanes (f : Fld) (v : Int) (i j : Nat) : (s.putS f v i j).lanes = s.lanes := rfl
@[simp] theorem State.putS_cells (f : Fld) (v : Int) (i j : Nat) : (s.putS f v i j).cells = s.cells := rfl
@[simp] theorem State.putS_groups (f : Fld) (v : Int) (i j : Nat) : (s.putS f v i j).groups = s.groups := rfl
@[simp] theorem State.putS_budget (f : Fld) (v : Int) (i j : Nat) : (s.putS f v i j).budget = s.budget := rfl
@[simp] theorem State.putS_ce (f : Fld) (v : Int) (i j : Nat) : (s.putS f v i j).ce = s.ce := rfl
@[simp] theorem State.putS_chans (f : Fld) (v : Int) (i j : Nat) : (s.putS f v i j).chans = s.chans := rfl
@[simp] theorem State.putS_gdi (f : Fld) (v : Int) (i j : Nat) : (s.putS f v i j).gdi = s.gdi := rfl
@[simp] theorem State.putS_pump (f : Fld) (v : Int) (i j : Nat) : (s.putS f v i j).pump = s.pump := rfl
@[simp] theorem State.putS_red (f : Fld) (v : Int) (i j : Nat) : (s.putS f v i j).red = s.red := rfl
@[simp] theorem State.putS_saf (f : Fld) (v : Int) (i j : Nat) : (s.putS f v i j).saf = s.saf := rfl
@[simp] theorem State.putS_time (f : Fld) (v : Int) (i j : Nat) : (s.putS f v i j).time = s.time := rfl
@[simp] theorem State.putS_adc (f : Fld) (v : Int) (i j : Nat) : (s.putS f v i j).adc = s.adc := rfl
@[simp] theorem State.putS_net (f : Fld) (v : Int) (i j : Nat) : (s.putS f v i j).net = s.net := rfl
@[simp] theorem State.putS_acq (f : Fld) (v : Int) (i j : Nat) : (s.putS f v i j).acq = s.acq := rfl
@[simp] theorem State.putS_clk (f : Fld) (v : Int) (i j : Nat) : (s.putS f v i j).clk = s.clk := rfl
@[simp] theorem State.putS_thm (f : Fld) (v : Int) (i j : Nat) : (s.putS f v i j).thm = s.thm := rfl
@[simp] theorem State.putS_mram (f : Fld) (v : Int) (i j : Nat) : (s.putS f v i j).mram = s.mram := rfl
@[simp] theorem State.putS_flash (f : Fld) (v : Int) (i j : Nat) : (s.putS f v i j).flash = s.flash := rfl
@[simp] theorem State.putS_dram (f : Fld) (v : Int) (i j : Nat) : (s.putS f v i j).dram = s.dram := rfl
@[simp] theorem State.putS_ct (f : Fld) (v : Int) (i j : Nat) : (s.putS f v i j).ct = s.ct := rfl
@[simp] theorem State.putS_bnd (f : Fld) (v : Int) (i j : Nat) : (s.putS f v i j).bnd = s.bnd := rfl
@[simp] theorem State.putS_period (f : Fld) (v : Int) (i j : Nat) : (s.putS f v i j).period = s.period := rfl
@[simp] theorem State.putS_free (f : Fld) (v : Int) (i j : Nat) : (s.putS f v i j).free = s.free := rfl
@[simp] theorem State.putS_pending (f : Fld) (v : Int) (i j : Nat) : (s.putS f v i j).pending = s.pending := rfl
@[simp] theorem State.putS_ctRegs (f : Fld) (v : Int) (i j : Nat) : (s.putS f v i j).ctRegs = s.ctRegs := rfl
@[simp] theorem State.putS_ctEvt (f : Fld) (v : Int) (i j : Nat) : (s.putS f v i j).ctEvt = s.ctEvt := rfl
@[simp] theorem State.putS_lane (f : Fld) (v : Int) (i j : Nat) (z : Nat) : (s.putS f v i j).lane z = s.lane z := rfl
@[simp] theorem State.putS_cell (f : Fld) (v : Int) (i j : Nat) (z : Nat) : (s.putS f v i j).cell z = s.cell z := rfl
@[simp] theorem State.putS_chan (f : Fld) (v : Int) (i j : Nat) (z : Nat) : (s.putS f v i j).chan z = s.chan z := rfl

@[simp] theorem State.putBit_evt (f : Fld) (b : Nat) (v : Bool) (i j : Nat) : (s.putBit f b v i j).evt = s.evt := rfl
@[simp] theorem State.putBit_bus (f : Fld) (b : Nat) (v : Bool) (i j : Nat) : (s.putBit f b v i j).bus = s.bus := rfl
@[simp] theorem State.putBit_otp (f : Fld) (b : Nat) (v : Bool) (i j : Nat) : (s.putBit f b v i j).otp = s.otp := rfl
@[simp] theorem State.putBit_nv (f : Fld) (b : Nat) (v : Bool) (i j : Nat) : (s.putBit f b v i j).nv = s.nv := rfl
@[simp] theorem State.putBit_aon (f : Fld) (b : Nat) (v : Bool) (i j : Nat) : (s.putBit f b v i j).aon = s.aon := rfl
@[simp] theorem State.putBit_pins (f : Fld) (b : Nat) (v : Bool) (i j : Nat) : (s.putBit f b v i j).pins = s.pins := rfl
@[simp] theorem State.putBit_boot (f : Fld) (b : Nat) (v : Bool) (i j : Nat) : (s.putBit f b v i j).boot = s.boot := rfl
@[simp] theorem State.putBit_sec (f : Fld) (b : Nat) (v : Bool) (i j : Nat) : (s.putBit f b v i j).sec = s.sec := rfl
@[simp] theorem State.putBit_img (f : Fld) (b : Nat) (v : Bool) (i j : Nat) : (s.putBit f b v i j).img = s.img := rfl
@[simp] theorem State.putBit_lanes (f : Fld) (b : Nat) (v : Bool) (i j : Nat) : (s.putBit f b v i j).lanes = s.lanes := rfl
@[simp] theorem State.putBit_cells (f : Fld) (b : Nat) (v : Bool) (i j : Nat) : (s.putBit f b v i j).cells = s.cells := rfl
@[simp] theorem State.putBit_groups (f : Fld) (b : Nat) (v : Bool) (i j : Nat) : (s.putBit f b v i j).groups = s.groups := rfl
@[simp] theorem State.putBit_budget (f : Fld) (b : Nat) (v : Bool) (i j : Nat) : (s.putBit f b v i j).budget = s.budget := rfl
@[simp] theorem State.putBit_ce (f : Fld) (b : Nat) (v : Bool) (i j : Nat) : (s.putBit f b v i j).ce = s.ce := rfl
@[simp] theorem State.putBit_chans (f : Fld) (b : Nat) (v : Bool) (i j : Nat) : (s.putBit f b v i j).chans = s.chans := rfl
@[simp] theorem State.putBit_gdi (f : Fld) (b : Nat) (v : Bool) (i j : Nat) : (s.putBit f b v i j).gdi = s.gdi := rfl
@[simp] theorem State.putBit_pump (f : Fld) (b : Nat) (v : Bool) (i j : Nat) : (s.putBit f b v i j).pump = s.pump := rfl
@[simp] theorem State.putBit_red (f : Fld) (b : Nat) (v : Bool) (i j : Nat) : (s.putBit f b v i j).red = s.red := rfl
@[simp] theorem State.putBit_saf (f : Fld) (b : Nat) (v : Bool) (i j : Nat) : (s.putBit f b v i j).saf = s.saf := rfl
@[simp] theorem State.putBit_time (f : Fld) (b : Nat) (v : Bool) (i j : Nat) : (s.putBit f b v i j).time = s.time := rfl
@[simp] theorem State.putBit_adc (f : Fld) (b : Nat) (v : Bool) (i j : Nat) : (s.putBit f b v i j).adc = s.adc := rfl
@[simp] theorem State.putBit_net (f : Fld) (b : Nat) (v : Bool) (i j : Nat) : (s.putBit f b v i j).net = s.net := rfl
@[simp] theorem State.putBit_acq (f : Fld) (b : Nat) (v : Bool) (i j : Nat) : (s.putBit f b v i j).acq = s.acq := rfl
@[simp] theorem State.putBit_clk (f : Fld) (b : Nat) (v : Bool) (i j : Nat) : (s.putBit f b v i j).clk = s.clk := rfl
@[simp] theorem State.putBit_thm (f : Fld) (b : Nat) (v : Bool) (i j : Nat) : (s.putBit f b v i j).thm = s.thm := rfl
@[simp] theorem State.putBit_mram (f : Fld) (b : Nat) (v : Bool) (i j : Nat) : (s.putBit f b v i j).mram = s.mram := rfl
@[simp] theorem State.putBit_flash (f : Fld) (b : Nat) (v : Bool) (i j : Nat) : (s.putBit f b v i j).flash = s.flash := rfl
@[simp] theorem State.putBit_dram (f : Fld) (b : Nat) (v : Bool) (i j : Nat) : (s.putBit f b v i j).dram = s.dram := rfl
@[simp] theorem State.putBit_ct (f : Fld) (b : Nat) (v : Bool) (i j : Nat) : (s.putBit f b v i j).ct = s.ct := rfl
@[simp] theorem State.putBit_bnd (f : Fld) (b : Nat) (v : Bool) (i j : Nat) : (s.putBit f b v i j).bnd = s.bnd := rfl
@[simp] theorem State.putBit_period (f : Fld) (b : Nat) (v : Bool) (i j : Nat) : (s.putBit f b v i j).period = s.period := rfl
@[simp] theorem State.putBit_free (f : Fld) (b : Nat) (v : Bool) (i j : Nat) : (s.putBit f b v i j).free = s.free := rfl
@[simp] theorem State.putBit_pending (f : Fld) (b : Nat) (v : Bool) (i j : Nat) : (s.putBit f b v i j).pending = s.pending := rfl
@[simp] theorem State.putBit_ctRegs (f : Fld) (b : Nat) (v : Bool) (i j : Nat) : (s.putBit f b v i j).ctRegs = s.ctRegs := rfl
@[simp] theorem State.putBit_ctEvt (f : Fld) (b : Nat) (v : Bool) (i j : Nat) : (s.putBit f b v i j).ctEvt = s.ctEvt := rfl
@[simp] theorem State.putBit_lane (f : Fld) (b : Nat) (v : Bool) (i j : Nat) (z : Nat) : (s.putBit f b v i j).lane z = s.lane z := rfl
@[simp] theorem State.putBit_cell (f : Fld) (b : Nat) (v : Bool) (i j : Nat) (z : Nat) : (s.putBit f b v i j).cell z = s.cell z := rfl
@[simp] theorem State.putBit_chan (f : Fld) (b : Nat) (v : Bool) (i j : Nat) (z : Nat) : (s.putBit f b v i j).chan z = s.chan z := rfl

@[simp] theorem State.pulse_regs (ev c0 c1 : Nat) : (s.pulse ev c0 c1).regs = s.regs := rfl
@[simp] theorem State.pulse_bus (ev c0 c1 : Nat) : (s.pulse ev c0 c1).bus = s.bus := rfl
@[simp] theorem State.pulse_otp (ev c0 c1 : Nat) : (s.pulse ev c0 c1).otp = s.otp := rfl
@[simp] theorem State.pulse_nv (ev c0 c1 : Nat) : (s.pulse ev c0 c1).nv = s.nv := rfl
@[simp] theorem State.pulse_aon (ev c0 c1 : Nat) : (s.pulse ev c0 c1).aon = s.aon := rfl
@[simp] theorem State.pulse_pins (ev c0 c1 : Nat) : (s.pulse ev c0 c1).pins = s.pins := rfl
@[simp] theorem State.pulse_boot (ev c0 c1 : Nat) : (s.pulse ev c0 c1).boot = s.boot := rfl
@[simp] theorem State.pulse_sec (ev c0 c1 : Nat) : (s.pulse ev c0 c1).sec = s.sec := rfl
@[simp] theorem State.pulse_img (ev c0 c1 : Nat) : (s.pulse ev c0 c1).img = s.img := rfl
@[simp] theorem State.pulse_lanes (ev c0 c1 : Nat) : (s.pulse ev c0 c1).lanes = s.lanes := rfl
@[simp] theorem State.pulse_cells (ev c0 c1 : Nat) : (s.pulse ev c0 c1).cells = s.cells := rfl
@[simp] theorem State.pulse_groups (ev c0 c1 : Nat) : (s.pulse ev c0 c1).groups = s.groups := rfl
@[simp] theorem State.pulse_budget (ev c0 c1 : Nat) : (s.pulse ev c0 c1).budget = s.budget := rfl
@[simp] theorem State.pulse_ce (ev c0 c1 : Nat) : (s.pulse ev c0 c1).ce = s.ce := rfl
@[simp] theorem State.pulse_chans (ev c0 c1 : Nat) : (s.pulse ev c0 c1).chans = s.chans := rfl
@[simp] theorem State.pulse_gdi (ev c0 c1 : Nat) : (s.pulse ev c0 c1).gdi = s.gdi := rfl
@[simp] theorem State.pulse_pump (ev c0 c1 : Nat) : (s.pulse ev c0 c1).pump = s.pump := rfl
@[simp] theorem State.pulse_red (ev c0 c1 : Nat) : (s.pulse ev c0 c1).red = s.red := rfl
@[simp] theorem State.pulse_saf (ev c0 c1 : Nat) : (s.pulse ev c0 c1).saf = s.saf := rfl
@[simp] theorem State.pulse_time (ev c0 c1 : Nat) : (s.pulse ev c0 c1).time = s.time := rfl
@[simp] theorem State.pulse_adc (ev c0 c1 : Nat) : (s.pulse ev c0 c1).adc = s.adc := rfl
@[simp] theorem State.pulse_net (ev c0 c1 : Nat) : (s.pulse ev c0 c1).net = s.net := rfl
@[simp] theorem State.pulse_acq (ev c0 c1 : Nat) : (s.pulse ev c0 c1).acq = s.acq := rfl
@[simp] theorem State.pulse_clk (ev c0 c1 : Nat) : (s.pulse ev c0 c1).clk = s.clk := rfl
@[simp] theorem State.pulse_thm (ev c0 c1 : Nat) : (s.pulse ev c0 c1).thm = s.thm := rfl
@[simp] theorem State.pulse_mram (ev c0 c1 : Nat) : (s.pulse ev c0 c1).mram = s.mram := rfl
@[simp] theorem State.pulse_flash (ev c0 c1 : Nat) : (s.pulse ev c0 c1).flash = s.flash := rfl
@[simp] theorem State.pulse_dram (ev c0 c1 : Nat) : (s.pulse ev c0 c1).dram = s.dram := rfl
@[simp] theorem State.pulse_ct (ev c0 c1 : Nat) : (s.pulse ev c0 c1).ct = s.ct := rfl
@[simp] theorem State.pulse_bnd (ev c0 c1 : Nat) : (s.pulse ev c0 c1).bnd = s.bnd := rfl
@[simp] theorem State.pulse_period (ev c0 c1 : Nat) : (s.pulse ev c0 c1).period = s.period := rfl
@[simp] theorem State.pulse_free (ev c0 c1 : Nat) : (s.pulse ev c0 c1).free = s.free := rfl
@[simp] theorem State.pulse_pending (ev c0 c1 : Nat) : (s.pulse ev c0 c1).pending = s.pending := rfl
@[simp] theorem State.pulse_ctRegs (ev c0 c1 : Nat) : (s.pulse ev c0 c1).ctRegs = s.ctRegs := rfl
@[simp] theorem State.pulse_ctEvt (ev c0 c1 : Nat) : (s.pulse ev c0 c1).ctEvt = s.ctEvt := rfl
@[simp] theorem State.pulse_rd (ev c0 c1 : Nat) (z : Nat) : (s.pulse ev c0 c1).rd z = s.rd z := rfl
@[simp] theorem State.pulse_get (ev c0 c1 : Nat) (h : Fld) (k m : Nat) : (s.pulse ev c0 c1).get h k m = s.get h k m := rfl
@[simp] theorem State.pulse_lane (ev c0 c1 : Nat) (z : Nat) : (s.pulse ev c0 c1).lane z = s.lane z := rfl
@[simp] theorem State.pulse_cell (ev c0 c1 : Nat) (z : Nat) : (s.pulse ev c0 c1).cell z = s.cell z := rfl
@[simp] theorem State.pulse_chan (ev c0 c1 : Nat) (z : Nat) : (s.pulse ev c0 c1).chan z = s.chan z := rfl

@[simp] theorem State.setLane_regs (l : Nat) (x : Lane) : (s.setLane l x).regs = s.regs := rfl
@[simp] theorem State.setLane_evt (l : Nat) (x : Lane) : (s.setLane l x).evt = s.evt := rfl
@[simp] theorem State.setLane_bus (l : Nat) (x : Lane) : (s.setLane l x).bus = s.bus := rfl
@[simp] theorem State.setLane_otp (l : Nat) (x : Lane) : (s.setLane l x).otp = s.otp := rfl
@[simp] theorem State.setLane_nv (l : Nat) (x : Lane) : (s.setLane l x).nv = s.nv := rfl
@[simp] theorem State.setLane_aon (l : Nat) (x : Lane) : (s.setLane l x).aon = s.aon := rfl
@[simp] theorem State.setLane_pins (l : Nat) (x : Lane) : (s.setLane l x).pins = s.pins := rfl
@[simp] theorem State.setLane_boot (l : Nat) (x : Lane) : (s.setLane l x).boot = s.boot := rfl
@[simp] theorem State.setLane_sec (l : Nat) (x : Lane) : (s.setLane l x).sec = s.sec := rfl
@[simp] theorem State.setLane_img (l : Nat) (x : Lane) : (s.setLane l x).img = s.img := rfl
@[simp] theorem State.setLane_cells (l : Nat) (x : Lane) : (s.setLane l x).cells = s.cells := rfl
@[simp] theorem State.setLane_groups (l : Nat) (x : Lane) : (s.setLane l x).groups = s.groups := rfl
@[simp] theorem State.setLane_budget (l : Nat) (x : Lane) : (s.setLane l x).budget = s.budget := rfl
@[simp] theorem State.setLane_ce (l : Nat) (x : Lane) : (s.setLane l x).ce = s.ce := rfl
@[simp] theorem State.setLane_chans (l : Nat) (x : Lane) : (s.setLane l x).chans = s.chans := rfl
@[simp] theorem State.setLane_gdi (l : Nat) (x : Lane) : (s.setLane l x).gdi = s.gdi := rfl
@[simp] theorem State.setLane_pump (l : Nat) (x : Lane) : (s.setLane l x).pump = s.pump := rfl
@[simp] theorem State.setLane_red (l : Nat) (x : Lane) : (s.setLane l x).red = s.red := rfl
@[simp] theorem State.setLane_saf (l : Nat) (x : Lane) : (s.setLane l x).saf = s.saf := rfl
@[simp] theorem State.setLane_time (l : Nat) (x : Lane) : (s.setLane l x).time = s.time := rfl
@[simp] theorem State.setLane_adc (l : Nat) (x : Lane) : (s.setLane l x).adc = s.adc := rfl
@[simp] theorem State.setLane_net (l : Nat) (x : Lane) : (s.setLane l x).net = s.net := rfl
@[simp] theorem State.setLane_acq (l : Nat) (x : Lane) : (s.setLane l x).acq = s.acq := rfl
@[simp] theorem State.setLane_clk (l : Nat) (x : Lane) : (s.setLane l x).clk = s.clk := rfl
@[simp] theorem State.setLane_thm (l : Nat) (x : Lane) : (s.setLane l x).thm = s.thm := rfl
@[simp] theorem State.setLane_mram (l : Nat) (x : Lane) : (s.setLane l x).mram = s.mram := rfl
@[simp] theorem State.setLane_flash (l : Nat) (x : Lane) : (s.setLane l x).flash = s.flash := rfl
@[simp] theorem State.setLane_dram (l : Nat) (x : Lane) : (s.setLane l x).dram = s.dram := rfl
@[simp] theorem State.setLane_ct (l : Nat) (x : Lane) : (s.setLane l x).ct = s.ct := rfl
@[simp] theorem State.setLane_bnd (l : Nat) (x : Lane) : (s.setLane l x).bnd = s.bnd := rfl
@[simp] theorem State.setLane_period (l : Nat) (x : Lane) : (s.setLane l x).period = s.period := rfl
@[simp] theorem State.setLane_free (l : Nat) (x : Lane) : (s.setLane l x).free = s.free := rfl
@[simp] theorem State.setLane_pending (l : Nat) (x : Lane) : (s.setLane l x).pending = s.pending := rfl
@[simp] theorem State.setLane_ctRegs (l : Nat) (x : Lane) : (s.setLane l x).ctRegs = s.ctRegs := rfl
@[simp] theorem State.setLane_ctEvt (l : Nat) (x : Lane) : (s.setLane l x).ctEvt = s.ctEvt := rfl
@[simp] theorem State.setLane_rd (l : Nat) (x : Lane) (z : Nat) : (s.setLane l x).rd z = s.rd z := rfl
@[simp] theorem State.setLane_get (l : Nat) (x : Lane) (h : Fld) (k m : Nat) : (s.setLane l x).get h k m = s.get h k m := rfl
@[simp] theorem State.setLane_cell (l : Nat) (x : Lane) (z : Nat) : (s.setLane l x).cell z = s.cell z := rfl
@[simp] theorem State.setLane_chan (l : Nat) (x : Lane) (z : Nat) : (s.setLane l x).chan z = s.chan z := rfl

@[simp] theorem State.setCell_regs (c : Nat) (x : Cell) : (s.setCell c x).regs = s.regs := rfl
@[simp] theorem State.setCell_evt (c : Nat) (x : Cell) : (s.setCell c x).evt = s.evt := rfl
@[simp] theorem State.setCell_bus (c : Nat) (x : Cell) : (s.setCell c x).bus = s.bus := rfl
@[simp] theorem State.setCell_otp (c : Nat) (x : Cell) : (s.setCell c x).otp = s.otp := rfl
@[simp] theorem State.setCell_nv (c : Nat) (x : Cell) : (s.setCell c x).nv = s.nv := rfl
@[simp] theorem State.setCell_aon (c : Nat) (x : Cell) : (s.setCell c x).aon = s.aon := rfl
@[simp] theorem State.setCell_pins (c : Nat) (x : Cell) : (s.setCell c x).pins = s.pins := rfl
@[simp] theorem State.setCell_boot (c : Nat) (x : Cell) : (s.setCell c x).boot = s.boot := rfl
@[simp] theorem State.setCell_sec (c : Nat) (x : Cell) : (s.setCell c x).sec = s.sec := rfl
@[simp] theorem State.setCell_img (c : Nat) (x : Cell) : (s.setCell c x).img = s.img := rfl
@[simp] theorem State.setCell_lanes (c : Nat) (x : Cell) : (s.setCell c x).lanes = s.lanes := rfl
@[simp] theorem State.setCell_groups (c : Nat) (x : Cell) : (s.setCell c x).groups = s.groups := rfl
@[simp] theorem State.setCell_budget (c : Nat) (x : Cell) : (s.setCell c x).budget = s.budget := rfl
@[simp] theorem State.setCell_ce (c : Nat) (x : Cell) : (s.setCell c x).ce = s.ce := rfl
@[simp] theorem State.setCell_chans (c : Nat) (x : Cell) : (s.setCell c x).chans = s.chans := rfl
@[simp] theorem State.setCell_gdi (c : Nat) (x : Cell) : (s.setCell c x).gdi = s.gdi := rfl
@[simp] theorem State.setCell_pump (c : Nat) (x : Cell) : (s.setCell c x).pump = s.pump := rfl
@[simp] theorem State.setCell_red (c : Nat) (x : Cell) : (s.setCell c x).red = s.red := rfl
@[simp] theorem State.setCell_saf (c : Nat) (x : Cell) : (s.setCell c x).saf = s.saf := rfl
@[simp] theorem State.setCell_time (c : Nat) (x : Cell) : (s.setCell c x).time = s.time := rfl
@[simp] theorem State.setCell_adc (c : Nat) (x : Cell) : (s.setCell c x).adc = s.adc := rfl
@[simp] theorem State.setCell_net (c : Nat) (x : Cell) : (s.setCell c x).net = s.net := rfl
@[simp] theorem State.setCell_acq (c : Nat) (x : Cell) : (s.setCell c x).acq = s.acq := rfl
@[simp] theorem State.setCell_clk (c : Nat) (x : Cell) : (s.setCell c x).clk = s.clk := rfl
@[simp] theorem State.setCell_thm (c : Nat) (x : Cell) : (s.setCell c x).thm = s.thm := rfl
@[simp] theorem State.setCell_mram (c : Nat) (x : Cell) : (s.setCell c x).mram = s.mram := rfl
@[simp] theorem State.setCell_flash (c : Nat) (x : Cell) : (s.setCell c x).flash = s.flash := rfl
@[simp] theorem State.setCell_dram (c : Nat) (x : Cell) : (s.setCell c x).dram = s.dram := rfl
@[simp] theorem State.setCell_ct (c : Nat) (x : Cell) : (s.setCell c x).ct = s.ct := rfl
@[simp] theorem State.setCell_bnd (c : Nat) (x : Cell) : (s.setCell c x).bnd = s.bnd := rfl
@[simp] theorem State.setCell_period (c : Nat) (x : Cell) : (s.setCell c x).period = s.period := rfl
@[simp] theorem State.setCell_free (c : Nat) (x : Cell) : (s.setCell c x).free = s.free := rfl
@[simp] theorem State.setCell_pending (c : Nat) (x : Cell) : (s.setCell c x).pending = s.pending := rfl
@[simp] theorem State.setCell_ctRegs (c : Nat) (x : Cell) : (s.setCell c x).ctRegs = s.ctRegs := rfl
@[simp] theorem State.setCell_ctEvt (c : Nat) (x : Cell) : (s.setCell c x).ctEvt = s.ctEvt := rfl
@[simp] theorem State.setCell_rd (c : Nat) (x : Cell) (z : Nat) : (s.setCell c x).rd z = s.rd z := rfl
@[simp] theorem State.setCell_get (c : Nat) (x : Cell) (h : Fld) (k m : Nat) : (s.setCell c x).get h k m = s.get h k m := rfl
@[simp] theorem State.setCell_lane (c : Nat) (x : Cell) (z : Nat) : (s.setCell c x).lane z = s.lane z := rfl
@[simp] theorem State.setCell_chan (c : Nat) (x : Cell) (z : Nat) : (s.setCell c x).chan z = s.chan z := rfl

@[simp] theorem State.setChan_regs (n : Nat) (x : Chan) : (s.setChan n x).regs = s.regs := rfl
@[simp] theorem State.setChan_evt (n : Nat) (x : Chan) : (s.setChan n x).evt = s.evt := rfl
@[simp] theorem State.setChan_bus (n : Nat) (x : Chan) : (s.setChan n x).bus = s.bus := rfl
@[simp] theorem State.setChan_otp (n : Nat) (x : Chan) : (s.setChan n x).otp = s.otp := rfl
@[simp] theorem State.setChan_nv (n : Nat) (x : Chan) : (s.setChan n x).nv = s.nv := rfl
@[simp] theorem State.setChan_aon (n : Nat) (x : Chan) : (s.setChan n x).aon = s.aon := rfl
@[simp] theorem State.setChan_pins (n : Nat) (x : Chan) : (s.setChan n x).pins = s.pins := rfl
@[simp] theorem State.setChan_boot (n : Nat) (x : Chan) : (s.setChan n x).boot = s.boot := rfl
@[simp] theorem State.setChan_sec (n : Nat) (x : Chan) : (s.setChan n x).sec = s.sec := rfl
@[simp] theorem State.setChan_img (n : Nat) (x : Chan) : (s.setChan n x).img = s.img := rfl
@[simp] theorem State.setChan_lanes (n : Nat) (x : Chan) : (s.setChan n x).lanes = s.lanes := rfl
@[simp] theorem State.setChan_cells (n : Nat) (x : Chan) : (s.setChan n x).cells = s.cells := rfl
@[simp] theorem State.setChan_groups (n : Nat) (x : Chan) : (s.setChan n x).groups = s.groups := rfl
@[simp] theorem State.setChan_budget (n : Nat) (x : Chan) : (s.setChan n x).budget = s.budget := rfl
@[simp] theorem State.setChan_ce (n : Nat) (x : Chan) : (s.setChan n x).ce = s.ce := rfl
@[simp] theorem State.setChan_gdi (n : Nat) (x : Chan) : (s.setChan n x).gdi = s.gdi := rfl
@[simp] theorem State.setChan_pump (n : Nat) (x : Chan) : (s.setChan n x).pump = s.pump := rfl
@[simp] theorem State.setChan_red (n : Nat) (x : Chan) : (s.setChan n x).red = s.red := rfl
@[simp] theorem State.setChan_saf (n : Nat) (x : Chan) : (s.setChan n x).saf = s.saf := rfl
@[simp] theorem State.setChan_time (n : Nat) (x : Chan) : (s.setChan n x).time = s.time := rfl
@[simp] theorem State.setChan_adc (n : Nat) (x : Chan) : (s.setChan n x).adc = s.adc := rfl
@[simp] theorem State.setChan_net (n : Nat) (x : Chan) : (s.setChan n x).net = s.net := rfl
@[simp] theorem State.setChan_acq (n : Nat) (x : Chan) : (s.setChan n x).acq = s.acq := rfl
@[simp] theorem State.setChan_clk (n : Nat) (x : Chan) : (s.setChan n x).clk = s.clk := rfl
@[simp] theorem State.setChan_thm (n : Nat) (x : Chan) : (s.setChan n x).thm = s.thm := rfl
@[simp] theorem State.setChan_mram (n : Nat) (x : Chan) : (s.setChan n x).mram = s.mram := rfl
@[simp] theorem State.setChan_flash (n : Nat) (x : Chan) : (s.setChan n x).flash = s.flash := rfl
@[simp] theorem State.setChan_dram (n : Nat) (x : Chan) : (s.setChan n x).dram = s.dram := rfl
@[simp] theorem State.setChan_ct (n : Nat) (x : Chan) : (s.setChan n x).ct = s.ct := rfl
@[simp] theorem State.setChan_bnd (n : Nat) (x : Chan) : (s.setChan n x).bnd = s.bnd := rfl
@[simp] theorem State.setChan_period (n : Nat) (x : Chan) : (s.setChan n x).period = s.period := rfl
@[simp] theorem State.setChan_free (n : Nat) (x : Chan) : (s.setChan n x).free = s.free := rfl
@[simp] theorem State.setChan_pending (n : Nat) (x : Chan) : (s.setChan n x).pending = s.pending := rfl
@[simp] theorem State.setChan_ctRegs (n : Nat) (x : Chan) : (s.setChan n x).ctRegs = s.ctRegs := rfl
@[simp] theorem State.setChan_ctEvt (n : Nat) (x : Chan) : (s.setChan n x).ctEvt = s.ctEvt := rfl
@[simp] theorem State.setChan_rd (n : Nat) (x : Chan) (z : Nat) : (s.setChan n x).rd z = s.rd z := rfl
@[simp] theorem State.setChan_get (n : Nat) (x : Chan) (h : Fld) (k m : Nat) : (s.setChan n x).get h k m = s.get h k m := rfl
@[simp] theorem State.setChan_lane (n : Nat) (x : Chan) (z : Nat) : (s.setChan n x).lane z = s.lane z := rfl
@[simp] theorem State.setChan_cell (n : Nat) (x : Chan) (z : Nat) : (s.setChan n x).cell z = s.cell z := rfl

@[simp] theorem State.setGroup_regs (g : Nat) (x : Group) : (s.setGroup g x).regs = s.regs := rfl
@[simp] theorem State.setGroup_evt (g : Nat) (x : Group) : (s.setGroup g x).evt = s.evt := rfl
@[simp] theorem State.setGroup_bus (g : Nat) (x : Group) : (s.setGroup g x).bus = s.bus := rfl
@[simp] theorem State.setGroup_otp (g : Nat) (x : Group) : (s.setGroup g x).otp = s.otp := rfl
@[simp] theorem State.setGroup_nv (g : Nat) (x : Group) : (s.setGroup g x).nv = s.nv := rfl
@[simp] theorem State.setGroup_aon (g : Nat) (x : Group) : (s.setGroup g x).aon = s.aon := rfl
@[simp] theorem State.setGroup_pins (g : Nat) (x : Group) : (s.setGroup g x).pins = s.pins := rfl
@[simp] theorem State.setGroup_boot (g : Nat) (x : Group) : (s.setGroup g x).boot = s.boot := rfl
@[simp] theorem State.setGroup_sec (g : Nat) (x : Group) : (s.setGroup g x).sec = s.sec := rfl
@[simp] theorem State.setGroup_img (g : Nat) (x : Group) : (s.setGroup g x).img = s.img := rfl
@[simp] theorem State.setGroup_lanes (g : Nat) (x : Group) : (s.setGroup g x).lanes = s.lanes := rfl
@[simp] theorem State.setGroup_cells (g : Nat) (x : Group) : (s.setGroup g x).cells = s.cells := rfl
@[simp] theorem State.setGroup_budget (g : Nat) (x : Group) : (s.setGroup g x).budget = s.budget := rfl
@[simp] theorem State.setGroup_ce (g : Nat) (x : Group) : (s.setGroup g x).ce = s.ce := rfl
@[simp] theorem State.setGroup_chans (g : Nat) (x : Group) : (s.setGroup g x).chans = s.chans := rfl
@[simp] theorem State.setGroup_gdi (g : Nat) (x : Group) : (s.setGroup g x).gdi = s.gdi := rfl
@[simp] theorem State.setGroup_pump (g : Nat) (x : Group) : (s.setGroup g x).pump = s.pump := rfl
@[simp] theorem State.setGroup_red (g : Nat) (x : Group) : (s.setGroup g x).red = s.red := rfl
@[simp] theorem State.setGroup_saf (g : Nat) (x : Group) : (s.setGroup g x).saf = s.saf := rfl
@[simp] theorem State.setGroup_time (g : Nat) (x : Group) : (s.setGroup g x).time = s.time := rfl
@[simp] theorem State.setGroup_adc (g : Nat) (x : Group) : (s.setGroup g x).adc = s.adc := rfl
@[simp] theorem State.setGroup_net (g : Nat) (x : Group) : (s.setGroup g x).net = s.net := rfl
@[simp] theorem State.setGroup_acq (g : Nat) (x : Group) : (s.setGroup g x).acq = s.acq := rfl
@[simp] theorem State.setGroup_clk (g : Nat) (x : Group) : (s.setGroup g x).clk = s.clk := rfl
@[simp] theorem State.setGroup_thm (g : Nat) (x : Group) : (s.setGroup g x).thm = s.thm := rfl
@[simp] theorem State.setGroup_mram (g : Nat) (x : Group) : (s.setGroup g x).mram = s.mram := rfl
@[simp] theorem State.setGroup_flash (g : Nat) (x : Group) : (s.setGroup g x).flash = s.flash := rfl
@[simp] theorem State.setGroup_dram (g : Nat) (x : Group) : (s.setGroup g x).dram = s.dram := rfl
@[simp] theorem State.setGroup_ct (g : Nat) (x : Group) : (s.setGroup g x).ct = s.ct := rfl
@[simp] theorem State.setGroup_bnd (g : Nat) (x : Group) : (s.setGroup g x).bnd = s.bnd := rfl
@[simp] theorem State.setGroup_period (g : Nat) (x : Group) : (s.setGroup g x).period = s.period := rfl
@[simp] theorem State.setGroup_free (g : Nat) (x : Group) : (s.setGroup g x).free = s.free := rfl
@[simp] theorem State.setGroup_pending (g : Nat) (x : Group) : (s.setGroup g x).pending = s.pending := rfl
@[simp] theorem State.setGroup_ctRegs (g : Nat) (x : Group) : (s.setGroup g x).ctRegs = s.ctRegs := rfl
@[simp] theorem State.setGroup_ctEvt (g : Nat) (x : Group) : (s.setGroup g x).ctEvt = s.ctEvt := rfl
@[simp] theorem State.setGroup_rd (g : Nat) (x : Group) (z : Nat) : (s.setGroup g x).rd z = s.rd z := rfl
@[simp] theorem State.setGroup_get (g : Nat) (x : Group) (h : Fld) (k m : Nat) : (s.setGroup g x).get h k m = s.get h k m := rfl
@[simp] theorem State.setGroup_lane (g : Nat) (x : Group) (z : Nat) : (s.setGroup g x).lane z = s.lane z := rfl
@[simp] theorem State.setGroup_cell (g : Nat) (x : Group) (z : Nat) : (s.setGroup g x).cell z = s.cell z := rfl
@[simp] theorem State.setGroup_chan (g : Nat) (x : Group) (z : Nat) : (s.setGroup g x).chan z = s.chan z := rfl

@[simp] theorem State.mramPut_regs (a : Nat) (bs : List Byte) : (s.mramPut a bs).regs = s.regs := rfl
@[simp] theorem State.mramPut_evt (a : Nat) (bs : List Byte) : (s.mramPut a bs).evt = s.evt := rfl
@[simp] theorem State.mramPut_bus (a : Nat) (bs : List Byte) : (s.mramPut a bs).bus = s.bus := rfl
@[simp] theorem State.mramPut_otp (a : Nat) (bs : List Byte) : (s.mramPut a bs).otp = s.otp := rfl
@[simp] theorem State.mramPut_nv (a : Nat) (bs : List Byte) : (s.mramPut a bs).nv = s.nv := rfl
@[simp] theorem State.mramPut_aon (a : Nat) (bs : List Byte) : (s.mramPut a bs).aon = s.aon := rfl
@[simp] theorem State.mramPut_pins (a : Nat) (bs : List Byte) : (s.mramPut a bs).pins = s.pins := rfl
@[simp] theorem State.mramPut_boot (a : Nat) (bs : List Byte) : (s.mramPut a bs).boot = s.boot := rfl
@[simp] theorem State.mramPut_sec (a : Nat) (bs : List Byte) : (s.mramPut a bs).sec = s.sec := rfl
@[simp] theorem State.mramPut_img (a : Nat) (bs : List Byte) : (s.mramPut a bs).img = s.img := rfl
@[simp] theorem State.mramPut_lanes (a : Nat) (bs : List Byte) : (s.mramPut a bs).lanes = s.lanes := rfl
@[simp] theorem State.mramPut_cells (a : Nat) (bs : List Byte) : (s.mramPut a bs).cells = s.cells := rfl
@[simp] theorem State.mramPut_groups (a : Nat) (bs : List Byte) : (s.mramPut a bs).groups = s.groups := rfl
@[simp] theorem State.mramPut_budget (a : Nat) (bs : List Byte) : (s.mramPut a bs).budget = s.budget := rfl
@[simp] theorem State.mramPut_ce (a : Nat) (bs : List Byte) : (s.mramPut a bs).ce = s.ce := rfl
@[simp] theorem State.mramPut_chans (a : Nat) (bs : List Byte) : (s.mramPut a bs).chans = s.chans := rfl
@[simp] theorem State.mramPut_gdi (a : Nat) (bs : List Byte) : (s.mramPut a bs).gdi = s.gdi := rfl
@[simp] theorem State.mramPut_pump (a : Nat) (bs : List Byte) : (s.mramPut a bs).pump = s.pump := rfl
@[simp] theorem State.mramPut_red (a : Nat) (bs : List Byte) : (s.mramPut a bs).red = s.red := rfl
@[simp] theorem State.mramPut_saf (a : Nat) (bs : List Byte) : (s.mramPut a bs).saf = s.saf := rfl
@[simp] theorem State.mramPut_time (a : Nat) (bs : List Byte) : (s.mramPut a bs).time = s.time := rfl
@[simp] theorem State.mramPut_adc (a : Nat) (bs : List Byte) : (s.mramPut a bs).adc = s.adc := rfl
@[simp] theorem State.mramPut_net (a : Nat) (bs : List Byte) : (s.mramPut a bs).net = s.net := rfl
@[simp] theorem State.mramPut_acq (a : Nat) (bs : List Byte) : (s.mramPut a bs).acq = s.acq := rfl
@[simp] theorem State.mramPut_clk (a : Nat) (bs : List Byte) : (s.mramPut a bs).clk = s.clk := rfl
@[simp] theorem State.mramPut_thm (a : Nat) (bs : List Byte) : (s.mramPut a bs).thm = s.thm := rfl
@[simp] theorem State.mramPut_flash (a : Nat) (bs : List Byte) : (s.mramPut a bs).flash = s.flash := rfl
@[simp] theorem State.mramPut_dram (a : Nat) (bs : List Byte) : (s.mramPut a bs).dram = s.dram := rfl
@[simp] theorem State.mramPut_ct (a : Nat) (bs : List Byte) : (s.mramPut a bs).ct = s.ct := rfl
@[simp] theorem State.mramPut_bnd (a : Nat) (bs : List Byte) : (s.mramPut a bs).bnd = s.bnd := rfl
@[simp] theorem State.mramPut_period (a : Nat) (bs : List Byte) : (s.mramPut a bs).period = s.period := rfl
@[simp] theorem State.mramPut_free (a : Nat) (bs : List Byte) : (s.mramPut a bs).free = s.free := rfl
@[simp] theorem State.mramPut_pending (a : Nat) (bs : List Byte) : (s.mramPut a bs).pending = s.pending := rfl
@[simp] theorem State.mramPut_ctRegs (a : Nat) (bs : List Byte) : (s.mramPut a bs).ctRegs = s.ctRegs := rfl
@[simp] theorem State.mramPut_ctEvt (a : Nat) (bs : List Byte) : (s.mramPut a bs).ctEvt = s.ctEvt := rfl
@[simp] theorem State.mramPut_rd (a : Nat) (bs : List Byte) (z : Nat) : (s.mramPut a bs).rd z = s.rd z := rfl
@[simp] theorem State.mramPut_get (a : Nat) (bs : List Byte) (h : Fld) (k m : Nat) : (s.mramPut a bs).get h k m = s.get h k m := rfl
@[simp] theorem State.mramPut_lane (a : Nat) (bs : List Byte) (z : Nat) : (s.mramPut a bs).lane z = s.lane z := rfl
@[simp] theorem State.mramPut_cell (a : Nat) (bs : List Byte) (z : Nat) : (s.mramPut a bs).cell z = s.cell z := rfl
@[simp] theorem State.mramPut_chan (a : Nat) (bs : List Byte) (z : Nat) : (s.mramPut a bs).chan z = s.chan z := rfl

@[simp] theorem State.flashPut_regs (a : Nat) (bs : List Byte) : (s.flashPut a bs).regs = s.regs := rfl
@[simp] theorem State.flashPut_evt (a : Nat) (bs : List Byte) : (s.flashPut a bs).evt = s.evt := rfl
@[simp] theorem State.flashPut_bus (a : Nat) (bs : List Byte) : (s.flashPut a bs).bus = s.bus := rfl
@[simp] theorem State.flashPut_otp (a : Nat) (bs : List Byte) : (s.flashPut a bs).otp = s.otp := rfl
@[simp] theorem State.flashPut_nv (a : Nat) (bs : List Byte) : (s.flashPut a bs).nv = s.nv := rfl
@[simp] theorem State.flashPut_aon (a : Nat) (bs : List Byte) : (s.flashPut a bs).aon = s.aon := rfl
@[simp] theorem State.flashPut_pins (a : Nat) (bs : List Byte) : (s.flashPut a bs).pins = s.pins := rfl
@[simp] theorem State.flashPut_boot (a : Nat) (bs : List Byte) : (s.flashPut a bs).boot = s.boot := rfl
@[simp] theorem State.flashPut_sec (a : Nat) (bs : List Byte) : (s.flashPut a bs).sec = s.sec := rfl
@[simp] theorem State.flashPut_img (a : Nat) (bs : List Byte) : (s.flashPut a bs).img = s.img := rfl
@[simp] theorem State.flashPut_lanes (a : Nat) (bs : List Byte) : (s.flashPut a bs).lanes = s.lanes := rfl
@[simp] theorem State.flashPut_cells (a : Nat) (bs : List Byte) : (s.flashPut a bs).cells = s.cells := rfl
@[simp] theorem State.flashPut_groups (a : Nat) (bs : List Byte) : (s.flashPut a bs).groups = s.groups := rfl
@[simp] theorem State.flashPut_budget (a : Nat) (bs : List Byte) : (s.flashPut a bs).budget = s.budget := rfl
@[simp] theorem State.flashPut_ce (a : Nat) (bs : List Byte) : (s.flashPut a bs).ce = s.ce := rfl
@[simp] theorem State.flashPut_chans (a : Nat) (bs : List Byte) : (s.flashPut a bs).chans = s.chans := rfl
@[simp] theorem State.flashPut_gdi (a : Nat) (bs : List Byte) : (s.flashPut a bs).gdi = s.gdi := rfl
@[simp] theorem State.flashPut_pump (a : Nat) (bs : List Byte) : (s.flashPut a bs).pump = s.pump := rfl
@[simp] theorem State.flashPut_red (a : Nat) (bs : List Byte) : (s.flashPut a bs).red = s.red := rfl
@[simp] theorem State.flashPut_saf (a : Nat) (bs : List Byte) : (s.flashPut a bs).saf = s.saf := rfl
@[simp] theorem State.flashPut_time (a : Nat) (bs : List Byte) : (s.flashPut a bs).time = s.time := rfl
@[simp] theorem State.flashPut_adc (a : Nat) (bs : List Byte) : (s.flashPut a bs).adc = s.adc := rfl
@[simp] theorem State.flashPut_net (a : Nat) (bs : List Byte) : (s.flashPut a bs).net = s.net := rfl
@[simp] theorem State.flashPut_acq (a : Nat) (bs : List Byte) : (s.flashPut a bs).acq = s.acq := rfl
@[simp] theorem State.flashPut_clk (a : Nat) (bs : List Byte) : (s.flashPut a bs).clk = s.clk := rfl
@[simp] theorem State.flashPut_thm (a : Nat) (bs : List Byte) : (s.flashPut a bs).thm = s.thm := rfl
@[simp] theorem State.flashPut_mram (a : Nat) (bs : List Byte) : (s.flashPut a bs).mram = s.mram := rfl
@[simp] theorem State.flashPut_dram (a : Nat) (bs : List Byte) : (s.flashPut a bs).dram = s.dram := rfl
@[simp] theorem State.flashPut_ct (a : Nat) (bs : List Byte) : (s.flashPut a bs).ct = s.ct := rfl
@[simp] theorem State.flashPut_bnd (a : Nat) (bs : List Byte) : (s.flashPut a bs).bnd = s.bnd := rfl
@[simp] theorem State.flashPut_period (a : Nat) (bs : List Byte) : (s.flashPut a bs).period = s.period := rfl
@[simp] theorem State.flashPut_free (a : Nat) (bs : List Byte) : (s.flashPut a bs).free = s.free := rfl
@[simp] theorem State.flashPut_pending (a : Nat) (bs : List Byte) : (s.flashPut a bs).pending = s.pending := rfl
@[simp] theorem State.flashPut_ctRegs (a : Nat) (bs : List Byte) : (s.flashPut a bs).ctRegs = s.ctRegs := rfl
@[simp] theorem State.flashPut_ctEvt (a : Nat) (bs : List Byte) : (s.flashPut a bs).ctEvt = s.ctEvt := rfl
@[simp] theorem State.flashPut_rd (a : Nat) (bs : List Byte) (z : Nat) : (s.flashPut a bs).rd z = s.rd z := rfl
@[simp] theorem State.flashPut_get (a : Nat) (bs : List Byte) (h : Fld) (k m : Nat) : (s.flashPut a bs).get h k m = s.get h k m := rfl
@[simp] theorem State.flashPut_lane (a : Nat) (bs : List Byte) (z : Nat) : (s.flashPut a bs).lane z = s.lane z := rfl
@[simp] theorem State.flashPut_cell (a : Nat) (bs : List Byte) (z : Nat) : (s.flashPut a bs).cell z = s.cell z := rfl
@[simp] theorem State.flashPut_chan (a : Nat) (bs : List Byte) (z : Nat) : (s.flashPut a bs).chan z = s.chan z := rfl

@[simp] theorem State.dramPut_regs (a : Nat) (bs : List Byte) : (s.dramPut a bs).regs = s.regs := rfl
@[simp] theorem State.dramPut_evt (a : Nat) (bs : List Byte) : (s.dramPut a bs).evt = s.evt := rfl
@[simp] theorem State.dramPut_bus (a : Nat) (bs : List Byte) : (s.dramPut a bs).bus = s.bus := rfl
@[simp] theorem State.dramPut_otp (a : Nat) (bs : List Byte) : (s.dramPut a bs).otp = s.otp := rfl
@[simp] theorem State.dramPut_nv (a : Nat) (bs : List Byte) : (s.dramPut a bs).nv = s.nv := rfl
@[simp] theorem State.dramPut_aon (a : Nat) (bs : List Byte) : (s.dramPut a bs).aon = s.aon := rfl
@[simp] theorem State.dramPut_pins (a : Nat) (bs : List Byte) : (s.dramPut a bs).pins = s.pins := rfl
@[simp] theorem State.dramPut_boot (a : Nat) (bs : List Byte) : (s.dramPut a bs).boot = s.boot := rfl
@[simp] theorem State.dramPut_sec (a : Nat) (bs : List Byte) : (s.dramPut a bs).sec = s.sec := rfl
@[simp] theorem State.dramPut_img (a : Nat) (bs : List Byte) : (s.dramPut a bs).img = s.img := rfl
@[simp] theorem State.dramPut_lanes (a : Nat) (bs : List Byte) : (s.dramPut a bs).lanes = s.lanes := rfl
@[simp] theorem State.dramPut_cells (a : Nat) (bs : List Byte) : (s.dramPut a bs).cells = s.cells := rfl
@[simp] theorem State.dramPut_groups (a : Nat) (bs : List Byte) : (s.dramPut a bs).groups = s.groups := rfl
@[simp] theorem State.dramPut_budget (a : Nat) (bs : List Byte) : (s.dramPut a bs).budget = s.budget := rfl
@[simp] theorem State.dramPut_ce (a : Nat) (bs : List Byte) : (s.dramPut a bs).ce = s.ce := rfl
@[simp] theorem State.dramPut_chans (a : Nat) (bs : List Byte) : (s.dramPut a bs).chans = s.chans := rfl
@[simp] theorem State.dramPut_gdi (a : Nat) (bs : List Byte) : (s.dramPut a bs).gdi = s.gdi := rfl
@[simp] theorem State.dramPut_pump (a : Nat) (bs : List Byte) : (s.dramPut a bs).pump = s.pump := rfl
@[simp] theorem State.dramPut_red (a : Nat) (bs : List Byte) : (s.dramPut a bs).red = s.red := rfl
@[simp] theorem State.dramPut_saf (a : Nat) (bs : List Byte) : (s.dramPut a bs).saf = s.saf := rfl
@[simp] theorem State.dramPut_time (a : Nat) (bs : List Byte) : (s.dramPut a bs).time = s.time := rfl
@[simp] theorem State.dramPut_adc (a : Nat) (bs : List Byte) : (s.dramPut a bs).adc = s.adc := rfl
@[simp] theorem State.dramPut_net (a : Nat) (bs : List Byte) : (s.dramPut a bs).net = s.net := rfl
@[simp] theorem State.dramPut_acq (a : Nat) (bs : List Byte) : (s.dramPut a bs).acq = s.acq := rfl
@[simp] theorem State.dramPut_clk (a : Nat) (bs : List Byte) : (s.dramPut a bs).clk = s.clk := rfl
@[simp] theorem State.dramPut_thm (a : Nat) (bs : List Byte) : (s.dramPut a bs).thm = s.thm := rfl
@[simp] theorem State.dramPut_mram (a : Nat) (bs : List Byte) : (s.dramPut a bs).mram = s.mram := rfl
@[simp] theorem State.dramPut_flash (a : Nat) (bs : List Byte) : (s.dramPut a bs).flash = s.flash := rfl
@[simp] theorem State.dramPut_ct (a : Nat) (bs : List Byte) : (s.dramPut a bs).ct = s.ct := rfl
@[simp] theorem State.dramPut_bnd (a : Nat) (bs : List Byte) : (s.dramPut a bs).bnd = s.bnd := rfl
@[simp] theorem State.dramPut_period (a : Nat) (bs : List Byte) : (s.dramPut a bs).period = s.period := rfl
@[simp] theorem State.dramPut_free (a : Nat) (bs : List Byte) : (s.dramPut a bs).free = s.free := rfl
@[simp] theorem State.dramPut_pending (a : Nat) (bs : List Byte) : (s.dramPut a bs).pending = s.pending := rfl
@[simp] theorem State.dramPut_ctRegs (a : Nat) (bs : List Byte) : (s.dramPut a bs).ctRegs = s.ctRegs := rfl
@[simp] theorem State.dramPut_ctEvt (a : Nat) (bs : List Byte) : (s.dramPut a bs).ctEvt = s.ctEvt := rfl
@[simp] theorem State.dramPut_rd (a : Nat) (bs : List Byte) (z : Nat) : (s.dramPut a bs).rd z = s.rd z := rfl
@[simp] theorem State.dramPut_get (a : Nat) (bs : List Byte) (h : Fld) (k m : Nat) : (s.dramPut a bs).get h k m = s.get h k m := rfl
@[simp] theorem State.dramPut_lane (a : Nat) (bs : List Byte) (z : Nat) : (s.dramPut a bs).lane z = s.lane z := rfl
@[simp] theorem State.dramPut_cell (a : Nat) (bs : List Byte) (z : Nat) : (s.dramPut a bs).cell z = s.cell z := rfl
@[simp] theorem State.dramPut_chan (a : Nat) (bs : List Byte) (z : Nat) : (s.dramPut a bs).chan z = s.chan z := rfl
/-! A record update that leaves the register file, or an indexed record, leaves what is read through it. -/

@[simp] theorem State.rd_mk {evt' bus' otp' nv' aon' pins' boot' sec' img' lanes' cells' groups' budget' ce' chans' gdi' pump'
    red' saf' time' adc' net' acq' clk' thm' mram' flash' dram' ct' bnd' period' free' pending' ctRegs' ctEvt'} (b : Nat) :
    (State.mk s.regs evt' bus' otp' nv' aon' pins' boot' sec' img' lanes' cells' groups' budget' ce' chans' gdi' pump' red'
    saf' time' adc' net' acq' clk' thm' mram' flash' dram' ct' bnd' period' free' pending' ctRegs' ctEvt').rd b = s.rd b := rfl
@[simp] theorem State.get_mk {evt' bus' otp' nv' aon' pins' boot' sec' img' lanes' cells' groups' budget' ce' chans' gdi' pump'
    red' saf' time' adc' net' acq' clk' thm' mram' flash' dram' ct' bnd' period' free' pending' ctRegs' ctEvt'} (f : Fld) (i j
    : Nat) :
    (State.mk s.regs evt' bus' otp' nv' aon' pins' boot' sec' img' lanes' cells' groups' budget' ce' chans' gdi' pump' red'
    saf' time' adc' net' acq' clk' thm' mram' flash' dram' ct' bnd' period' free' pending' ctRegs' ctEvt').get f i j = s.get f
    i j := rfl
@[simp] theorem State.lane_mk {regs' evt' bus' otp' nv' aon' pins' boot' sec' img' cells' groups' budget' ce' chans' gdi' pump'
    red' saf' time' adc' net' acq' clk' thm' mram' flash' dram' ct' bnd' period' free' pending' ctRegs' ctEvt'} (l : Nat) :
    (State.mk regs' evt' bus' otp' nv' aon' pins' boot' sec' img' s.lanes cells' groups' budget' ce' chans' gdi' pump' red'
    saf' time' adc' net' acq' clk' thm' mram' flash' dram' ct' bnd' period' free' pending' ctRegs' ctEvt').lane l = s.lane l :=
    rfl
@[simp] theorem State.cell_mk {regs' evt' bus' otp' nv' aon' pins' boot' sec' img' lanes' groups' budget' ce' chans' gdi' pump'
    red' saf' time' adc' net' acq' clk' thm' mram' flash' dram' ct' bnd' period' free' pending' ctRegs' ctEvt'} (c : Nat) :
    (State.mk regs' evt' bus' otp' nv' aon' pins' boot' sec' img' lanes' s.cells groups' budget' ce' chans' gdi' pump' red'
    saf' time' adc' net' acq' clk' thm' mram' flash' dram' ct' bnd' period' free' pending' ctRegs' ctEvt').cell c = s.cell c :=
    rfl
@[simp] theorem State.chan_mk {regs' evt' bus' otp' nv' aon' pins' boot' sec' img' lanes' cells' groups' budget' ce' gdi' pump'
    red' saf' time' adc' net' acq' clk' thm' mram' flash' dram' ct' bnd' period' free' pending' ctRegs' ctEvt'} (n : Nat) :
    (State.mk regs' evt' bus' otp' nv' aon' pins' boot' sec' img' lanes' cells' groups' budget' ce' s.chans gdi' pump' red'
    saf' time' adc' net' acq' clk' thm' mram' flash' dram' ct' bnd' period' free' pending' ctRegs' ctEvt').chan n = s.chan n :=
    rfl


@[simp] theorem State.lane_setLane_same (l : Nat) (x : Lane) : (s.setLane l x).lane l = x := Sparse.get_set_same _ _ _ _
theorem State.lane_setLane_ne {l m : Nat} (x : Lane) (h : m ≠ l) : (s.setLane l x).lane m = s.lane m := Sparse.get_set_ne _ _ _ h
@[simp] theorem State.cell_setCell_same (c : Nat) (x : Cell) : (s.setCell c x).cell c = x := Sparse.get_set_same _ _ _ _
theorem State.cell_setCell_ne {c d : Nat} (x : Cell) (h : d ≠ c) : (s.setCell c x).cell d = s.cell d := Sparse.get_set_ne _ _ _ h
@[simp] theorem State.chan_setChan_same (n : Nat) (x : Chan) : (s.setChan n x).chan n = x := Sparse.get_set_same _ _ _ _
theorem State.chan_setChan_ne {n m : Nat} (x : Chan) (h : m ≠ n) : (s.setChan n x).chan m = s.chan m := Sparse.get_set_ne _ _ _ h

/-! The events that an update notes. -/

@[simp] theorem State.pulse_raised (ev c0 c1 : Nat) :
    (s.pulse ev c0 c1).evt.raised = s.evt.raised ++ [(ev, BitVec.ofNat 32 c0, BitVec.ofNat 32 c1)] := rfl
@[simp] theorem State.pulse_evtRegs (ev c0 c1 : Nat) : (s.pulse ev c0 c1).evt.regs = s.evt.regs := rfl
@[simp] theorem State.pulse_woReq (ev c0 c1 : Nat) : (s.pulse ev c0 c1).evt.woReq = s.evt.woReq := rfl
@[simp] theorem State.pulse_resignReq (ev c0 c1 : Nat) : (s.pulse ev c0 c1).evt.resignReq = s.evt.resignReq := rfl

end Sys2Proof.Machine
end

