-- ==== Sys2Proof/Laws/Settle.lean ====
section
/-! SUPPORT. The laws of a command's end: nothing is left of it, and where it raised nothing its end changes nothing. -/

namespace Sys2Proof.Machine

variable {s : State}

/-- Quiet is a matter of the event block. -/
theorem State.Quiet.of_evt {t : State} (h : s.Quiet) (e : t.evt = s.evt) : t.Quiet := by
  unfold State.Quiet; rw [e]; exact h

theorem State.Quiet.settled (h : s.Quiet) : s.settled = true := by
  simp [State.settled, h.1, h.2.1, h.2.2]

theorem State.settleN_settled (n : Nat) (h : s.settled = true) : State.settleN n s = s := by
  cases n <;> simp [State.settleN, h]

/-- The end of a command that raised nothing changes nothing. -/
theorem State.settle_quiet (h : s.Quiet) : s.settle = s := by
  unfold State.settle
  rw [State.settleN_settled 12 h.settled, State.sendNotifies, h.2.2.2]
  obtain ⟨h1, h2, h3, h4⟩ := h
  obtain ⟨regs, evt⟩ := s
  cases evt
  simp_all

/-- The end of every command leaves nothing to do. -/
theorem State.quiet_settle (s : State) : s.settle.Quiet := ⟨rfl, rfl, rfl, rfl⟩

/-- A command answers the end of its effect. -/
theorem State.done_eq (s : State) : s.done = .next s.settle := rfl

theorem State.done_quiet (h : s.Quiet) : s.done = .next s := by rw [State.done_eq, State.settle_quiet h]

end Sys2Proof.Machine
end

