-- ==== Sys2Proof/Laws/Bus.lean ====
section
/-! SUPPORT. The laws of a register write from a path: what it comes to once the register's own checks pass. -/

namespace Sys2Proof.Machine

/-- A command register: word `a` is instance (i, j) of row `r`, outside the loop graph, with no G2 guard, and no apply point but
`immediate`. -/
def cmdRow (a : Nat) (r : Row) (i j : Nat) : Bool :=
  a % 4 == 0 && (blockOf a).isSome && blockOf a != some .window && (complOf a).isNone && findRow a == some (r, i, j) &&
  !(decide (0x48000 ≤ a) && decide (a ≤ 0x5FFFF)) && r.base != R.SYS_THAW.base && r.writable && !r.guarded .g2

/-- All writable fields act at once. -/
def Row.atOnce (r : Row) : Bool := r.maskOf (fun f => f.takes && f.apply != .immediate) == 0

variable {s t : State} {path a i j : Nat} {v : Word} {r : Row}

theorem State.Ready.not_standby (h : s.Ready path) : s.isStandby = false := by
  rcases h.lead with e | e <;> simp [State.isStandby, State.role, e] <;> decide

theorem State.Ready.mustWait (h : s.Ready path) : s.mustWait path a = false := by simp [State.mustWait, h.room.1, h.room.2]

@[simp] theorem State.noteRefused_ok (s : State) (a : Nat) : s.noteRefused a .ok = s := rfl

theorem State.Ready.shut (h : s.Ready path) (hb : (blockOf a).isSome = true) : s.shut a = false := by
  obtain ⟨b, e⟩ := Option.isSome_iff_exists.mp hb
  have h4 : ¬ s.otp.lcs = 4 := by have := h.life; omega
  have h3 : ¬ s.otp.lcs = 3 := by have := h.life; omega
  simp [State.shut, e, h4, h3, h.run]

theorem State.Ready.writeShut (h : s.Ready path) : s.writeShut r = false := by
  have h3 : (s.otp.lcs == 3) = false := by have := h.life; simp; omega
  simp [State.writeShut, h3, h.run, h.not_standby]

/-- A write to a command register that the head's state leaves open comes to its guard and then to what the register takes. -/
theorem State.checkWrite_open (hp : s.poisoned path = false) (hs : s.shut a = false) (hw : s.writeShut r = false) (hc : cmdRow a r i j = true) :
    s.checkWrite path a v = s.guardWrite path a v r i j := by
  simp only [cmdRow, Bool.and_eq_true, beq_iff_eq, bne_iff_ne, ne_eq, Bool.not_eq_true', Bool.and_eq_false_iff,
    decide_eq_false_iff_not, Option.isNone_iff_eq_none] at hc
  obtain ⟨⟨⟨⟨⟨⟨⟨⟨h4, hb⟩, hn1⟩, hn⟩, hr⟩, ho⟩, ht⟩, hwr⟩, hg⟩ := hc
  have hni : s.noInst a = false := by
    simp only [State.noInst, Bool.and_eq_false_iff, decide_eq_false_iff_not]
    rcases ho with e | e
    · exact .inl (.inl e)
    · exact .inl (.inr e)
  have hfw : s.fixedWord a = false := by
    simp only [State.fixedWord, Bool.and_eq_false_iff, decide_eq_false_iff_not]
    rcases ho with e | e
    · exact .inl (.inl (.inl e))
    · exact .inl (.inl (.inr e))
  simp [State.checkWrite, hp, hs, h4, hn1, hn, State.rowAt, hni, hr, ht, hw, hwr, hfw]

theorem cmdRow_block (hc : cmdRow a r i j = true) : (blockOf a).isSome = true := by
  simp only [cmdRow, Bool.and_eq_true] at hc
  exact hc.1.1.1.1.1.1.1.2

theorem cmdRow_g2 (hc : cmdRow a r i j = true) : r.guarded .g2 = false := by
  simp only [cmdRow, Bool.and_eq_true, Bool.not_eq_true'] at hc
  exact hc.2

/-- A write to a command register comes to its guard and then to what the register takes. -/
theorem State.Ready.checkWrite (h : s.Ready path) (hc : cmdRow a r i j = true) :
    s.checkWrite path a v = s.guardWrite path a v r i j :=
  State.checkWrite_open h.clean (h.shut (cmdRow_block hc)) h.writeShut hc

/-- A write that its register takes: no range or state refuses it, and its fields act at once. -/
theorem State.takeWrite_now (hr : s.rangeFault path a v r i j = none) (hs : s.stateOk r i v = true) (hn : r.atOnce = true)
    (hi : s.immediate path a v r i = (t, .ok)) : s.takeWrite path a v r i j = (t, .ok) := by
  simp only [Row.atOnce, beq_iff_eq] at hn
  simp [State.takeWrite, hr, hs, State.acceptLate, hn, hi]

/-- A write command to an open register that acts at once (R60, R65). -/
theorem State.Ready.pathWrite_open (h : s.Ready path) (hc : cmdRow a r i j = true) (hg : r.guarded .g1 = false)
    (hr : s.rangeFault path a v r i j = none) (hs : s.stateOk r i v = true) (hn : r.atOnce = true)
    (hi : s.immediate path a v r i = (t, .ok)) : s.pathWrite path a v = t.noteCode path .ok := by
  simp [State.pathWrite, h.on, h.mustWait, State.busWrite, h.g2, h.checkWrite hc, State.guardWrite, cmdRow_g2 hc, hg, State.takeWrite_now hr hs hn hi]

/-- A write command to a G1 register of a head whose state leaves it open, from a thawed path: the lock is armed again (R60, R65,
R67). -/
theorem State.pathWrite_thawed (ho : s.pathOn path = true) (hm : s.mustWait path a = false) (hp : s.poisoned path = false) (h2 : s.bus.g2 = none) (hs : s.shut a = false)
    (hw : s.writeShut r = false) (hc : cmdRow a r i j = true) (hg : r.guarded .g1 = true) (ht : s.thawed path = true)
    (hr : s.rangeFault path a v r i j = none) (hk : s.stateOk r i v = true) (hn : r.atOnce = true)
    (hi : s.immediate path a v r i = (t, .ok)) : s.pathWrite path a v = (t.refreeze path).noteCode path .ok := by
  simp [State.pathWrite, ho, hm, State.busWrite, h2, State.checkWrite_open hp hs hw hc, State.guardWrite, cmdRow_g2 hc, hg, ht,
    State.takeWrite_now hr hk hn hi]

/-- A write command to a G1 register that acts at once: the path's lock is armed again (R60, R65, R67). -/
theorem State.Ready.pathWrite_g1 (h : s.Ready path) (hc : cmdRow a r i j = true) (hg : r.guarded .g1 = true)
    (ht : s.thawed path = true) (hr : s.rangeFault path a v r i j = none) (hs : s.stateOk r i v = true) (hn : r.atOnce = true)
    (hi : s.immediate path a v r i = (t, .ok)) : s.pathWrite path a v = (t.refreeze path).noteCode path .ok :=
  State.pathWrite_thawed h.on h.mustWait h.clean h.g2 (h.shut (cmdRow_block hc)) h.writeShut hc hg ht hr hs hn hi

/-- A register with no RW field meets only the field ranges and the layouts of the event and network rows. -/
theorem State.rangeFault_cmd (h : rowRange r v = true) (he : r.base ≠ R.EVT_CFG.base ∧ r.base ≠ R.EVT_EN.base)
    (hw : windowRange r i j v = true) (hs : r.maskOf (fun f => f.acc == .rw) = 0 ∨ s.specialOk (s.view path a v) r i j = true) :
    s.rangeFault path a v r i j = none := by
  have e2 : evtBelow r i v = false := by simp [evtBelow, he.1, he.2]
  rcases hs with e | e <;> simp [State.rangeFault, h, e2, hw, e]

/-! ### The status of an access -/

theorem State.noteCode_quiet {p : Nat} {c : Code} (h : s.Quiet) : (s.noteCode p c).Quiet := h.of_evt rfl

theorem State.get_noteCode (s : State) (p : Nat) (c : Code) (f : Fld) (i j : Nat) (h : f.addr i j ≠ R.SYS_WRSTAT.base) :
    (s.noteCode p c).get f i j = s.get f i j := by
  simp only [State.get, State.noteCode]
  rw [State.rd_wr_ne _ _ h]

/-- A register above SYS_WRSTAT reads as before. -/
theorem State.get_noteCode_above (s : State) (p : Nat) (c : Code) (f : Fld) (i j : Nat) (h : R.SYS_WRSTAT.base < f.base) :
    (s.noteCode p c).get f i j = s.get f i j :=
  State.get_noteCode s p c f i j (by simp only [Fld.addr]; omega)

theorem State.rd_noteCode (s : State) (p : Nat) (c : Code) (b : Nat) (h : b ≠ R.SYS_WRSTAT.base) :
    (s.noteCode p c).rd b = s.rd b := State.rd_wr_ne _ _ h

/-- A path's status reads the code of its last access (R60). -/
theorem State.noteCode_status (s : State) (p : Path) (c : Code) :
    fieldGet ((s.noteCode p c).rd R.SYS_WRSTAT.base) (4 * p.val + 3) (4 * p.val) = c.num := by
  simp only [State.noteCode, State.rd_wr_same]
  rw [fieldGet_fieldSet _ _ (by omega) (by omega)]
  have : 4 * p.val + 3 - 4 * p.val + 1 = 4 := by omega
  rw [this]
  cases c <;> rfl

theorem State.noteCode_pathOn {p : Nat} {c : Code} : (s.noteCode p c).pathOn path = s.pathOn path := by
  have e1 : (s.noteCode p c).get F.SEC_STATE_HSTATE = s.get F.SEC_STATE_HSTATE := State.get_noteCode _ _ _ _ _ _ (by decide)
  have e2 : (s.noteCode p c).get F.CLK_ALARM_ALARM = s.get F.CLK_ALARM_ALARM := State.get_noteCode _ _ _ _ _ _ (by decide)
  have e3 : (s.noteCode p c).get F.CLK_STAT_LOCKED = s.get F.CLK_STAT_LOCKED := State.get_noteCode _ _ _ _ _ _ (by decide)
  simp only [State.pathOn, State.portsUp, State.acqStopped, State.netStopped, State.clkBad, State.pllOn, e1, e2, e3]
  rfl

theorem State.noteCode_regFull {p : Nat} {c : Code} : (s.noteCode p c).regFull = s.regFull := by
  have e1 : (s.noteCode p c).get F.RED_MODE_MODE = s.get F.RED_MODE_MODE := State.get_noteCode _ _ _ _ _ _ (by decide)
  have e2 : (s.noteCode p c).get F.RED_STAT_ROLE = s.get F.RED_STAT_ROLE := State.get_noteCode _ _ _ _ _ _ (by decide)
  simp only [State.regFull, State.duplex, State.role, e1, e2]
  rfl

theorem State.noteCode_poisoned {p : Nat} {c : Code} : (s.noteCode p c).poisoned path = s.poisoned path := by
  have e1 : (s.noteCode p c).get F.SYS_TXNSTAT_STATE = s.get F.SYS_TXNSTAT_STATE := State.get_noteCode _ _ _ _ _ _ (by decide)
  have e2 : (s.noteCode p c).get F.SYS_TXNSTAT_OWNER = s.get F.SYS_TXNSTAT_OWNER := State.get_noteCode _ _ _ _ _ _ (by decide)
  have e3 : (s.noteCode p c).get F.SYS_TXNSTAT_POISON = s.get F.SYS_TXNSTAT_POISON := State.get_noteCode _ _ _ _ _ _ (by decide)
  simp only [State.poisoned, State.ownsOpen, State.txState, State.flag, e1, e2, e3]

theorem State.Ready.noteCode {p : Nat} {c : Code} (h : s.Ready path) : (s.noteCode p c).Ready path := by
  have e1 : (s.noteCode p c).get F.SEC_STATE_HSTATE = s.get F.SEC_STATE_HSTATE := State.get_noteCode _ _ _ _ _ _ (by decide)
  have e2 : (s.noteCode p c).get F.RED_STAT_ROLE = s.get F.RED_STAT_ROLE := State.get_noteCode _ _ _ _ _ _ (by decide)
  refine ⟨e1.trans h.run, h.life, ?_, State.noteCode_pathOn.trans h.on, h.g2, State.noteCode_poisoned.trans h.clean,
    ⟨State.noteCode_regFull.trans h.room.1, h.room.2⟩, h.quiet⟩
  rw [e2]; exact h.lead

@[simp] theorem State.noteCode_evt (s : State) (p : Nat) (c : Code) : (s.noteCode p c).evt = s.evt := rfl
@[simp] theorem State.noteCode_bus (s : State) (p : Nat) (c : Code) : (s.noteCode p c).bus = s.bus := rfl
@[simp] theorem State.noteCode_otp (s : State) (p : Nat) (c : Code) : (s.noteCode p c).otp = s.otp := rfl
@[simp] theorem State.noteCode_nv (s : State) (p : Nat) (c : Code) : (s.noteCode p c).nv = s.nv := rfl
@[simp] theorem State.noteCode_aon (s : State) (p : Nat) (c : Code) : (s.noteCode p c).aon = s.aon := rfl
@[simp] theorem State.noteCode_pins (s : State) (p : Nat) (c : Code) : (s.noteCode p c).pins = s.pins := rfl
@[simp] theorem State.noteCode_boot (s : State) (p : Nat) (c : Code) : (s.noteCode p c).boot = s.boot := rfl
@[simp] theorem State.noteCode_sec (s : State) (p : Nat) (c : Code) : (s.noteCode p c).sec = s.sec := rfl
@[simp] theorem State.noteCode_img (s : State) (p : Nat) (c : Code) : (s.noteCode p c).img = s.img := rfl
@[simp] theorem State.noteCode_lanes (s : State) (p : Nat) (c : Code) : (s.noteCode p c).lanes = s.lanes := rfl
@[simp] theorem State.noteCode_cells (s : State) (p : Nat) (c : Code) : (s.noteCode p c).cells = s.cells := rfl
@[simp] theorem State.noteCode_groups (s : State) (p : Nat) (c : Code) : (s.noteCode p c).groups = s.groups := rfl
@[simp] theorem State.noteCode_budget (s : State) (p : Nat) (c : Code) : (s.noteCode p c).budget = s.budget := rfl
@[simp] theorem State.noteCode_ce (s : State) (p : Nat) (c : Code) : (s.noteCode p c).ce = s.ce := rfl
@[simp] theorem State.noteCode_chans (s : State) (p : Nat) (c : Code) : (s.noteCode p c).chans = s.chans := rfl
@[simp] theorem State.noteCode_gdi (s : State) (p : Nat) (c : Code) : (s.noteCode p c).gdi = s.gdi := rfl
@[simp] theorem State.noteCode_pump (s : State) (p : Nat) (c : Code) : (s.noteCode p c).pump = s.pump := rfl
@[simp] theorem State.noteCode_red (s : State) (p : Nat) (c : Code) : (s.noteCode p c).red = s.red := rfl
@[simp] theorem State.noteCode_saf (s : State) (p : Nat) (c : Code) : (s.noteCode p c).saf = s.saf := rfl
@[simp] theorem State.noteCode_time (s : State) (p : Nat) (c : Code) : (s.noteCode p c).time = s.time := rfl
@[simp] theorem State.noteCode_adc (s : State) (p : Nat) (c : Code) : (s.noteCode p c).adc = s.adc := rfl
@[simp] theorem State.noteCode_net (s : State) (p : Nat) (c : Code) : (s.noteCode p c).net = s.net := rfl
@[simp] theorem State.noteCode_acq (s : State) (p : Nat) (c : Code) : (s.noteCode p c).acq = s.acq := rfl
@[simp] theorem State.noteCode_clk (s : State) (p : Nat) (c : Code) : (s.noteCode p c).clk = s.clk := rfl
@[simp] theorem State.noteCode_thm (s : State) (p : Nat) (c : Code) : (s.noteCode p c).thm = s.thm := rfl
@[simp] theorem State.noteCode_mram (s : State) (p : Nat) (c : Code) : (s.noteCode p c).mram = s.mram := rfl
@[simp] theorem State.noteCode_flash (s : State) (p : Nat) (c : Code) : (s.noteCode p c).flash = s.flash := rfl
@[simp] theorem State.noteCode_dram (s : State) (p : Nat) (c : Code) : (s.noteCode p c).dram = s.dram := rfl
@[simp] theorem State.noteCode_ct (s : State) (p : Nat) (c : Code) : (s.noteCode p c).ct = s.ct := rfl
@[simp] theorem State.noteCode_bnd (s : State) (p : Nat) (c : Code) : (s.noteCode p c).bnd = s.bnd := rfl
@[simp] theorem State.noteCode_period (s : State) (p : Nat) (c : Code) : (s.noteCode p c).period = s.period := rfl
@[simp] theorem State.noteCode_free (s : State) (p : Nat) (c : Code) : (s.noteCode p c).free = s.free := rfl
@[simp] theorem State.noteCode_pending (s : State) (p : Nat) (c : Code) : (s.noteCode p c).pending = s.pending := rfl
@[simp] theorem State.noteCode_lane (s : State) (p : Nat) (c : Code) (n : Nat) : (s.noteCode p c).lane n = s.lane n := rfl
@[simp] theorem State.noteCode_cell (s : State) (p : Nat) (c : Code) (n : Nat) : (s.noteCode p c).cell n = s.cell n := rfl
@[simp] theorem State.noteCode_chan (s : State) (p : Nat) (c : Code) (n : Nat) : (s.noteCode p c).chan n = s.chan n := rfl

@[simp] theorem State.refreeze_regs (s : State) (p : Nat) : (s.refreeze p).regs = s.regs := rfl
@[simp] theorem State.refreeze_evt (s : State) (p : Nat) : (s.refreeze p).evt = s.evt := rfl
@[simp] theorem State.refreeze_otp (s : State) (p : Nat) : (s.refreeze p).otp = s.otp := rfl
@[simp] theorem State.refreeze_nv (s : State) (p : Nat) : (s.refreeze p).nv = s.nv := rfl
@[simp] theorem State.refreeze_aon (s : State) (p : Nat) : (s.refreeze p).aon = s.aon := rfl
@[simp] theorem State.refreeze_pins (s : State) (p : Nat) : (s.refreeze p).pins = s.pins := rfl
@[simp] theorem State.refreeze_boot (s : State) (p : Nat) : (s.refreeze p).boot = s.boot := rfl
@[simp] theorem State.refreeze_sec (s : State) (p : Nat) : (s.refreeze p).sec = s.sec := rfl
@[simp] theorem State.refreeze_img (s : State) (p : Nat) : (s.refreeze p).img = s.img := rfl
@[simp] theorem State.refreeze_lanes (s : State) (p : Nat) : (s.refreeze p).lanes = s.lanes := rfl
@[simp] theorem State.refreeze_cells (s : State) (p : Nat) : (s.refreeze p).cells = s.cells := rfl
@[simp] theorem State.refreeze_groups (s : State) (p : Nat) : (s.refreeze p).groups = s.groups := rfl
@[simp] theorem State.refreeze_budget (s : State) (p : Nat) : (s.refreeze p).budget = s.budget := rfl
@[simp] theorem State.refreeze_ce (s : State) (p : Nat) : (s.refreeze p).ce = s.ce := rfl
@[simp] theorem State.refreeze_chans (s : State) (p : Nat) : (s.refreeze p).chans = s.chans := rfl
@[simp] theorem State.refreeze_gdi (s : State) (p : Nat) : (s.refreeze p).gdi = s.gdi := rfl
@[simp] theorem State.refreeze_pump (s : State) (p : Nat) : (s.refreeze p).pump = s.pump := rfl
@[simp] theorem State.refreeze_red (s : State) (p : Nat) : (s.refreeze p).red = s.red := rfl
@[simp] theorem State.refreeze_saf (s : State) (p : Nat) : (s.refreeze p).saf = s.saf := rfl
@[simp] theorem State.refreeze_time (s : State) (p : Nat) : (s.refreeze p).time = s.time := rfl
@[simp] theorem State.refreeze_adc (s : State) (p : Nat) : (s.refreeze p).adc = s.adc := rfl
@[simp] theorem State.refreeze_net (s : State) (p : Nat) : (s.refreeze p).net = s.net := rfl
@[simp] theorem State.refreeze_acq (s : State) (p : Nat) : (s.refreeze p).acq = s.acq := rfl
@[simp] theorem State.refreeze_clk (s : State) (p : Nat) : (s.refreeze p).clk = s.clk := rfl
@[simp] theorem State.refreeze_thm (s : State) (p : Nat) : (s.refreeze p).thm = s.thm := rfl
@[simp] theorem State.refreeze_mram (s : State) (p : Nat) : (s.refreeze p).mram = s.mram := rfl
@[simp] theorem State.refreeze_flash (s : State) (p : Nat) : (s.refreeze p).flash = s.flash := rfl
@[simp] theorem State.refreeze_dram (s : State) (p : Nat) : (s.refreeze p).dram = s.dram := rfl
@[simp] theorem State.refreeze_ct (s : State) (p : Nat) : (s.refreeze p).ct = s.ct := rfl
@[simp] theorem State.refreeze_bnd (s : State) (p : Nat) : (s.refreeze p).bnd = s.bnd := rfl
@[simp] theorem State.refreeze_period (s : State) (p : Nat) : (s.refreeze p).period = s.period := rfl
@[simp] theorem State.refreeze_free (s : State) (p : Nat) : (s.refreeze p).free = s.free := rfl
@[simp] theorem State.refreeze_pending (s : State) (p : Nat) : (s.refreeze p).pending = s.pending := rfl
@[simp] theorem State.refreeze_rd (s : State) (p b : Nat) : (s.refreeze p).rd b = s.rd b := rfl
@[simp] theorem State.refreeze_get (s : State) (p : Nat) (f : Fld) (i j : Nat) : (s.refreeze p).get f i j = s.get f i j := rfl

/-! ### A G2 pair -/

/-- A G2 register: word `a` is instance (i, j) of row `r` and the next word its complement. -/
def g2Row (a : Nat) (r : Row) (i j : Nat) : Bool :=
  a % 4 == 0 && (blockOf a).isSome && blockOf a != some .window && (complOf a).isNone && findRow a == some (r, i, j) &&
  !(decide (0x48000 ≤ a) && decide (a ≤ 0x5FFFF)) && r.base != R.SYS_THAW.base && r.writable && r.guarded .g2 &&
  (blockOf (a + 4)).isSome && blockOf (a + 4) != some .window && complOf (a + 4) == some (r, i, j)

/-- A value and its complement from one path come to what the register takes, in the state the first word's status leaves (R69). -/
theorem State.Ready.pairWrite (h : s.Ready path) (hc : g2Row a r i j = true) :
    s.pairWrite path a v (~~~ v) =
      (((s.noteCode path .ok).takeWrite path a v r i j).1.noteRefused (a + 4) ((s.noteCode path .ok).takeWrite path a v r i j).2).noteCode
        path ((s.noteCode path .ok).takeWrite path a v r i j).2 := by
  simp only [g2Row, Bool.and_eq_true, beq_iff_eq, bne_iff_ne, ne_eq, Bool.not_eq_true', Bool.and_eq_false_iff,
    decide_eq_false_iff_not, Option.isNone_iff_eq_none] at hc
  obtain ⟨⟨⟨⟨⟨⟨⟨⟨⟨⟨⟨h4, hb⟩, hn1⟩, hn⟩, hr⟩, ho⟩, ht⟩, hwr⟩, hg⟩, hb'⟩, hn'⟩, hx⟩ := hc
  have hni : s.noInst a = false := by
    simp only [State.noInst, Bool.and_eq_false_iff, decide_eq_false_iff_not]
    rcases ho with e | e
    · exact .inl (.inl e)
    · exact .inl (.inr e)
  have hfw : s.fixedWord a = false := by
    simp only [State.fixedWord, Bool.and_eq_false_iff, decide_eq_false_iff_not]
    rcases ho with e | e
    · exact .inl (.inl (.inl e))
    · exact .inl (.inl (.inr e))
  have h1 : s.pathWrite path a v =
      ({ s with bus := { s.bus with g2 := some ⟨path, a, v⟩ } } : State).noteCode path .ok := by
    simp [State.pathWrite, h.on, h.mustWait, State.busWrite, h.g2, State.checkWrite, h.clean, h.shut hb, h4, hn1, hn, State.rowAt, hni, hr, ht,
      h.writeShut, hwr, hfw, State.guardWrite, hg]
  let u : State := ({ s with bus := { s.bus with g2 := some ⟨path, a, v⟩ } } : State).noteCode path .ok
  have e1 : u.get F.SEC_STATE_HSTATE = s.get F.SEC_STATE_HSTATE := State.get_noteCode _ _ _ _ _ _ (by decide)
  have e2 : u.get F.RED_STAT_ROLE = s.get F.RED_STAT_ROLE := State.get_noteCode _ _ _ _ _ _ (by decide)
  have on : u.pathOn path = true := State.noteCode_pathOn.trans h.on
  have cl : u.poisoned path = false := State.noteCode_poisoned.trans h.clean
  have sh : u.shut (a + 4) = false := by
    have := h.shut hb'
    simp only [State.shut, e1] at this ⊢
    exact this
  have ws : u.writeShut r = false := by
    have := h.writeShut (r := r)
    simp only [State.writeShut, State.isStandby, State.role, e1, e2] at this ⊢
    exact this
  have mw : u.mustWait path (a + 4) = false := by
    have e : u.regFull = false := State.noteCode_regFull.trans h.room.1
    have e' : u.bus.waiting = [] := h.room.2
    simp [State.mustWait, e, e']
  have hz : ({ u with bus := { u.bus with g2 := none } } : State) = s.noteCode path .ok := by
    have := h.g2
    obtain ⟨regs, evt, bus⟩ := s
    cases bus
    simp_all [u, State.noteCode, State.wr, State.rd]
  have h2 : u.bus.g2 = some ⟨path, a, v⟩ := rfl
  rw [State.pairWrite, h1]
  change u.pathWrite path (a + 4) (~~~ v) = _
  simp [State.pathWrite, on, mw, State.busWrite, h2, State.checkWrite, cl, sh, show (a + 4) % 4 = 0 by omega, hn', hx, ws,
    State.complWrite, hz]

/-- A write that is refused, that no later apply point takes or that a transaction takes crosses to no island, so parity is no matter. -/
theorem State.badCrossing_eq (h : (s.busWrite path a v).2 ≠ .ok ∨ s.crosses path a = false) :
    s.badCrossing path a v = (s.busWrite path a v).1 := by
  unfold State.badCrossing
  rcases h with h | h <;> simp [h]

theorem execRegisterWrite_parity {p : Path} {addr : Word} {par : Bool}
    (h : (s.busWrite p addr.toNat v).2 ≠ .ok ∨ s.crosses p addr.toNat = false) :
    execRegisterWrite p addr v par s = (s.pathWrite p addr.toNat v).done := by
  unfold execRegisterWrite
  split
  · rename_i hp
    rw [State.badCrossing_eq h, State.pathWrite, if_pos hp.2.1, if_neg hp.2.2]
  · rfl

end Sys2Proof.Machine
end

