-- ==== Sys2Proof/Laws/KeepsOps.lean ====
section
/-! SUPPORT. What an operation keeps: the canonical form of the register files and memories, the queue, the flash and the fuses, and
the clock and image fields. One lemma for every operation of the model. -/

namespace Sys2Proof.Machine

/-- What the operations keep from `a` to `s`. At level 0 the canonical form and the queue, at level 1 the flash and the fuses too, at
level 2 also the clocks, the image and the pins. -/
structure Keeps (n : Nat) (a s : State) : Prop where
  canon : a.Canon → s.Canon
  pending : s.pending = a.pending
  store : 1 ≤ n → s.flash = a.flash ∧ s.otp = a.otp
  clock : 2 ≤ n → s.ct = a.ct ∧ s.bnd = a.bnd ∧ s.period = a.period ∧ s.img = a.img ∧ s.pins = a.pins

/-- The same for an operation that also answers something. -/
def KeepsP {β : Type} (n : Nat) (a : State) (p : State × β) : Prop := Keeps n a p.1

/-- The register file of the EVT block stays canonical. -/
def EvKeeps (a e : Evt) : Prop := Sparse.wf resetWord a.regs = true → Sparse.wf resetWord e.regs = true

/-- The same for an operation that also answers something. -/
def EvKeepsP {β : Type} (b : Evt) (p : Evt × β) : Prop := EvKeeps b p.1

variable {n : Nat} {a s : State} {β : Type}

theorem Keeps.refl (n : Nat) (s : State) : Keeps n s s :=
  ⟨id, rfl, fun _ => ⟨rfl, rfl⟩, fun _ => ⟨rfl, rfl, rfl, rfl, rfl⟩⟩

theorem Keeps.mono {m : Nat} (hm : m ≤ n) (h : Keeps n a s) : Keeps m a s :=
  ⟨h.canon, h.pending, fun k => h.store (Nat.le_trans k hm), fun k => h.clock (Nat.le_trans k hm)⟩

theorem Keeps.trans {b c : State} (h : Keeps n a b) (g : Keeps n b c) : Keeps n a c :=
  ⟨fun x => g.canon (h.canon x), g.pending.trans h.pending,
    fun k => ⟨(g.store k).1.trans (h.store k).1, (g.store k).2.trans (h.store k).2⟩,
    fun k =>
      let x := h.clock k
      let y := g.clock k
      ⟨y.1.trans x.1, y.2.1.trans x.2.1, y.2.2.1.trans x.2.2.1, y.2.2.2.1.trans x.2.2.2.1, y.2.2.2.2.trans x.2.2.2.2⟩⟩

theorem EvKeeps.refl (e : Evt) : EvKeeps e e := id

theorem EvKeeps.lit {b e : Evt} {bk fa q ch br wo rr ra de dh oc nl no} (h : EvKeeps b e) :
    EvKeeps b (Evt.mk e.regs bk fa q ch br wo rr ra de dh oc nl no) := h

theorem EvKeeps.ite {b x y : Evt} {c : Prop} [Decidable c] (hx : EvKeeps b x) (hy : EvKeeps b y) :
    EvKeeps b (if c then x else y) := by split <;> assumption

theorem EvKeeps.foldl {α : Type} {b e : Evt} {f : Evt → α → Evt} {l : List α}
    (hf : ∀ t x, EvKeeps b t → EvKeeps b (f t x)) (h : EvKeeps b e) : EvKeeps b (l.foldl f e) := by
  induction l generalizing e with
  | nil => exact h
  | cons x l ih => exact ih (hf e x h)

theorem EvKeeps.of_fst {b e : Evt} {p : Evt × β} {c : β} (h : EvKeepsP b p) (e' : p = (e, c)) : EvKeeps b e := by
  rw [e'] at h; exact h

theorem EvKeepsP.fst {b : Evt} {p : Evt × β} (h : EvKeepsP b p) : EvKeeps b p.1 := h

theorem EvKeepsP.mk {b e : Evt} {c : β} (h : EvKeeps b e) : EvKeepsP b (e, c) := h

theorem EvKeepsP.ite {b : Evt} {p q : Evt × β} {c : Prop} [Decidable c] (hp : EvKeepsP b p) (hq : EvKeepsP b q) :
    EvKeepsP b (if c then p else q) := by split <;> assumption

/-- A record update that leaves the kept fields, with an EVT block that stays canonical. -/
theorem Keeps.lit {y : State} {E bus nv aon boot sec lanes cells groups budget ce chans gdi pump red saf time adc net acq clk thm free cR cE}
    (h : Keeps n a y) (hE : EvKeeps y.evt E) :
    Keeps n a (State.mk y.regs E bus y.otp nv aon y.pins boot sec y.img lanes cells groups budget ce chans gdi pump red saf time adc net
      acq clk thm y.mram y.flash y.dram y.ct y.bnd y.period free y.pending cR cE) :=
  ⟨fun c => let d := h.canon c; ⟨d.regs, hE d.evt, d.mram, d.flash, d.dram⟩, h.pending, h.store, h.clock⟩

/-- A record update that leaves the register files, the memories, the fuses and the queue. -/
theorem Keeps.lit1 {y : State} {E bus nv aon pins boot sec img lanes cells groups budget ce chans gdi pump red saf time adc net acq
    clk thm ct bnd period free cR cE} (h : Keeps 1 a y) (hE : EvKeeps y.evt E) :
    Keeps 1 a (State.mk y.regs E bus y.otp nv aon pins boot sec img lanes cells groups budget ce chans gdi pump red saf time adc net
      acq clk thm y.mram y.flash y.dram ct bnd period free y.pending cR cE) :=
  ⟨fun c => let d := h.canon c; ⟨d.regs, hE d.evt, d.mram, d.flash, d.dram⟩, h.pending, h.store, fun k => absurd k (by decide)⟩

/-- A record update that leaves the register files, the memories and the queue. -/
theorem Keeps.lit0 {y : State} {E bus otp nv aon pins boot sec img lanes cells groups budget ce chans gdi pump red saf time adc net
    acq clk thm ct bnd period free cR cE} (h : Keeps 0 a y) (hE : EvKeeps y.evt E) :
    Keeps 0 a (State.mk y.regs E bus otp nv aon pins boot sec img lanes cells groups budget ce chans gdi pump red saf time adc net
      acq clk thm y.mram y.flash y.dram ct bnd period free y.pending cR cE) :=
  ⟨fun c => let d := h.canon c; ⟨d.regs, hE d.evt, d.mram, d.flash, d.dram⟩, h.pending, fun k => absurd k (by decide),
    fun k => absurd k (by decide)⟩

theorem Keeps.ite {x y : State} {c : Prop} [Decidable c] (hx : Keeps n a x) (hy : Keeps n a y) :
    Keeps n a (if c then x else y) := by split <;> assumption

theorem Keeps.foldl {α : Type} {f : State → α → State} {l : List α} (hf : ∀ t x, Keeps n a t → Keeps n a (f t x))
    (h : Keeps n a s) : Keeps n a (l.foldl f s) := by
  induction l generalizing s with
  | nil => exact h
  | cons x l ih => exact ih (hf s x h)

theorem Keeps.foldlP {α : Type} {γ : Type} {f : State × γ → α → State × γ} {l : List α} {p : State × γ}
    (hf : ∀ t x, KeepsP n a t → KeepsP n a (f t x)) (h : KeepsP n a p) : KeepsP n a (l.foldl f p) := by
  induction l generalizing p with
  | nil => exact h
  | cons x l ih => exact ih (hf p x h)

theorem Keeps.of_fst {p : State × β} {c : β} (h : KeepsP n a p) (e : p = (s, c)) : Keeps n a s := by
  rw [e] at h; exact h

theorem KeepsP.fst {p : State × β} (h : KeepsP n a p) : Keeps n a p.1 := h

theorem KeepsP.mk {c : β} (h : Keeps n a s) : KeepsP n a (s, c) := h

theorem KeepsP.ite {p q : State × β} {c : Prop} [Decidable c] (hp : KeepsP n a p) (hq : KeepsP n a q) :
    KeepsP n a (if c then p else q) := by split <;> assumption

/-- The same for an operation that may answer no state. -/
def KeepsO (n : Nat) (a : State) (o : Option State) : Prop := ∀ t, o = some t → Keeps n a t

/-- The same for an operation that may answer a value and a state. -/
def KeepsOP {β : Type} (n : Nat) (a : State) (o : Option (β × State)) : Prop := ∀ p t, o = some (p, t) → Keeps n a t

theorem KeepsO.none : KeepsO n a none := fun _ e => nomatch e

theorem KeepsO.some (h : Keeps n a s) : KeepsO n a (some s) := fun _ e => Option.some.inj e ▸ h

theorem KeepsO.ite {x y : Option State} {c : Prop} [Decidable c] (hx : KeepsO n a x) (hy : KeepsO n a y) :
    KeepsO n a (if c then x else y) := by split <;> assumption

theorem KeepsOP.none : KeepsOP (β := β) n a none := fun _ _ e => nomatch e

theorem KeepsOP.some {c : β} (h : Keeps n a s) : KeepsOP n a (some (c, s)) := by
  intro p t e
  injection e with e
  injection e with _ e
  exact e ▸ h

theorem KeepsOP.ite {x y : Option (β × State)} {c : Prop} [Decidable c] (hx : KeepsOP n a x) (hy : KeepsOP n a y) :
    KeepsOP n a (if c then x else y) := by split <;> assumption

/-- The same for an operation that may fail. -/
def KeepsX {ε : Type} (n : Nat) (a : State) (o : Except ε State) : Prop := ∀ t, o = .ok t → Keeps n a t

/-- The same for an operation that may fail, or answers a value and a state. -/
def KeepsXP {ε : Type} (n : Nat) (a : State) (o : Except ε (β × State)) : Prop := ∀ p t, o = .ok (p, t) → Keeps n a t

theorem KeepsX.error {ε : Type} {e : ε} : KeepsX n a (.error e) := fun _ h => nomatch h

theorem KeepsX.ok {ε : Type} (h : Keeps n a s) : KeepsX n a (.ok s : Except ε State) := fun _ e => Except.ok.inj e ▸ h

theorem KeepsXP.error {ε : Type} {e : ε} : KeepsXP (β := β) n a (.error e) := fun _ _ h => nomatch h

theorem KeepsXP.ok {ε : Type} {c : β} (h : Keeps n a s) : KeepsXP n a (.ok (c, s) : Except ε (β × State)) := by
  intro p t e
  injection e with e
  injection e with _ e
  exact e ▸ h

theorem Keeps.of_ok {ε : Type} {o : Except ε State} (h : KeepsX n a o) (e : o = .ok s) : Keeps n a s := h _ e

theorem Keeps.of_okP {ε : Type} {o : Except ε (β × State)} {c : β} (h : KeepsXP n a o) (e : o = .ok (c, s)) : Keeps n a s :=
  h _ _ e

theorem KeepsOP.map {α : Type} {o : Option α} {f : α → β × State} (h : ∀ x, Keeps n a (f x).2) : KeepsOP n a (o.map f) := by
  intro p t e
  obtain ⟨x, _, hx⟩ := Option.map_eq_some_iff.mp e
  have := h x
  rw [hx] at this
  exact this

theorem Keeps.of_some {o : Option State} (h : KeepsO n a o) (e : o = Option.some s) : Keeps n a s := h _ e

theorem Keeps.of_someP {o : Option (β × State)} {c : β} (h : KeepsOP n a o) (e : o = Option.some (c, s)) : Keeps n a s := h _ _ e

theorem Evt.wr_keeps {b e : Evt} (h : EvKeeps b e) (x : Nat) (v : Word) : EvKeeps b (e.wr x v) :=
  fun w => Sparse.wf_set _ _ _ (h w)

theorem State.wr_keeps (h : Keeps n a s) (x : Nat) (v : Word) : Keeps n a (s.wr x v) :=
  ⟨fun c => let d := h.canon c; ⟨Sparse.wf_set _ _ _ d.regs, d.evt, d.mram, d.flash, d.dram⟩, h.pending, h.store, h.clock⟩

theorem State.mramPut_keeps (h : Keeps n a s) (x : Nat) (bs : List Byte) : Keeps n a (s.mramPut x bs) :=
  ⟨fun c => let d := h.canon c; ⟨d.regs, d.evt, Sparse.wf_setRun _ _ _ _ d.mram, d.flash, d.dram⟩, h.pending, h.store, h.clock⟩

theorem State.dramPut_keeps (h : Keeps n a s) (x : Nat) (bs : List Byte) : Keeps n a (s.dramPut x bs) :=
  ⟨fun c => let d := h.canon c; ⟨d.regs, d.evt, d.mram, d.flash, Sparse.wf_setRun _ _ _ _ d.dram⟩, h.pending, h.store, h.clock⟩

/-- Dropping bytes of the capture memory keeps the canonical form. -/
theorem Keeps.dramFilter {s : State} (h : Keeps n a s) (p : Nat × Byte → Bool) :
    Keeps n a { s with dram := s.dram.filter p } :=
  ⟨fun c => let d := h.canon c; ⟨d.regs, d.evt, d.mram, d.flash, Sparse.wfFrom_filter _ _ d.dram⟩, h.pending, h.store, h.clock⟩

theorem State.flashPut_keeps (h : Keeps 0 a s) (x : Nat) (bs : List Byte) : Keeps 0 a (s.flashPut x bs) :=
  ⟨fun c => let d := h.canon c; ⟨d.regs, d.evt, d.mram, Sparse.wf_setRun _ _ _ _ d.flash, d.dram⟩, h.pending,
    fun k => absurd k (by decide), fun k => absurd k (by decide)⟩

theorem State.put_keeps {κ : Nat} {ζ s : State} (hk : Keeps κ ζ s) (f : Fld) (v : Nat) (i : Nat) (j : Nat) :
    Keeps κ ζ (State.put s f v i j) := by
  unfold State.put
  repeat' with_reducible (first | assumption | apply State.wr_keeps)

theorem State.putS_keeps {κ : Nat} {ζ s : State} (hk : Keeps κ ζ s) (f : Fld) (v : Int) (i : Nat) (j : Nat) :
    Keeps κ ζ (State.putS s f v i j) := by
  unfold State.putS
  repeat' with_reducible (first | assumption | apply State.put_keeps)

theorem State.putB_keeps {κ : Nat} {ζ s : State} (hk : Keeps κ ζ s) (f : Fld) (b : Bool) (i : Nat) (j : Nat) :
    Keeps κ ζ (State.putB s f b i j) := by
  unfold State.putB
  repeat' with_reducible (first | assumption | apply State.put_keeps)

theorem State.putBit_keeps {κ : Nat} {ζ s : State} (hk : Keeps κ ζ s) (f : Fld) (b : Nat) (v : Bool) (i : Nat) (j : Nat) :
    Keeps κ ζ (State.putBit s f b v i j) := by
  unfold State.putBit
  repeat' with_reducible (first | assumption | apply State.put_keeps)

theorem Evt.put_keeps {ζ e : Evt} (hk : EvKeeps ζ e) (f : Fld) (v : Nat) (i : Nat) :
    EvKeeps ζ (Evt.put e f v i) := by
  unfold Evt.put
  repeat' with_reducible (first | assumption | apply Evt.wr_keeps)

theorem State.setLane_keeps {κ : Nat} {ζ s : State} (hk : Keeps κ ζ s) (l : Nat) (x : Lane) :
    Keeps κ ζ (State.setLane s l x) := by
  unfold State.setLane
  try dsimp only
  repeat' with_reducible (first | assumption | apply EvKeeps.refl | apply Keeps.lit)

theorem State.setCell_keeps {κ : Nat} {ζ s : State} (hk : Keeps κ ζ s) (c : Nat) (x : Cell) :
    Keeps κ ζ (State.setCell s c x) := by
  unfold State.setCell
  try dsimp only
  repeat' with_reducible (first | assumption | apply EvKeeps.refl | apply Keeps.lit)

theorem State.setChan_keeps {κ : Nat} {ζ s : State} (hk : Keeps κ ζ s) (n : Nat) (x : Chan) :
    Keeps κ ζ (State.setChan s n x) := by
  unfold State.setChan
  try dsimp only
  repeat' with_reducible (first | assumption | apply EvKeeps.refl | apply Keeps.lit)

theorem State.pulse_keeps {κ : Nat} {ζ s : State} (hk : Keeps κ ζ s) (ev : Nat) (c0 : Nat) (c1 : Nat) :
    Keeps κ ζ (State.pulse s ev c0 c1) := by
  unfold State.pulse
  repeat' with_reducible (first | assumption | apply EvKeeps.refl | apply Keeps.lit | apply EvKeeps.lit)

theorem State.xingBad_keeps {κ : Nat} {ζ s : State} (hk : Keeps κ ζ s) :
    Keeps κ ζ (State.xingBad s) := by
  unfold State.xingBad
  repeat' with_reducible (first | assumption | apply State.pulse_keeps)

theorem Evt.setActive_keeps {ζ e : Evt} (hk : EvKeeps ζ e) (ev : Nat) (b : Bool) :
    EvKeeps ζ (Evt.setActive e ev b) := by
  unfold Evt.setActive
  repeat' with_reducible (first | assumption | apply Evt.put_keeps)

theorem State.raise_keeps {κ : Nat} {ζ s : State} (hk : Keeps κ ζ s) (ev : Nat) (c0 : Nat) (c1 : Nat) :
    Keeps κ ζ (State.raise s ev c0 c1) := by
  unfold State.raise
  try dsimp only
  repeat' with_reducible (first | assumption | apply EvKeeps.refl | apply State.pulse_keeps | apply Evt.setActive_keeps | apply Keeps.lit)

theorem Evt.startHold_keeps {ζ e : Evt} (hk : EvKeeps ζ e) (ev ct : Nat) :
    EvKeeps ζ (Evt.startHold e ev ct) := by
  unfold Evt.startHold
  try dsimp only
  repeat' with_reducible (first | assumption | apply EvKeepsP.fst | apply EvKeeps.lit)

theorem State.clearAct_keeps {κ : Nat} {ζ s : State} (hk : Keeps κ ζ s) (ev : Nat) :
    Keeps κ ζ (State.clearAct s ev) := by
  unfold State.clearAct
  try dsimp only
  repeat' with_reducible (first | assumption | apply EvKeeps.refl | apply Keeps.ite | apply Evt.setActive_keeps | apply Evt.startHold_keeps | apply EvKeeps.ite | apply Keeps.lit)

theorem State.follow_keeps {κ : Nat} {ζ s : State} (hk : Keeps κ ζ s) (ev : Nat) (cond : Bool) (c0 : Nat) (c1 : Nat) :
    Keeps κ ζ (State.follow s ev cond c0 c1) := by
  unfold State.follow
  repeat' with_reducible (first | assumption | apply Keeps.ite | apply State.raise_keeps | apply State.clearAct_keeps)

theorem State.errInc_keeps {κ : Nat} {ζ s : State} (hk : Keeps κ ζ s) (f : Fld) (entry : Nat) (i : Nat) (j : Nat) :
    Keeps κ ζ (State.errInc s f entry i j) := by
  unfold State.errInc
  try dsimp only
  repeat' with_reducible (first | assumption | apply Keeps.ite | apply State.put_keeps | apply State.pulse_keeps)

theorem State.errIncBy_keeps {κ : Nat} {ζ s : State} (hk : Keeps κ ζ s) (f : Fld) (entry n : Nat) (i : Nat) (j : Nat) :
    Keeps κ ζ (State.errIncBy s f entry n i j) := by
  unfold State.errIncBy
  try dsimp only
  repeat' with_reducible (first | assumption | apply State.errInc_keeps | refine Keeps.foldl (fun _ _ _ => ?_) ?_)

theorem State.wrapInc_keeps {κ : Nat} {ζ s : State} (hk : Keeps κ ζ s) (f : Fld) (i : Nat) (j : Nat) :
    Keeps κ ζ (State.wrapInc s f i j) := by
  unfold State.wrapInc
  repeat' with_reducible (first | assumption | apply State.put_keeps)

theorem State.satIncF_keeps {κ : Nat} {ζ s : State} (hk : Keeps κ ζ s) (f : Fld) (i : Nat) (j : Nat) :
    Keeps κ ζ (State.satIncF s f i j) := by
  unfold State.satIncF
  repeat' with_reducible (first | assumption | apply State.put_keeps)

theorem Evt.pushLog_keeps {ζ e : Evt} (hk : EvKeeps ζ e) (st : Stamp) (ev react typ sup : Nat) (c0 c1 : Word) :
    EvKeepsP ζ (Evt.pushLog e st ev react typ sup c0 c1) := by
  unfold Evt.pushLog
  try dsimp only
  repeat' with_reducible (first | assumption | apply EvKeeps.ite | apply EvKeepsP.ite | apply Evt.put_keeps | apply EvKeepsP.mk | apply EvKeeps.lit)

theorem Evt.setBucket_keeps {ζ e : Evt} (hk : EvKeeps ζ e) (ev : Nat) (b : Bucket) :
    EvKeeps ζ (Evt.setBucket e ev b) := by
  unfold Evt.setBucket
  try dsimp only
  repeat' with_reducible (first | assumption | apply EvKeeps.lit)

theorem Evt.logOccurrence_keeps {ζ e : Evt} (hk : EvKeeps ζ e) (st : Stamp) (ev react : Nat) (c0 c1 : Word) :
    EvKeepsP ζ (Evt.logOccurrence e st ev react c0 c1) := by
  unfold Evt.logOccurrence
  try dsimp only
  repeat' with_reducible (first | assumption | apply EvKeeps.ite | apply EvKeepsP.ite | apply Evt.setBucket_keeps | apply Evt.pushLog_keeps | apply EvKeepsP.mk | apply EvKeeps.lit)

theorem Evt.count_keeps {ζ e : Evt} (hk : EvKeeps ζ e) (ev : Nat) :
    EvKeepsP ζ (Evt.count e ev) := by
  unfold Evt.count
  try dsimp only
  repeat' with_reducible (first | assumption | apply EvKeeps.ite | apply EvKeepsP.ite | apply Evt.put_keeps | apply EvKeepsP.mk | apply EvKeeps.lit)

theorem Evt.noteOcc_keeps {ζ e : Evt} (hk : EvKeeps ζ e) (ev : Nat) :
    EvKeeps ζ (Evt.noteOcc e ev) := by
  unfold Evt.noteOcc
  repeat' with_reducible (first | assumption | apply EvKeeps.lit)

theorem Evt.react_keeps {ζ e : Evt} (hk : EvKeeps ζ e) (st : Stamp) (ev : Nat) (c0 c1 : Word) :
    EvKeepsP ζ (Evt.react e st ev c0 c1) := by
  unfold Evt.react
  try dsimp only
  repeat' with_reducible (first | assumption | apply EvKeeps.ite | apply EvKeepsP.ite | apply Evt.logOccurrence_keeps | apply Evt.put_keeps | apply Evt.startHold_keeps | refine EvKeeps.of_fst ?_ (by assumption) | apply EvKeepsP.fst | split | apply EvKeepsP.mk | apply EvKeeps.lit)

theorem Evt.occurAt_keeps {ζ e : Evt} (hk : EvKeeps ζ e) (st : Stamp) (n ev : Nat) (c0 c1 : Word) :
    EvKeeps ζ (Evt.occurAt st n e ev c0 c1) := by
  induction n generalizing e ev c0 c1 with
  | zero => exact hk
  | succ n ih =>
    unfold Evt.occurAt
    refine EvKeeps.ite ?_ hk
    have h1 := Evt.count_keeps (Evt.noteOcc_keeps hk ev) ev
    dsimp only
    have h2 : EvKeeps ζ (if ((e.noteOcc ev).count ev).2 = true then
        Evt.occurAt st n ((e.noteOcc ev).count ev).1 Ev.EVT_CNT_OVF (BitVec.ofNat 32 ev) 0 else ((e.noteOcc ev).count ev).1) :=
      EvKeeps.ite (ih (EvKeepsP.fst h1) _ _ _) (EvKeepsP.fst h1)
    have h3 := Evt.react_keeps h2 st ev c0 c1
    exact EvKeeps.ite (ih (EvKeepsP.fst h3) _ _ _) (EvKeepsP.fst h3)

theorem Evt.occur_keeps {ζ e : Evt} (hk : EvKeeps ζ e) (st : Stamp) (ev : Nat) (c0 c1 : Word) :
    EvKeeps ζ (Evt.occur e st ev c0 c1) := Evt.occurAt_keeps hk st 8 ev c0 c1

theorem Evt.logDrop_keeps {ζ e : Evt} (hk : EvKeeps ζ e) (st : Stamp) :
    EvKeeps ζ (Evt.logDrop e st) := by
  unfold Evt.logDrop
  repeat' with_reducible (first | assumption | apply Evt.occur_keeps)

theorem State.countRaised_keeps {κ : Nat} {ζ s : State} (hk : Keeps κ ζ s) :
    Keeps κ ζ (State.countRaised s) := by
  unfold State.countRaised
  try dsimp only
  repeat' with_reducible (first | assumption | apply EvKeeps.refl | apply Evt.occur_keeps | refine Keeps.foldl (fun _ _ _ => ?_) ?_ | refine Keeps.foldlP (fun _ _ _ => ?_) ?_ | refine EvKeeps.foldl (fun _ _ _ => ?_) ?_ | apply KeepsP.fst | apply EvKeepsP.fst | apply KeepsP.mk | apply Keeps.lit | apply EvKeeps.lit)

end Sys2Proof.Machine
end

