-- ==== Sys2Proof/Laws/KeepsLvsOps.lean ====
section
/-! SUPPORT. What each operation of Machine/LvsOps.lean keeps. -/

namespace Sys2Proof.Machine

theorem State.rejectCt_keeps {κ : Nat} {ζ s : State} (hk : Keeps κ ζ s) (n : Nat) :
    Keeps κ ζ (State.rejectCt s n) := by
  unfold State.rejectCt
  try dsimp only
  repeat' with_reducible (first | assumption | apply EvKeeps.refl | apply State.put_keeps | apply State.errInc_keeps | apply State.setChan_keeps | apply State.pulse_keeps | apply Keeps.lit)

theorem State.setPins_keeps {κ : Nat} {ζ s : State} (hk : Keeps κ ζ s) (n : Nat) (h l : Bool) :
    Keeps κ ζ (State.setPins s n h l) := by
  unfold State.setPins
  try dsimp only
  repeat' with_reducible (first | assumption | apply EvKeeps.refl | apply Keeps.ite | apply State.setChan_keeps | apply State.putB_keeps | apply EvKeeps.ite | apply Keeps.lit)

theorem State.refresh_keeps {κ : Nat} {ζ s : State} (hk : Keeps κ ζ s) (n : Nat) :
    Keeps κ ζ (State.refresh s n) := by
  unfold State.refresh
  try dsimp only
  repeat' with_reducible (first | assumption | apply EvKeeps.refl | apply Keeps.ite | apply KeepsP.ite | apply State.rejectCt_keeps | apply State.setChan_keeps | apply State.setPins_keeps | apply State.putB_keeps | apply State.putBit_keeps | apply EvKeeps.ite | refine Keeps.of_fst ?_ (by assumption) | apply KeepsP.fst | split | apply KeepsP.mk | apply Keeps.lit)

theorem State.refreshAll_keeps {κ : Nat} {ζ s : State} (hk : Keeps κ ζ s) :
    Keeps κ ζ (State.refreshAll s) := by
  unfold State.refreshAll
  repeat' with_reducible (first | assumption | apply State.refresh_keeps | refine Keeps.foldl (fun _ _ _ => ?_) ?_)

theorem State.dropChan_keeps {κ : Nat} {ζ s : State} (hk : Keeps κ ζ s) (n : Nat) :
    Keeps κ ζ (State.dropChan s n) := by
  unfold State.dropChan
  repeat' with_reducible (first | assumption | apply EvKeeps.refl | apply State.setChan_keeps | apply Keeps.lit)

theorem State.dropScope_keeps {κ : Nat} {ζ s : State} (hk : Keeps κ ζ s) (scope : Nat) :
    Keeps κ ζ (State.dropScope s scope) := by
  unfold State.dropScope
  repeat' with_reducible (first | assumption | apply State.dropChan_keeps | refine Keeps.foldl (fun _ _ _ => ?_) ?_)

theorem State.released_keeps {κ : Nat} {ζ t : State} (hk : Keeps κ ζ t) (s : State) :
    Keeps κ ζ (State.released s t) := by
  unfold State.released
  try dsimp only
  repeat' with_reducible (first | assumption | apply State.dropChan_keeps | apply State.refreshAll_keeps | refine Keeps.foldl (fun _ _ _ => ?_) ?_)

theorem State.firstCause_keeps {κ : Nat} {ζ s : State} (hk : Keeps κ ζ s) (cls idx : Nat) :
    Keeps κ ζ (State.firstCause s cls idx) := by
  unfold State.firstCause
  try dsimp only
  repeat' with_reducible (first | assumption | apply EvKeeps.refl | apply Keeps.ite | apply State.put_keeps | apply EvKeeps.ite | apply Keeps.lit)

theorem State.clearRefused_keeps {κ : Nat} {ζ s : State} (hk : Keeps κ ζ s) (f : Fld) (b : Nat) :
    Keeps κ ζ (State.clearRefused s f b) := by
  unfold State.clearRefused
  repeat' with_reducible (first | assumption | apply State.putBit_keeps | apply State.pulse_keeps)

theorem State.refuseClear_keeps {κ : Nat} {ζ s : State} (hk : Keeps κ ζ s) (x : Nat × Nat) :
    Keeps κ ζ (State.refuseClear s x) := by
  unfold State.refuseClear
  repeat' with_reducible (first | assumption | apply Keeps.ite | apply KeepsP.ite | apply State.clearRefused_keeps | apply State.put_keeps | apply KeepsP.fst)

theorem State.noteSet_keeps {κ : Nat} {ζ s : State} (hk : Keeps κ ζ s) (x : Nat × Nat) :
    Keeps κ ζ (State.noteSet s x) := by
  unfold State.noteSet
  try dsimp only
  repeat' with_reducible (first | assumption | apply EvKeeps.refl | apply Keeps.ite | apply KeepsP.ite | apply State.refuseClear_keeps | apply EvKeeps.ite | apply KeepsP.fst | apply Keeps.lit)

theorem State.noteClear_keeps {κ : Nat} {ζ s : State} (hk : Keeps κ ζ s) (x : Nat × Nat) (n : Nat) :
    Keeps κ ζ (State.noteClear s x n) := by
  unfold State.noteClear
  repeat' with_reducible (first | assumption | apply EvKeeps.refl | apply Keeps.lit)

theorem State.tripLine_keeps {κ : Nat} {ζ s : State} (hk : Keeps κ ζ s) (t : Nat) :
    Keeps κ ζ (State.tripLine s t) := by
  unfold State.tripLine
  try dsimp only
  repeat' with_reducible (first | assumption | apply Keeps.ite | apply State.putBit_keeps | apply State.noteSet_keeps | apply State.dropScope_keeps | apply State.raise_keeps | apply State.firstCause_keeps | apply State.refreshAll_keeps)

theorem State.shootTrip_keeps {κ : Nat} {ζ s : State} (hk : Keeps κ ζ s) (n : Nat) :
    Keeps κ ζ (State.shootTrip s n) := by
  unfold State.shootTrip
  try dsimp only
  repeat' with_reducible (first | assumption | apply EvKeeps.refl | apply State.setChan_keeps | apply State.noteSet_keeps | apply State.dropChan_keeps | apply State.raise_keeps | apply State.firstCause_keeps | apply State.refresh_keeps | apply Keeps.lit)

theorem State.joinScope_keeps {κ : Nat} {ζ s : State} (hk : Keeps κ ζ s) (scope : Nat) :
    Keeps κ ζ (State.joinScope s scope) := by
  unfold State.joinScope
  try dsimp only
  repeat' with_reducible (first | assumption | apply State.dropChan_keeps | refine Keeps.foldl (fun _ _ _ => ?_) ?_)

theorem State.faultAct_keeps {κ : Nat} {ζ s : State} (hk : Keeps κ ζ s) (n : Nat) :
    Keeps κ ζ (State.faultAct s n) := by
  unfold State.faultAct
  try dsimp only
  repeat' with_reducible (first | assumption | apply EvKeeps.refl | apply Keeps.ite | apply State.putBit_keeps | apply State.put_keeps | apply State.noteSet_keeps | apply State.raise_keeps | apply State.firstCause_keeps | apply State.joinScope_keeps | apply State.refreshAll_keeps | apply EvKeeps.ite | apply Keeps.lit)

theorem State.holdEnd_keeps {κ : Nat} {ζ s : State} (hk : Keeps κ ζ s) :
    Keeps κ ζ (State.holdEnd s) := by
  unfold State.holdEnd
  repeat' with_reducible (first | assumption | apply Keeps.ite | apply State.put_keeps | apply State.dropScope_keeps | apply State.refreshAll_keeps)

theorem State.relatch_keeps {κ : Nat} {ζ s : State} (hk : Keeps κ ζ s) (c : Nat) :
    Keeps κ ζ (State.relatch s c) := by
  unfold State.relatch
  try dsimp only
  repeat' with_reducible (first | assumption | apply State.put_keeps | apply State.noteSet_keeps | refine Keeps.of_fst ?_ (by assumption) | apply KeepsP.fst | split | apply KeepsP.mk)

theorem State.retryFault_keeps {κ : Nat} {ζ s : State} (hk : Keeps κ ζ s) (c : Nat) :
    KeepsP κ ζ (State.retryFault s c) := by
  unfold State.retryFault
  try dsimp only
  repeat' with_reducible (first | assumption | apply Keeps.ite | apply KeepsP.ite | apply State.put_keeps | apply KeepsP.mk)

theorem State.pumpFaultNote_keeps {κ : Nat} {ζ s : State} (hk : Keeps κ ζ s) (c0 code : Nat) :
    Keeps κ ζ (State.pumpFaultNote s c0 code) := by
  unfold State.pumpFaultNote
  try dsimp only
  repeat' with_reducible (first | assumption | apply EvKeeps.refl | apply State.put_keeps | apply State.pulse_keeps | apply State.firstCause_keeps | apply State.relatch_keeps | apply Keeps.lit)

theorem State.pumpFaultAt_keeps {κ : Nat} {ζ s : State} (hk : Keeps κ ζ s) (c0 code : Nat) :
    Keeps κ ζ (State.pumpFaultAt s c0 code) := by
  unfold State.pumpFaultAt
  try dsimp only
  repeat' with_reducible (first | assumption | apply Keeps.ite | apply KeepsP.ite | apply State.pumpFaultNote_keeps | apply State.put_keeps | apply State.retryFault_keeps | apply State.pulse_keeps | refine Keeps.of_fst ?_ (by assumption) | apply KeepsP.fst | split | apply KeepsP.mk)

theorem State.pumpFault_keeps {κ : Nat} {ζ s : State} (hk : Keeps κ ζ s) (code : Nat) :
    Keeps κ ζ (State.pumpFault s code) := by
  unfold State.pumpFault
  repeat' with_reducible (first | assumption | apply State.pumpFaultAt_keeps)

theorem State.pumpOv_keeps {κ : Nat} {ζ s : State} (hk : Keeps κ ζ s) :
    Keeps κ ζ (State.pumpOv s) := by
  unfold State.pumpOv
  try dsimp only
  repeat' with_reducible (first | assumption | apply EvKeeps.refl | apply Keeps.ite | apply State.pumpFaultNote_keeps | apply State.put_keeps | apply EvKeeps.ite | apply Keeps.lit)

theorem State.ovBrakeEnd_keeps {κ : Nat} {ζ s : State} (hk : Keeps κ ζ s) :
    Keeps κ ζ (State.ovBrakeEnd s) := by
  unfold State.ovBrakeEnd
  try dsimp only
  repeat' with_reducible (first | assumption | apply EvKeeps.refl | apply Keeps.ite | apply State.put_keeps | apply State.pulse_keeps | apply EvKeeps.ite | apply Keeps.lit)

theorem State.chopFault_keeps {κ : Nat} {ζ s : State} (hk : Keeps κ ζ s) (c : Nat) :
    Keeps κ ζ (State.chopFault s c) := by
  unfold State.chopFault
  try dsimp only
  repeat' with_reducible (first | assumption | apply Keeps.ite | apply KeepsP.ite | apply State.raise_keeps | apply State.firstCause_keeps | apply State.relatch_keeps | apply State.retryFault_keeps | apply State.pulse_keeps | apply State.dropChan_keeps | apply State.refresh_keeps | refine Keeps.of_fst ?_ (by assumption) | apply KeepsP.fst | split | apply KeepsP.mk)

theorem State.commutate_keeps {κ : Nat} {ζ t : State} (hk : Keeps κ ζ t) (s : State) :
    Keeps κ ζ (State.commutate s t) := by
  unfold State.commutate
  repeat' with_reducible (first | assumption | apply EvKeeps.refl | apply Keeps.ite | apply KeepsP.ite | apply EvKeeps.ite | apply KeepsP.fst | apply Keeps.lit)

theorem State.checkBoot_keeps {κ : Nat} {ζ s : State} (hk : Keeps κ ζ s) :
    Keeps κ ζ (State.checkBoot s) := by
  unfold State.checkBoot
  repeat' with_reducible (first | assumption | apply Keeps.ite | apply State.pumpFault_keeps)

end Sys2Proof.Machine
end

