-- ==== Sys2Proof/Laws/KeepsSafeOps.lean ====
section
/-! SUPPORT. What each operation of Machine/SafeOps.lean keeps. -/

namespace Sys2Proof.Machine

theorem State.setWhiteout_keeps {κ : Nat} {ζ s : State} (hk : Keeps κ ζ s) (cls idx : Nat) :
    Keeps κ ζ (State.setWhiteout s cls idx) := by
  unfold State.setWhiteout
  try dsimp only
  repeat' with_reducible (first | assumption | apply EvKeeps.refl | apply Keeps.ite | apply State.put_keeps | apply State.pulse_keeps | apply State.raise_keeps | apply State.dropScope_keeps | apply State.refreshAll_keeps | apply EvKeeps.ite | apply Keeps.lit)

theorem State.setSafeIn_keeps {κ : Nat} {ζ s : State} (hk : Keeps κ ζ s) (n : Nat) (x : SafeIn) :
    Keeps κ ζ (State.setSafeIn s n x) := by
  unfold State.setSafeIn
  try dsimp only
  repeat' with_reducible (first | assumption | apply EvKeeps.refl | apply Keeps.lit)

theorem State.setTgConn_keeps {κ : Nat} {ζ s : State} (hk : Keeps κ ζ s) (t : Nat) (x : TgConn) :
    Keeps κ ζ (State.setTgConn s t x) := by
  unfold State.setTgConn
  try dsimp only
  repeat' with_reducible (first | assumption | apply EvKeeps.refl | apply Keeps.lit)

theorem State.safeFollow_keeps {κ : Nat} {ζ s : State} (hk : Keeps κ ζ s) (n cls : Nat) (rose : Bool) :
    Keeps κ ζ (State.safeFollow s n cls rose) := by
  unfold State.safeFollow
  try dsimp only
  repeat' with_reducible (first | assumption | apply Keeps.ite | apply State.putBit_keeps | apply State.setWhiteout_keeps | apply State.raise_keeps | apply State.clearAct_keeps)

end Sys2Proof.Machine
end

