-- ==== Sys2Proof/Laws/KeepsCellOps.lean ====
section
/-! SUPPORT. What each operation of Machine/CellOps.lean keeps. -/

namespace Sys2Proof.Machine

theorem State.setCState_keeps {κ : Nat} {ζ s : State} (hk : Keeps κ ζ s) (c n : Nat) :
    Keeps κ ζ (State.setCState s c n) := by
  unfold State.setCState
  repeat' with_reducible (first | assumption | apply State.put_keeps)

theorem State.setGroup_keeps {κ : Nat} {ζ s : State} (hk : Keeps κ ζ s) (g : Nat) (x : Group) :
    Keeps κ ζ (State.setGroup s g x) := by
  unfold State.setGroup
  try dsimp only
  repeat' with_reducible (first | assumption | apply EvKeeps.refl | apply Keeps.lit)

theorem State.queueCell_keeps {κ : Nat} {ζ s : State} (hk : Keeps κ ζ s) (c : Nat) :
    Keeps κ ζ (State.queueCell s c) := by
  unfold State.queueCell
  repeat' with_reducible (first | assumption | apply EvKeeps.refl | apply State.setCState_keeps | apply Keeps.lit)

theorem State.unqueueCell_keeps {κ : Nat} {ζ s : State} (hk : Keeps κ ζ s) (c : Nat) :
    Keeps κ ζ (State.unqueueCell s c) := by
  unfold State.unqueueCell
  try dsimp only
  repeat' with_reducible (first | assumption | apply EvKeeps.refl | apply Keeps.lit)

theorem State.giveUnitBack_keeps {κ : Nat} {ζ s : State} (hk : Keeps κ ζ s) (c : Nat) :
    Keeps κ ζ (State.giveUnitBack s c) := by
  unfold State.giveUnitBack
  repeat' with_reducible (first | assumption | apply EvKeeps.refl | apply Keeps.ite | apply State.setCell_keeps | apply EvKeeps.ite | apply Keeps.lit)

theorem State.stage_keeps {κ : Nat} {ζ s : State} (hk : Keeps κ ζ s) (c : Nat) (kind : SetKind) (pairs : List (Nat × Word)) :
    Keeps κ ζ (State.stage s c kind pairs) := by
  unfold State.stage
  try dsimp only
  repeat' with_reducible (first | assumption | apply EvKeeps.refl | apply State.setCell_keeps | apply Keeps.lit)

theorem State.noteRestage_keeps {κ : Nat} {ζ s : State} (hk : Keeps κ ζ s) (c : Nat) :
    Keeps κ ζ (State.noteRestage s c) := by
  unfold State.noteRestage
  try dsimp only
  repeat' with_reducible (first | assumption | apply EvKeeps.refl | apply Keeps.ite | apply EvKeeps.ite | apply Keeps.lit)

theorem State.enterBlocked_keeps {κ : Nat} {ζ s : State} (hk : Keeps κ ζ s) (c : Nat) :
    Keeps κ ζ (State.enterBlocked s c) := by
  unfold State.enterBlocked
  try dsimp only
  repeat' with_reducible (first | assumption | apply EvKeeps.refl | apply State.noteRestage_keeps | apply State.setCState_keeps | apply State.put_keeps | apply State.setCell_keeps | apply State.stage_keeps | apply Keeps.lit)

theorem State.leaveTo_keeps {κ : Nat} {ζ s : State} (hk : Keeps κ ζ s) (c st : Nat) :
    Keeps κ ζ (State.leaveTo s c st) := by
  unfold State.leaveTo
  try dsimp only
  repeat' with_reducible (first | assumption | apply EvKeeps.refl | apply State.giveUnitBack_keeps | apply State.unqueueCell_keeps | apply State.setCState_keeps | apply State.setCell_keeps | apply Keeps.lit)

theorem State.removeCell_keeps {κ : Nat} {ζ s : State} (hk : Keeps κ ζ s) (c : Nat) :
    Keeps κ ζ (State.removeCell s c) := by
  unfold State.removeCell
  repeat' with_reducible (first | assumption | apply State.leaveTo_keeps)

theorem State.refuseCell_keeps {κ : Nat} {ζ s : State} (hk : Keeps κ ζ s) (c : Nat) :
    Keeps κ ζ (State.refuseCell s c) := by
  unfold State.refuseCell
  try dsimp only
  repeat' with_reducible (first | assumption | apply EvKeeps.refl | apply State.leaveTo_keeps | apply State.pulse_keeps | apply State.setCell_keeps | apply Keeps.lit)

end Sys2Proof.Machine
end

