-- ==== Sys2Proof/Laws/KeepsAdcOps.lean ====
section
/-! SUPPORT. What each operation of Machine/AdcOps.lean keeps. -/

namespace Sys2Proof.Machine

theorem State.setFastQ_keeps {κ : Nat} {ζ s : State} (hk : Keeps κ ζ s) (n : Nat) (q : Quant) :
    Keeps κ ζ (State.setFastQ s n q) := by
  unfold State.setFastQ
  try dsimp only
  repeat' with_reducible (first | assumption | apply EvKeeps.refl | apply Keeps.lit)

theorem State.setHkQ_keeps {κ : Nat} {ζ s : State} (hk : Keeps κ ζ s) (n : Nat) (q : Quant) :
    Keeps κ ζ (State.setHkQ s n q) := by
  unfold State.setHkQ
  try dsimp only
  repeat' with_reducible (first | assumption | apply EvKeeps.refl | apply Keeps.lit)

theorem State.feedFast_keeps {κ : Nat} {ζ s : State} (hk : Keeps κ ζ s) (n : Nat) (m : Option Int) :
    Keeps κ ζ (State.feedFast s n m) := by
  unfold State.feedFast
  try dsimp only
  repeat' with_reducible (first | assumption | apply State.setFastQ_keeps | apply State.putB_keeps | apply State.putS_keeps)

theorem State.fastResult_keeps {κ : Nat} {ζ s : State} (hk : Keeps κ ζ s) (n : Nat) (cs : List Int) :
    Keeps κ ζ (State.fastResult s n cs) := by
  unfold State.fastResult
  try dsimp only
  repeat' with_reducible (first | assumption | apply Keeps.ite | apply State.putS_keeps | apply State.putB_keeps | apply State.pulse_keeps | apply State.errInc_keeps | apply State.feedFast_keeps)

theorem State.fastLate_keeps {κ : Nat} {ζ s : State} (hk : Keeps κ ζ s) (n : Nat) :
    Keeps κ ζ (State.fastLate s n) := by
  unfold State.fastLate
  repeat' with_reducible (first | assumption | apply State.pulse_keeps | apply State.errInc_keeps | apply State.putB_keeps | apply State.feedFast_keeps)

theorem State.testTake_keeps {κ : Nat} {ζ s : State} (hk : Keeps κ ζ s) (hk : Bool) (code : Nat → Int) :
    Keeps κ ζ (State.testTake s hk code) := by
  unfold State.testTake
  repeat' with_reducible (first | assumption | apply EvKeeps.refl | apply Keeps.ite | apply EvKeeps.ite | apply Keeps.lit)

theorem State.fastFrame_keeps {κ : Nat} {ζ s : State} (hk : Keeps κ ζ s) (j : Nat) (codes : List Int) :
    Keeps κ ζ (State.fastFrame s j codes) := by
  unfold State.fastFrame
  try dsimp only
  repeat' with_reducible (first | assumption | apply EvKeeps.refl | apply Keeps.ite | apply State.wrapInc_keeps | apply EvKeeps.ite | refine Keeps.foldl (fun _ _ _ => ?_) ?_ | apply Keeps.lit)

theorem State.fastInstant_keeps {κ : Nat} {ζ s : State} (hk : Keeps κ ζ s) (j : Nat) (codes : List Int) (ready : Nat) :
    Keeps κ ζ (State.fastInstant s j codes ready) := by
  unfold State.fastInstant
  try dsimp only
  repeat' with_reducible (first | assumption | apply EvKeeps.refl | apply Keeps.ite | apply State.fastResult_keeps | apply State.testTake_keeps | apply State.fastFrame_keeps | apply EvKeeps.ite | refine Keeps.foldl (fun _ _ _ => ?_) ?_ | apply Keeps.lit)

theorem State.feedHk_keeps {κ : Nat} {ζ s : State} (hk : Keeps κ ζ s) (h : Nat) (m : Option Int) :
    Keeps κ ζ (State.feedHk s h m) := by
  unfold State.feedHk
  try dsimp only
  repeat' with_reducible (first | assumption | apply State.setHkQ_keeps | apply State.putB_keeps | apply State.putS_keeps)

theorem State.hkInvalid_keeps {κ : Nat} {ζ s : State} (hk : Keeps κ ζ s) :
    Keeps κ ζ (State.hkInvalid s) := by
  unfold State.hkInvalid
  try dsimp only
  repeat' with_reducible (first | assumption | apply State.feedHk_keeps | refine Keeps.foldl (fun _ _ _ => ?_) ?_)

theorem State.hkStart_keeps {κ : Nat} {ζ s : State} (hk : Keeps κ ζ s) :
    Keeps κ ζ (State.hkStart s) := by
  unfold State.hkStart
  try dsimp only
  repeat' with_reducible (first | assumption | apply EvKeeps.refl | apply Keeps.ite | apply State.pulse_keeps | apply State.put_keeps | apply EvKeeps.ite | apply Keeps.lit)

theorem State.hkCommit_keeps {κ : Nat} {ζ s : State} (hk : Keeps κ ζ s) :
    Keeps κ ζ (State.hkCommit s) := by
  unfold State.hkCommit
  try dsimp only
  repeat' with_reducible (first | assumption | apply Keeps.ite | apply KeepsP.ite | apply State.put_keeps | apply State.hkInvalid_keeps | apply State.feedHk_keeps | refine Keeps.foldl (fun _ _ _ => ?_) ?_ | refine Keeps.foldlP (fun _ _ _ => ?_) ?_ | refine Keeps.of_fst ?_ (by assumption) | apply KeepsP.fst | split | apply KeepsP.mk)

theorem State.hkFrame_keeps {κ : Nat} {ζ s : State} (hk : Keeps κ ζ s) (entry chan code : Nat) (rangeFail : Bool) :
    Keeps κ ζ (State.hkFrame s entry chan code rangeFail) := by
  unfold State.hkFrame
  try dsimp only
  repeat' with_reducible (first | assumption | apply EvKeeps.refl | apply Keeps.ite | apply State.hkStart_keeps | apply State.wrapInc_keeps | apply EvKeeps.ite | apply Keeps.lit)

theorem State.hkConvert_keeps {κ : Nat} {ζ s : State} (hk : Keeps κ ζ s) (entry chan code : Nat) :
    Keeps κ ζ (State.hkConvert s entry chan code) := by
  unfold State.hkConvert
  try dsimp only
  repeat' with_reducible (first | assumption | apply EvKeeps.refl | apply Keeps.ite | apply State.pulse_keeps | apply State.testTake_keeps | apply State.hkFrame_keeps | apply State.hkCommit_keeps | apply EvKeeps.ite | apply Keeps.lit)

theorem State.hkOff_keeps {κ : Nat} {ζ s : State} (hk : Keeps κ ζ s) :
    Keeps κ ζ (State.hkOff s) := by
  unfold State.hkOff
  repeat' with_reducible (first | assumption | apply State.put_keeps)

theorem State.hkLostWord_keeps {κ : Nat} {ζ s : State} (hk : Keeps κ ζ s) (entry : Nat) :
    Keeps κ ζ (State.hkLostWord s entry) := by
  unfold State.hkLostWord
  try dsimp only
  repeat' with_reducible (first | assumption | apply EvKeeps.refl | apply Keeps.ite | apply State.xingBad_keeps | apply State.hkOff_keeps | apply EvKeeps.ite | apply Keeps.lit)

theorem State.hkTimeout_keeps {κ : Nat} {ζ s : State} (hk : Keeps κ ζ s) :
    Keeps κ ζ (State.hkTimeout s) := by
  unfold State.hkTimeout
  try dsimp only
  repeat' with_reducible (first | assumption | apply EvKeeps.refl | apply Keeps.ite | apply State.pulse_keeps | apply State.hkInvalid_keeps | apply EvKeeps.ite | apply Keeps.lit)

theorem State.setRaw_keeps {κ : Nat} {ζ s : State} (hk : Keeps κ ζ s) (w : Nat) (upper level : Bool) :
    Keeps κ ζ (State.setRaw s w upper level) := by
  unfold State.setRaw
  try dsimp only
  repeat' with_reducible (first | assumption | apply EvKeeps.refl | apply Keeps.ite | apply KeepsP.ite | apply State.putB_keeps | apply EvKeeps.ite | apply KeepsP.fst | apply Keeps.lit)

theorem State.evalComp_keeps {κ : Nat} {ζ s : State} (hk : Keeps κ ζ s) (w : Nat) (upper : Bool) :
    Keeps κ ζ (State.evalComp s w upper) := by
  unfold State.evalComp
  repeat' with_reducible (first | assumption | apply State.setRaw_keeps | refine Keeps.of_fst ?_ (by assumption) | apply KeepsP.fst | split | apply KeepsP.mk)

theorem State.evalWindow_keeps {κ : Nat} {ζ s : State} (hk : Keeps κ ζ s) (w : Nat) :
    Keeps κ ζ (State.evalWindow s w) := by
  unfold State.evalWindow
  try dsimp only
  repeat' with_reducible (first | assumption | apply Keeps.ite | apply State.evalComp_keeps | apply State.setRaw_keeps)

theorem State.evalWindows_keeps {κ : Nat} {ζ s : State} (hk : Keeps κ ζ s) :
    Keeps κ ζ (State.evalWindows s) := by
  unfold State.evalWindows
  repeat' with_reducible (first | assumption | apply State.evalWindow_keeps | apply KeepsW.s | refine Keeps.foldl (fun _ _ _ => ?_) ?_ | refine KeepsW.foldl (fun _ _ _ => ?_) ?_ | apply KeepsW.mk)

theorem State.testConn_keeps {κ : Nat} {ζ s : State} (hk : Keeps κ ζ s) (hk : Bool) (chan code : Nat) :
    Keeps κ ζ (State.testConn s hk chan code) := by
  unfold State.testConn
  try dsimp only
  repeat' with_reducible (first | assumption | apply EvKeeps.refl | apply Keeps.ite | apply KeepsW.ite | apply State.put_keeps | apply Win.put_keeps | apply State.evalWindows_keeps | apply EvKeeps.ite | apply KeepsW.s | apply KeepsW.mk | apply Keeps.lit)

theorem State.testGo_keeps {κ : Nat} {ζ s : State} (hk : Keeps κ ζ s) (hk : Bool) (chan code : Nat) :
    Keeps κ ζ (State.testGo s hk chan code) := by
  unfold State.testGo
  try dsimp only
  repeat' with_reducible (first | assumption | apply EvKeeps.refl | apply Keeps.ite | apply State.testConn_keeps | apply State.put_keeps | apply EvKeeps.ite | apply Keeps.lit)

theorem State.testStop_keeps {κ : Nat} {ζ s : State} (hk : Keeps κ ζ s) :
    Keeps κ ζ (State.testStop s) := by
  unfold State.testStop
  try dsimp only
  repeat' with_reducible (first | assumption | apply EvKeeps.refl | apply Keeps.ite | apply KeepsW.ite | apply State.put_keeps | apply Win.put_keeps | apply State.evalWindows_keeps | apply EvKeeps.ite | apply KeepsW.s | apply KeepsW.mk | apply Keeps.lit)

theorem State.testDone_keeps {κ : Nat} {ζ s : State} (hk : Keeps κ ζ s) :
    Keeps κ ζ (State.testDone s) := by
  unfold State.testDone
  try dsimp only
  repeat' with_reducible (first | assumption | apply EvKeeps.refl | apply Keeps.ite | apply State.put_keeps | apply State.putB_keeps | apply State.pulse_keeps | apply EvKeeps.ite | apply Keeps.lit)

theorem State.chopWindow_keeps {κ : Nat} {ζ s : State} (hk : Keeps κ ζ s) (w : Nat) (upper level : Bool) (c : Nat) :
    Keeps κ ζ (State.chopWindow s w upper level c) := by
  unfold State.chopWindow
  try dsimp only
  repeat' with_reducible (first | assumption | apply EvKeeps.refl | apply Keeps.ite | apply KeepsW.ite | apply State.setChan_keeps | apply State.refresh_keeps | apply EvKeeps.ite | apply KeepsW.s | apply KeepsW.mk | apply Keeps.lit)

theorem State.setWindow_keeps {κ : Nat} {ζ s : State} (hk : Keeps κ ζ s) (w : Nat) (upper level : Bool) :
    Keeps κ ζ (State.setWindow s w upper level) := by
  unfold State.setWindow
  try dsimp only
  repeat' with_reducible (first | assumption | apply Keeps.ite | apply KeepsW.ite | apply State.putB_keeps | apply State.put_keeps | apply Win.put_keeps | apply State.errInc_keeps | apply State.raise_keeps | apply State.chopWindow_keeps | apply State.clearAct_keeps | apply KeepsW.s | apply KeepsW.mk)

theorem State.presetWindow_keeps {κ : Nat} {ζ s : State} (hk : Keeps κ ζ s) (w : Nat) :
    Keeps κ ζ (State.presetWindow s w) := by
  unfold State.presetWindow
  try dsimp only
  repeat' with_reducible (first | assumption | apply EvKeeps.refl | apply State.put_keeps | apply Win.put_keeps | apply State.evalWindow_keeps | apply KeepsW.s | apply KeepsW.mk | apply Keeps.lit)

theorem State.closeWindow_keeps {κ : Nat} {ζ s : State} (hk : Keeps κ ζ s) (w : Nat) :
    Keeps κ ζ (State.closeWindow s w) := by
  unfold State.closeWindow
  try dsimp only
  repeat' with_reducible (first | assumption | apply EvKeeps.refl | apply State.setWindow_keeps | apply State.setRaw_keeps | apply KeepsW.s | apply KeepsW.mk | apply Keeps.lit)

theorem State.fillHist_keeps {κ : Nat} {ζ s : State} (hk : Keeps κ ζ s) (w : Nat) :
    Keeps κ ζ (State.fillHist s w) := by
  unfold State.fillHist
  try dsimp only
  repeat' with_reducible (first | assumption | apply EvKeeps.refl | apply Keeps.lit)

theorem State.settleWindow_keeps {κ : Nat} {ζ s : State} (hk : Keeps κ ζ s) (w : Nat) :
    Keeps κ ζ (State.settleWindow s w) := by
  unfold State.settleWindow
  try dsimp only
  repeat' with_reducible (first | assumption | apply Keeps.ite | apply KeepsW.ite | apply State.evalWindow_keeps | apply State.fillHist_keeps | apply State.setWindow_keeps | apply KeepsW.s | apply KeepsW.mk)

theorem State.rawWindow_keeps {ζ s : State} (hk : Keeps 1 ζ s) (w : Nat) (upper : Bool) (v : Int) :
    Keeps 1 ζ (State.rawWindow s w upper v) := by
  unfold State.rawWindow
  try dsimp only
  repeat' with_reducible (first | assumption | apply EvKeeps.refl | apply Keeps.ite | apply State.evalComp_keeps | apply EvKeeps.ite | apply Keeps.lit1)

theorem State.filtWindow_keeps {κ : Nat} {ζ s : State} (hk : Keeps κ ζ s) (w : Nat) (upper level : Bool) :
    Keeps κ ζ (State.filtWindow s w upper level) := by
  unfold State.filtWindow
  repeat' with_reducible (first | assumption | apply Keeps.ite | apply KeepsW.ite | apply State.setWindow_keeps | apply KeepsW.s | apply KeepsW.mk)

theorem State.windowBoundary_keeps {κ : Nat} {ζ s : State} (hk : Keeps κ ζ s) :
    Keeps κ ζ (State.windowBoundary s) := by
  unfold State.windowBoundary
  try dsimp only
  repeat' with_reducible (first | assumption | apply Keeps.ite | apply State.put_keeps | refine Keeps.foldl (fun _ _ _ => ?_) ?_)

theorem State.setAonCfg_keeps {κ : Nat} {ζ s : State} (hk : Keeps κ ζ s) (a : Nat) (w : Word) :
    Keeps κ ζ (State.setAonCfg s a w) := by
  unfold State.setAonCfg
  try dsimp only
  repeat' with_reducible (first | assumption | apply EvKeeps.refl | apply Keeps.ite | apply EvKeeps.ite | apply Keeps.lit)

theorem State.aonChange_keeps {κ : Nat} {ζ s : State} (hk : Keeps κ ζ s) (a : Nat) (strobes : List Nat) :
    Keeps κ ζ (State.aonChange s a strobes) := by
  unfold State.aonChange
  try dsimp only
  repeat' with_reducible (first | assumption | apply EvKeeps.refl | apply Keeps.ite | apply State.pulse_keeps | apply EvKeeps.ite | apply Keeps.lit)

end Sys2Proof.Machine
end

