-- ==== Sys2Proof/Laws/KeepsCeWindow.lean ====
section
/-! SUPPORT. What each operation of Machine/CeWindow.lean keeps. -/

namespace Sys2Proof.Machine

/-- The same for a compute window. -/
def KeepsW (κ : Nat) (ζ : State) (w : Win) : Prop := Keeps κ ζ w.s

theorem KeepsW.s {κ : Nat} {ζ : State} {w : Win} (h : KeepsW κ ζ w) : Keeps κ ζ w.s := h

theorem KeepsW.mk {κ : Nat} {ζ s : State} {e p} (h : Keeps κ ζ s) : KeepsW κ ζ ⟨s, e, p⟩ := h

theorem KeepsW.ite {κ : Nat} {ζ : State} {x y : Win} {c : Prop} [Decidable c] (hx : KeepsW κ ζ x) (hy : KeepsW κ ζ y) :
    KeepsW κ ζ (if c then x else y) := by split <;> assumption

theorem KeepsW.foldl {κ : Nat} {ζ : State} {α : Type} {f : Win → α → Win} {l : List α} {w : Win}
    (hf : ∀ t x, KeepsW κ ζ t → KeepsW κ ζ (f t x)) (h : KeepsW κ ζ w) : KeepsW κ ζ (l.foldl f w) := by
  induction l generalizing w with
  | nil => exact h
  | cons x l ih => exact ih (hf w x h)

theorem State.satNote_keeps {κ : Nat} {ζ s : State} (hk : Keeps κ ζ s) (n : Nat) :
    Keeps κ ζ (State.satNote s n) := by
  unfold State.satNote
  try dsimp only
  repeat' with_reducible (first | assumption | apply EvKeeps.refl | apply Keeps.ite | apply State.errInc_keeps | apply State.put_keeps | apply State.pulse_keeps | apply EvKeeps.ite | apply Keeps.lit | apply EvKeeps.lit)

theorem State.satNotes_keeps {κ : Nat} {ζ s : State} (hk : Keeps κ ζ s) (n k : Nat) :
    Keeps κ ζ (State.satNotes s n k) := by
  unfold State.satNotes
  try dsimp only
  repeat' with_reducible (first | assumption | apply State.satNote_keeps | refine Keeps.foldl (fun _ _ _ => ?_) ?_)

theorem State.setBlk_keeps {κ : Nat} {ζ s : State} (hk : Keeps κ ζ s) (n : Nat) (st : List Int) :
    Keeps κ ζ (State.setBlk s n st) := by
  unfold State.setBlk
  try dsimp only
  repeat' with_reducible (first | assumption | apply EvKeeps.refl | apply Keeps.lit | apply EvKeeps.lit)

theorem Win.put_keeps {κ : Nat} {ζ : State} {w : Win} (hk : KeepsW κ ζ w) (n : Nat) (r : BlkRes) (ok : Bool) :
    KeepsW κ ζ (Win.put w n r ok) := by
  unfold Win.put
  try dsimp only
  repeat' with_reducible (first | assumption | apply EvKeeps.refl | apply Keeps.ite | apply KeepsW.ite | apply State.setBlk_keeps | apply State.satNotes_keeps | apply EvKeeps.ite | apply KeepsW.s | apply KeepsW.mk | apply Keeps.lit)

theorem Win.allocif_keeps {κ : Nat} {ζ : State} {w : Win} (hk : KeepsW κ ζ w) (n : Nat) :
    KeepsW κ ζ (Win.allocif w n) := by
  unfold Win.allocif
  try dsimp only
  repeat' with_reducible (first | assumption | apply EvKeeps.refl | apply Keeps.ite | apply KeepsP.ite | apply KeepsW.ite | apply State.setGroup_keeps | apply State.putB_keeps | apply State.pulse_keeps | apply State.put_keeps | apply Win.put_keeps | apply EvKeeps.ite | apply KeepsW.s | refine Keeps.of_fst ?_ (by assumption) | apply KeepsP.fst | split | apply KeepsP.mk | apply KeepsW.mk | apply Keeps.lit)

theorem State.dirReport_keeps {κ : Nat} {ζ s : State} (hk : Keeps κ ζ s) (dirBit : Nat) :
    Keeps κ ζ (State.dirReport s dirBit) := by
  unfold State.dirReport
  try dsimp only
  repeat' with_reducible (first | assumption | apply Keeps.ite | apply State.put_keeps | apply State.errInc_keeps)

theorem State.arbReport_keeps {κ : Nat} {ζ s : State} (hk : Keeps κ ζ s) (r : ArbRes) (ok : Bool) :
    Keeps κ ζ (State.arbReport s r ok) := by
  unfold State.arbReport
  try dsimp only
  repeat' with_reducible (first | assumption | apply EvKeeps.refl | apply Keeps.ite | apply State.errInc_keeps | apply State.pulse_keeps | apply State.put_keeps | apply State.putB_keeps | apply State.dirReport_keeps | apply EvKeeps.ite | apply Keeps.lit | apply EvKeeps.lit)

theorem Win.minsel_keeps {κ : Nat} {ζ : State} {w : Win} (hk : KeepsW κ ζ w) (n : Nat) :
    KeepsW κ ζ (Win.minsel w n) := by
  unfold Win.minsel
  try dsimp only
  repeat' with_reducible (first | assumption | apply EvKeeps.refl | apply Keeps.ite | apply KeepsP.ite | apply KeepsW.ite | apply State.arbReport_keeps | apply State.put_keeps | apply Win.put_keeps | apply EvKeeps.ite | apply KeepsW.s | apply KeepsP.fst | apply KeepsW.mk | apply Keeps.lit)

theorem Win.track_keeps {κ : Nat} {ζ : State} {w : Win} (hk : KeepsW κ ζ w) (n : Nat) :
    KeepsW κ ζ (Win.track w n) := by
  unfold Win.track
  try dsimp only
  repeat' with_reducible (first | assumption | apply EvKeeps.refl | apply Keeps.ite | apply KeepsP.ite | apply KeepsW.ite | apply State.setBlk_keeps | apply State.satNotes_keeps | apply EvKeeps.ite | apply KeepsW.s | refine Keeps.foldl (fun _ _ _ => ?_) ?_ | refine KeepsW.foldl (fun _ _ _ => ?_) ?_ | refine Keeps.foldlP (fun _ _ _ => ?_) ?_ | apply KeepsP.fst | apply KeepsP.mk | apply KeepsW.mk | apply Keeps.lit)

theorem Win.run_keeps {κ : Nat} {ζ : State} {w : Win} (hk : KeepsW κ ζ w) (n : Nat) :
    KeepsW κ ζ (Win.run w n) := by
  unfold Win.run
  try dsimp only
  repeat' with_reducible (first | assumption | apply EvKeeps.refl | apply Keeps.ite | apply KeepsP.ite | apply KeepsW.ite | apply Win.minsel_keeps | apply Win.allocif_keeps | apply State.put_keeps | apply Win.put_keeps | apply EvKeeps.ite | apply KeepsW.s | refine Keeps.of_fst ?_ (by assumption) | apply KeepsP.fst | split | apply KeepsP.mk | apply KeepsW.mk | apply Keeps.lit)

theorem Win.putMean_keeps {κ : Nat} {ζ : State} {w : Win} (hk : KeepsW κ ζ w) (n : Nat) (cs : List Nat) (f : Nat → Int) (okIn : Bool) (okc : Nat → Bool) :
    KeepsW κ ζ (Win.putMean w n cs f okIn okc) := by
  unfold Win.putMean
  repeat' with_reducible (first | assumption | apply State.put_keeps | apply Win.put_keeps | apply KeepsW.s | apply KeepsW.mk)

theorem State.targetUpdate_keeps {κ : Nat} {ζ s : State} (hk : Keeps κ ζ s) (g : Nat) (xc : Int) :
    Keeps κ ζ (State.targetUpdate s g xc) := by
  unfold State.targetUpdate
  try dsimp only
  repeat' with_reducible (first | assumption | apply EvKeeps.refl | apply Keeps.ite | apply KeepsP.ite | apply State.setGroup_keeps | apply State.put_keeps | apply EvKeeps.ite | apply KeepsP.fst | apply Keeps.lit)

theorem State.capobsCell_keeps {κ : Nat} {ζ s : State} (hk : Keeps κ ζ s) (n c : Nat) :
    Keeps κ ζ (State.capobsCell s n c) := by
  unfold State.capobsCell
  try dsimp only
  repeat' with_reducible (first | assumption | apply EvKeeps.refl | apply Keeps.ite | apply KeepsP.ite | apply State.setCell_keeps | apply State.satNotes_keeps | apply EvKeeps.ite | refine Keeps.of_fst ?_ (by assumption) | apply KeepsP.fst | split | apply KeepsP.mk | apply Keeps.lit | apply EvKeeps.lit)

theorem State.fluxobsCell_keeps {κ : Nat} {ζ s : State} (hk : Keeps κ ζ s) (n c : Nat) (a : Rat) :
    Keeps κ ζ (State.fluxobsCell s n c a) := by
  unfold State.fluxobsCell
  try dsimp only
  repeat' with_reducible (first | assumption | apply EvKeeps.refl | apply Keeps.ite | apply KeepsP.ite | apply State.setCell_keeps | apply State.pulse_keeps | apply State.satNotes_keeps | apply EvKeeps.ite | refine Keeps.of_fst ?_ (by assumption) | apply KeepsP.fst | split | apply KeepsP.mk | apply Keeps.lit | apply EvKeeps.lit)

theorem State.hshareCell_keeps {κ : Nat} {ζ s : State} (hk : Keeps κ ζ s) (n c : Nat) :
    Keeps κ ζ (State.hshareCell s n c) := by
  unfold State.hshareCell
  try dsimp only
  repeat' with_reducible (first | assumption | apply EvKeeps.refl | apply Keeps.ite | apply KeepsP.ite | apply State.setCell_keeps | apply EvKeeps.ite | refine Keeps.foldl (fun _ _ _ => ?_) ?_ | refine Keeps.foldlP (fun _ _ _ => ?_) ?_ | apply KeepsP.fst | apply KeepsP.mk | apply Keeps.lit)

theorem State.takeStep_keeps {κ : Nat} {ζ s : State} (hk : Keeps κ ζ s) (c : Nat) :
    Keeps κ ζ (State.takeStep s c) := by
  unfold State.takeStep
  repeat' with_reducible (first | assumption | apply EvKeeps.refl | apply State.setCell_keeps | apply Keeps.lit)

theorem State.dabRest_keeps {κ : Nat} {ζ s : State} (hk : Keeps κ ζ s) (c : Nat) (v2 : Rat) :
    Keeps κ ζ (State.dabRest s c v2) := by
  unfold State.dabRest
  try dsimp only
  repeat' with_reducible (first | assumption | apply EvKeeps.refl | apply State.takeStep_keeps | apply State.setCell_keeps | apply State.put_keeps | apply State.putB_keeps | apply Keeps.lit | apply EvKeeps.lit)

theorem State.noBusNote_keeps {κ : Nat} {ζ s : State} (hk : Keeps κ ζ s) (c : Nat) :
    Keeps κ ζ (State.noBusNote s c) := by
  unfold State.noBusNote
  repeat' with_reducible (first | assumption | apply EvKeeps.refl | apply Keeps.ite | apply State.setCell_keeps | apply State.pulse_keeps | apply EvKeeps.ite | apply Keeps.lit)

theorem State.daboptCell_keeps {κ : Nat} {ζ s : State} (hk : Keeps κ ζ s) (n c : Nat) (pstar : Rat) (bus : BusIn) (em thm : Rat) :
    Keeps κ ζ (State.daboptCell s n c pstar bus em thm) := by
  unfold State.daboptCell
  try dsimp only
  repeat' with_reducible (first | assumption | apply EvKeeps.refl | apply Keeps.ite | apply KeepsP.ite | apply State.noBusNote_keeps | apply State.dabRest_keeps | apply State.takeStep_keeps | apply State.setCell_keeps | apply State.satNotes_keeps | apply State.putS_keeps | apply State.put_keeps | apply State.putB_keeps | apply EvKeeps.ite | refine Keeps.foldl (fun _ _ _ => ?_) ?_ | refine Keeps.foldlP (fun _ _ _ => ?_) ?_ | refine Keeps.of_fst ?_ (by assumption) | apply KeepsP.fst | split | apply KeepsP.mk | apply Keeps.lit | apply EvKeeps.lit)

theorem State.zvsCell_keeps {κ : Nat} {ζ s : State} (hk : Keeps κ ζ s) (c : Nat) :
    Keeps κ ζ (State.zvsCell s c) := by
  unfold State.zvsCell
  try dsimp only
  repeat' with_reducible (first | assumption | apply EvKeeps.refl | apply Keeps.ite | apply State.putB_keeps | apply State.put_keeps | apply State.pulse_keeps | apply State.setCell_keeps | apply EvKeeps.ite | apply Keeps.lit)

theorem State.targetSats_keeps {κ : Nat} {ζ s : State} (hk : Keeps κ ζ s) (g : Nat) :
    Keeps κ ζ (State.targetSats s g) := by
  unfold State.targetSats
  repeat' with_reducible (first | assumption | apply State.satNotes_keeps | refine Keeps.of_fst ?_ (by assumption) | apply KeepsP.fst | split | apply KeepsP.mk)

theorem State.targets_keeps {κ : Nat} {ζ s : State} (hk : Keeps κ ζ s) :
    Keeps κ ζ (State.targets s) := by
  unfold State.targets
  try dsimp only
  repeat' with_reducible (first | assumption | apply State.targetSats_keeps | apply State.targetUpdate_keeps | apply State.follow_keeps | refine Keeps.foldl (fun _ _ _ => ?_) ?_ | refine Keeps.foldlP (fun _ _ _ => ?_) ?_ | apply KeepsP.fst | apply KeepsP.mk)

theorem Win.phaseA_keeps {κ : Nat} {ζ : State} {w : Win} (hk : KeepsW κ ζ w) (g : Nat) :
    KeepsW κ ζ (Win.phaseA w g) := by
  unfold Win.phaseA
  try dsimp only
  repeat' with_reducible (first | assumption | apply EvKeeps.refl | apply State.capobsCell_keeps | apply Win.putMean_keeps | apply KeepsW.s | refine Keeps.foldl (fun _ _ _ => ?_) ?_ | refine KeepsW.foldl (fun _ _ _ => ?_) ?_ | refine Keeps.foldlP (fun _ _ _ => ?_) ?_ | refine Keeps.of_fst ?_ (by assumption) | apply KeepsP.fst | split | apply KeepsP.mk | apply KeepsW.mk | apply Keeps.lit)

theorem Win.fluxPass_keeps {κ : Nat} {ζ : State} {w : Win} (hk : KeepsW κ ζ w) (g : Nat) :
    KeepsW κ ζ (Win.fluxPass w g) := by
  unfold Win.fluxPass
  try dsimp only
  repeat' with_reducible (first | assumption | apply EvKeeps.refl | apply State.fluxobsCell_keeps | apply Win.putMean_keeps | apply KeepsW.s | refine Keeps.foldl (fun _ _ _ => ?_) ?_ | refine KeepsW.foldl (fun _ _ _ => ?_) ?_ | refine Keeps.foldlP (fun _ _ _ => ?_) ?_ | refine Keeps.of_fst ?_ (by assumption) | apply KeepsP.fst | split | apply KeepsP.mk | apply KeepsW.mk | apply Keeps.lit)

theorem Win.sharePass_keeps {κ : Nat} {ζ : State} {w : Win} (hk : KeepsW κ ζ w) (g : Nat) :
    KeepsW κ ζ (Win.sharePass w g) := by
  unfold Win.sharePass
  try dsimp only
  repeat' with_reducible (first | assumption | apply EvKeeps.refl | apply State.hshareCell_keeps | apply Win.putMean_keeps | apply KeepsW.s | refine Keeps.foldl (fun _ _ _ => ?_) ?_ | refine KeepsW.foldl (fun _ _ _ => ?_) ?_ | refine Keeps.foldlP (fun _ _ _ => ?_) ?_ | refine Keeps.of_fst ?_ (by assumption) | apply KeepsP.fst | split | apply KeepsP.mk | apply KeepsW.mk | apply Keeps.lit)

theorem State.dabIdle_keeps {κ : Nat} {ζ s : State} (hk : Keeps κ ζ s) (c : Nat) :
    Keeps κ ζ (State.dabIdle s c) := by
  unfold State.dabIdle
  repeat' with_reducible (first | assumption | apply EvKeeps.refl | apply State.setCell_keeps | apply Keeps.lit)

theorem State.dabGroup_keeps {κ : Nat} {ζ s : State} (hk : Keeps κ ζ s) (n g : Nat) (pstar : Rat) (raised : Bool) :
    Keeps κ ζ (State.dabGroup s n g pstar raised) := by
  unfold State.dabGroup
  try dsimp only
  repeat' with_reducible (first | assumption | apply Keeps.ite | apply KeepsP.ite | apply State.put_keeps | apply State.daboptCell_keeps | apply State.dabIdle_keeps | apply State.pulse_keeps | refine Keeps.foldl (fun _ _ _ => ?_) ?_ | refine Keeps.foldlP (fun _ _ _ => ?_) ?_ | apply KeepsP.fst | apply KeepsP.mk)

theorem Win.dabPass_keeps {κ : Nat} {ζ : State} {w : Win} (hk : KeepsW κ ζ w) (g : Nat) :
    KeepsW κ ζ (Win.dabPass w g) := by
  unfold Win.dabPass
  try dsimp only
  repeat' with_reducible (first | assumption | apply EvKeeps.refl | apply State.setGroup_keeps | apply State.satNotes_keeps | apply State.dabGroup_keeps | apply Win.putMean_keeps | apply KeepsW.s | refine Keeps.of_fst ?_ (by assumption) | apply KeepsP.fst | split | apply KeepsP.mk | apply KeepsW.mk | apply Keeps.lit)

theorem Win.phaseB_keeps {κ : Nat} {ζ : State} {w : Win} (hk : KeepsW κ ζ w) (g : Nat) :
    KeepsW κ ζ (Win.phaseB w g) := by
  unfold Win.phaseB
  repeat' with_reducible (first | assumption | apply Win.fluxPass_keeps | apply Win.sharePass_keeps | apply Win.dabPass_keeps | apply KeepsW.s | apply KeepsW.mk)

theorem State.isoSum_keeps {κ : Nat} {ζ s : State} (hk : Keeps κ ζ s) :
    Keeps κ ζ (State.isoSum s) := by
  unfold State.isoSum
  try dsimp only
  repeat' with_reducible (first | assumption | apply Keeps.ite | apply State.putS_keeps | apply State.putB_keeps | refine Keeps.foldl (fun _ _ _ => ?_) ?_)

theorem State.computeWindow_keeps {κ : Nat} {ζ s : State} (hk : Keeps κ ζ s) :
    Keeps κ ζ (State.computeWindow s) := by
  unfold State.computeWindow
  try dsimp only
  repeat' with_reducible (first | assumption | apply EvKeeps.refl | apply State.targets_keeps | apply State.put_keeps | apply Win.put_keeps | apply State.zvsCell_keeps | apply Win.phaseA_keeps | apply Win.run_keeps | apply Win.track_keeps | apply Win.phaseB_keeps | apply State.wr_keeps | apply State.isoSum_keeps | apply KeepsW.s | refine Keeps.foldl (fun _ _ _ => ?_) ?_ | refine KeepsW.foldl (fun _ _ _ => ?_) ?_ | refine Keeps.foldlP (fun _ _ _ => ?_) ?_ | apply KeepsP.fst | apply KeepsP.mk | apply KeepsW.mk | apply Keeps.lit | apply EvKeeps.lit)

end Sys2Proof.Machine
end

