-- ==== Sys2Proof/Laws/KeepsLaneOps.lean ====
section
/-! SUPPORT. What each operation of Machine/LaneOps.lean keeps. -/

namespace Sys2Proof.Machine

theorem State.setLn_keeps {κ : Nat} {ζ s : State} (hk : Keeps κ ζ s) (l st : Nat) :
    Keeps κ ζ (State.setLn s l st) := by
  unfold State.setLn
  repeat' with_reducible (first | assumption | apply State.put_keeps)

theorem State.haloNext_keeps {κ : Nat} {ζ s : State} (hk : Keeps κ ζ s) (q : Nat) :
    Keeps κ ζ (State.haloNext s q) := by
  unfold State.haloNext
  try dsimp only
  repeat' with_reducible (first | assumption | apply EvKeeps.refl | apply Keeps.ite | apply KeepsP.ite | apply State.setLane_keeps | apply EvKeeps.ite | refine Keeps.of_fst ?_ (by assumption) | apply KeepsP.fst | split | apply KeepsP.mk | apply Keeps.lit)

theorem State.haloAbort_keeps {κ : Nat} {ζ s : State} (hk : Keeps κ ζ s) (l cause : Nat) :
    Keeps κ ζ (State.haloAbort s l cause) := by
  unfold State.haloAbort
  try dsimp only
  repeat' with_reducible (first | assumption | apply EvKeeps.refl | apply Keeps.ite | apply State.put_keeps | apply State.setLane_keeps | apply State.haloNext_keeps | apply EvKeeps.ite | apply Keeps.lit)

theorem State.haloGo_keeps {κ : Nat} {ζ s : State} (hk : Keeps κ ζ s) (l : Nat) :
    Keeps κ ζ (State.haloGo s l) := by
  unfold State.haloGo
  try dsimp only
  repeat' with_reducible (first | assumption | apply EvKeeps.refl | apply Keeps.ite | apply State.put_keeps | apply State.setLane_keeps | apply EvKeeps.ite | apply Keeps.lit)

theorem State.haloDone_keeps {κ : Nat} {ζ s : State} (hk : Keeps κ ζ s) (l : Nat) (errors : List Nat) :
    Keeps κ ζ (State.haloDone s l errors) := by
  unfold State.haloDone
  try dsimp only
  repeat' with_reducible (first | assumption | apply Keeps.ite | apply KeepsP.ite | apply State.wr_keeps | apply State.put_keeps | apply State.pulse_keeps | apply State.haloNext_keeps | refine Keeps.foldl (fun _ _ _ => ?_) ?_ | refine Keeps.foldlP (fun _ _ _ => ?_) ?_ | apply KeepsP.fst | apply KeepsP.mk)

theorem State.markLost_keeps {κ : Nat} {ζ s : State} (hk : Keeps κ ζ s) (l : Nat) :
    Keeps κ ζ (State.markLost s l) := by
  unfold State.markLost
  try dsimp only
  repeat' with_reducible (first | assumption | apply EvKeeps.refl | apply Keeps.ite | apply State.setCell_keeps | apply EvKeeps.ite | refine Keeps.foldl (fun _ _ _ => ?_) ?_ | apply Keeps.lit)

theorem State.enterLost_keeps {κ : Nat} {ζ s : State} (hk : Keeps κ ζ s) (l cause : Nat) :
    Keeps κ ζ (State.enterLost s l cause) := by
  unfold State.enterLost
  try dsimp only
  repeat' with_reducible (first | assumption | apply EvKeeps.refl | apply Keeps.ite | apply State.put_keeps | apply State.pulse_keeps | apply State.markLost_keeps | apply State.haloAbort_keeps | apply State.setLane_keeps | apply State.setLn_keeps | apply EvKeeps.ite | apply Keeps.lit)

theorem State.enterLink_keeps {κ : Nat} {ζ s : State} (hk : Keeps κ ζ s) (l : Nat) :
    Keeps κ ζ (State.enterLink s l) := by
  unfold State.enterLink
  repeat' with_reducible (first | assumption | apply EvKeeps.refl | apply State.setLn_keeps | apply State.setLane_keeps | apply Keeps.lit)

theorem State.laneRetry_keeps {κ : Nat} {ζ s : State} (hk : Keeps κ ζ s) (l : Nat) :
    Keeps κ ζ (State.laneRetry s l) := by
  unfold State.laneRetry
  repeat' with_reducible (first | assumption | apply Keeps.ite | apply State.enterLink_keeps | apply State.satIncF_keeps)

theorem State.laneOn_keeps {κ : Nat} {ζ s : State} (hk : Keeps κ ζ s) (l : Nat) :
    Keeps κ ζ (State.laneOn s l) := by
  unfold State.laneOn
  repeat' with_reducible (first | assumption | apply Keeps.ite | apply State.enterLink_keeps | apply State.setLn_keeps)

theorem State.laneOff_keeps {κ : Nat} {ζ s : State} (hk : Keeps κ ζ s) (l : Nat) :
    Keeps κ ζ (State.laneOff s l) := by
  unfold State.laneOff
  try dsimp only
  repeat' with_reducible (first | assumption | apply EvKeeps.refl | apply Keeps.ite | apply State.markLost_keeps | apply State.haloAbort_keeps | apply State.setLane_keeps | apply State.setLn_keeps | apply State.putB_keeps | apply EvKeeps.ite | apply Keeps.lit)

theorem State.laneEnable_keeps {κ : Nat} {ζ s : State} (hk : Keeps κ ζ s) (l : Nat) (en : Bool) :
    Keeps κ ζ (State.laneEnable s l en) := by
  unfold State.laneEnable
  try dsimp only
  repeat' with_reducible (first | assumption | apply Keeps.ite | apply State.putB_keeps | apply State.laneOn_keeps | apply State.laneOff_keeps)

theorem State.laneRestart_keeps {κ : Nat} {ζ s : State} (hk : Keeps κ ζ s) (l : Nat) :
    Keeps κ ζ (State.laneRestart s l) := by
  unfold State.laneRestart
  repeat' with_reducible (first | assumption | apply Keeps.ite | apply State.enterLink_keeps | apply State.put_keeps)

theorem State.quadUp_keeps {κ : Nat} {ζ s : State} (hk : Keeps κ ζ s) (q : Nat) :
    Keeps κ ζ (State.quadUp s q) := by
  unfold State.quadUp
  try dsimp only
  repeat' with_reducible (first | assumption | apply Keeps.ite | apply State.laneOn_keeps | apply State.put_keeps | refine Keeps.foldl (fun _ _ _ => ?_) ?_)

theorem State.codeErrors_keeps {κ : Nat} {ζ s : State} (hk : Keeps κ ζ s) (l n : Nat) :
    Keeps κ ζ (State.codeErrors s l n) := by
  unfold State.codeErrors
  try dsimp only
  repeat' with_reducible (first | assumption | apply EvKeeps.refl | apply Keeps.ite | apply KeepsP.ite | apply State.errIncBy_keeps | apply State.setLane_keeps | apply State.pulse_keeps | apply EvKeeps.ite | refine Keeps.foldl (fun _ _ _ => ?_) ?_ | refine Keeps.foldlP (fun _ _ _ => ?_) ?_ | apply KeepsP.fst | apply KeepsP.mk | apply Keeps.lit)

theorem State.lockGot_keeps {κ : Nat} {ζ s : State} (hk : Keeps κ ζ s) (l : Nat) :
    Keeps κ ζ (State.lockGot s l) := by
  unfold State.lockGot
  repeat' with_reducible (first | assumption | apply Keeps.ite | apply State.putB_keeps)

theorem State.lockGone_keeps {κ : Nat} {ζ s : State} (hk : Keeps κ ζ s) (l : Nat) :
    Keeps κ ζ (State.lockGone s l) := by
  unfold State.lockGone
  try dsimp only
  repeat' with_reducible (first | assumption | apply EvKeeps.refl | apply Keeps.ite | apply State.putB_keeps | apply State.enterLost_keeps | apply State.setLane_keeps | apply EvKeeps.ite | apply Keeps.lit)

theorem State.idleBack_keeps {κ : Nat} {ζ s : State} (hk : Keeps κ ζ s) (l origin num : Nat) (gen : Bool) :
    Keeps κ ζ (State.idleBack s l origin num gen) := by
  unfold State.idleBack
  repeat' with_reducible (first | assumption | apply EvKeeps.refl | apply Keeps.ite | apply State.pulse_keeps | apply State.setLane_keeps | apply EvKeeps.ite | apply Keeps.lit)

theorem State.eqLane_keeps {κ : Nat} {ζ s : State} (hk : Keeps κ ζ s) (l band : Nat) :
    Keeps κ ζ (State.eqLane s l band) := by
  unfold State.eqLane
  try dsimp only
  repeat' with_reducible (first | assumption | apply EvKeeps.refl | apply Keeps.ite | apply State.put_keeps | apply State.haloAbort_keeps | apply State.setLane_keeps | apply EvKeeps.ite | apply Keeps.lit)

theorem State.eqStep_keeps {κ : Nat} {ζ s : State} (hk : Keeps κ ζ s) :
    Keeps κ ζ (State.eqStep s) := by
  unfold State.eqStep
  try dsimp only
  repeat' with_reducible (first | assumption | apply EvKeeps.refl | apply Keeps.ite | apply KeepsP.ite | apply State.eqLane_keeps | apply EvKeeps.ite | refine Keeps.foldl (fun _ _ _ => ?_) ?_ | refine Keeps.foldlP (fun _ _ _ => ?_) ?_ | refine Keeps.of_fst ?_ (by assumption) | apply KeepsP.fst | split | apply KeepsP.mk | apply Keeps.lit)

end Sys2Proof.Machine
end

