-- ==== Sys2Proof/Laws/KeepsMvsOps.lean ====
section
/-! SUPPORT. What each operation of Machine/MvsOps.lean keeps. -/

namespace Sys2Proof.Machine

theorem State.putLeg_keeps {κ : Nat} {ζ s : State} (hk : Keeps κ ζ s) (c : Nat) (l : Leg) :
    Keeps κ ζ (State.putLeg s c l) := by
  unfold State.putLeg
  try dsimp only
  repeat' with_reducible (first | assumption | apply EvKeeps.refl | apply Keeps.ite | apply State.errInc_keeps | apply State.setCell_keeps | apply State.putS_keeps | apply State.put_keeps | apply State.putB_keeps | apply EvKeeps.ite | apply Keeps.lit | apply EvKeeps.lit)

theorem State.allocGroup_keeps {κ : Nat} {ζ s : State} (hk : Keeps κ ζ s) (g : Nat) :
    Keeps κ ζ (State.allocGroup s g) := by
  unfold State.allocGroup
  try dsimp only
  repeat' with_reducible (first | assumption | apply EvKeeps.refl | apply Keeps.ite | apply KeepsP.ite | apply State.putLeg_keeps | apply State.put_keeps | apply State.putB_keeps | apply State.setGroup_keeps | apply EvKeeps.ite | refine Keeps.foldl (fun _ _ _ => ?_) ?_ | refine Keeps.foldlP (fun _ _ _ => ?_) ?_ | refine Keeps.of_fst ?_ (by assumption) | apply KeepsP.fst | split | apply KeepsP.mk | apply Keeps.lit)

theorem State.allocate_keeps {κ : Nat} {ζ s : State} (hk : Keeps κ ζ s) :
    Keeps κ ζ (State.allocate s) := by
  unfold State.allocate
  repeat' with_reducible (first | assumption | apply State.allocGroup_keeps | refine Keeps.foldl (fun _ _ _ => ?_) ?_)

theorem State.sendRecord_keeps {κ : Nat} {ζ s : State} (hk : Keeps κ ζ s) (c : Nat) :
    Keeps κ ζ (State.sendRecord s c) := by
  unfold State.sendRecord
  try dsimp only
  repeat' with_reducible (first | assumption | apply State.setCell_keeps | apply State.wr_keeps | refine Keeps.foldl (fun _ _ _ => ?_) ?_ | refine Keeps.foldlP (fun _ _ _ => ?_) ?_ | refine Keeps.of_fst ?_ (by assumption) | apply KeepsP.fst | split | apply KeepsP.mk)

end Sys2Proof.Machine
end

