-- ==== Sys2Proof/Laws/KeepsRecordOps.lean ====
section
/-! SUPPORT. What each operation of Machine/RecordOps.lean keeps. -/

namespace Sys2Proof.Machine

theorem State.setHead_keeps {κ : Nat} {ζ s : State} (hk : Keeps κ ζ s) (c : Nat) (t : StageSet) :
    Keeps κ ζ (State.setHead s c t) := by
  unfold State.setHead
  repeat' with_reducible (first | assumption | apply EvKeeps.refl | apply State.setCell_keeps | apply Keeps.lit)

theorem State.dropHead_keeps {κ : Nat} {ζ s : State} (hk : Keeps κ ζ s) (c : Nat) :
    Keeps κ ζ (State.dropHead s c) := by
  unfold State.dropHead
  repeat' with_reducible (first | assumption | apply EvKeeps.refl | apply State.setCell_keeps | apply Keeps.lit)

theorem State.stageFail_keeps {κ : Nat} {ζ s : State} (hk : Keeps κ ζ s) (c : Nat) (kind : SetKind) (reason : Nat) :
    Keeps κ ζ (State.stageFail s c kind reason) := by
  unfold State.stageFail
  try dsimp only
  repeat' with_reducible (first | assumption | apply Keeps.ite | apply State.dropHead_keeps | apply State.pulse_keeps | apply State.enterLost_keeps)

theorem State.stageResend_keeps {κ : Nat} {ζ s : State} (hk : Keeps κ ζ s) (c : Nat) (t : StageSet) (reason : Nat) :
    Keeps κ ζ (State.stageResend s c t reason) := by
  unfold State.stageResend
  try dsimp only
  repeat' with_reducible (first | assumption | apply EvKeeps.refl | apply Keeps.ite | apply State.setCell_keeps | apply State.setHead_keeps | apply State.stageFail_keeps | apply EvKeeps.ite | apply Keeps.lit)

theorem State.offsInForce_keeps {κ : Nat} {ζ s : State} (hk : Keeps κ ζ s) (fo fv : Fld) (c : Nat) (t : StageSet) :
    Keeps κ ζ (State.offsInForce s fo fv c t) := by
  unfold State.offsInForce
  repeat' with_reducible (first | assumption | apply State.put_keeps)

theorem State.stageAck_keeps {κ : Nat} {ζ s : State} (hk : Keeps κ ζ s) (c tag : Nat) :
    Keeps κ ζ (State.stageAck s c tag) := by
  unfold State.stageAck
  try dsimp only
  repeat' with_reducible (first | assumption | apply EvKeeps.refl | apply Keeps.ite | apply KeepsP.ite | apply State.dropHead_keeps | apply State.put_keeps | apply State.offsInForce_keeps | apply EvKeeps.ite | refine Keeps.of_fst ?_ (by assumption) | apply KeepsP.fst | split | apply KeepsP.mk | apply Keeps.lit)

theorem State.stageNak_keeps {κ : Nat} {ζ s : State} (hk : Keeps κ ζ s) (c tag reason : Nat) :
    Keeps κ ζ (State.stageNak s c tag reason) := by
  unfold State.stageNak
  repeat' with_reducible (first | assumption | apply EvKeeps.refl | apply Keeps.ite | apply KeepsP.ite | apply State.stageResend_keeps | apply State.stageFail_keeps | apply EvKeeps.ite | refine Keeps.of_fst ?_ (by assumption) | apply KeepsP.fst | split | apply KeepsP.mk | apply Keeps.lit)

theorem State.stageTimeout_keeps {κ : Nat} {ζ s : State} (hk : Keeps κ ζ s) (c : Nat) :
    Keeps κ ζ (State.stageTimeout s c) := by
  unfold State.stageTimeout
  repeat' with_reducible (first | assumption | apply Keeps.ite | apply KeepsP.ite | apply State.stageResend_keeps | refine Keeps.of_fst ?_ (by assumption) | apply KeepsP.fst | split | apply KeepsP.mk)

theorem State.feedNone_keeps {κ : Nat} {ζ s : State} (hk : Keeps κ ζ s) (c : Nat) :
    Keeps κ ζ (State.feedNone s c) := by
  unfold State.feedNone
  try dsimp only
  repeat' with_reducible (first | assumption | apply EvKeeps.refl | apply State.setCell_keeps | apply Keeps.lit)

theorem State.feedRecord_keeps {κ : Nat} {ζ s : State} (hk : Keeps κ ζ s) (c : Nat) (ws : List Word) :
    Keeps κ ζ (State.feedRecord s c ws) := by
  unfold State.feedRecord
  try dsimp only
  repeat' with_reducible (first | assumption | apply EvKeeps.refl | apply Keeps.ite | apply State.setCell_keeps | apply State.pulse_keeps | apply EvKeeps.ite | apply Keeps.lit)

theorem State.vcapSub_keeps {κ : Nat} {ζ s : State} (hk : Keeps κ ζ s) (g : Nat) :
    Keeps κ ζ (State.vcapSub s g) := by
  unfold State.vcapSub
  try dsimp only
  repeat' with_reducible (first | assumption | apply EvKeeps.refl | apply Keeps.ite | apply State.setGroup_keeps | apply State.setCell_keeps | apply EvKeeps.ite | refine Keeps.foldl (fun _ _ _ => ?_) ?_ | apply Keeps.lit)

theorem State.removeOpen_keeps {κ : Nat} {ζ s : State} (hk : Keeps κ ζ s) (c : Nat) :
    Keeps κ ζ (State.removeOpen s c) := by
  unfold State.removeOpen
  try dsimp only
  repeat' with_reducible (first | assumption | apply EvKeeps.refl | apply Keeps.ite | apply State.setCell_keeps | apply State.removeCell_keeps | apply EvKeeps.ite | apply Keeps.lit)

theorem State.callSpare_keeps {κ : Nat} {ζ s : State} (hk : Keeps κ ζ s) (g : Nat) :
    Keeps κ ζ (State.callSpare s g) := by
  unfold State.callSpare
  try dsimp only
  repeat' with_reducible (first | assumption | apply EvKeeps.refl | apply Keeps.ite | apply KeepsP.ite | apply State.setCState_keeps | apply State.pulse_keeps | apply State.setCell_keeps | apply EvKeeps.ite | refine Keeps.foldl (fun _ _ _ => ?_) ?_ | refine Keeps.foldlP (fun _ _ _ => ?_) ?_ | refine Keeps.of_fst ?_ (by assumption) | apply KeepsP.fst | split | apply KeepsP.mk | apply Keeps.lit | apply EvKeeps.lit)

theorem State.rideThrough_keeps {κ : Nat} {ζ s : State} (hk : Keeps κ ζ s) (before : List Nat) :
    Keeps κ ζ (State.rideThrough s before) := by
  unfold State.rideThrough
  try dsimp only
  repeat' with_reducible (first | assumption | apply Keeps.ite | apply State.callSpare_keeps | apply State.pulse_keeps | refine Keeps.foldl (fun _ _ _ => ?_) ?_)

theorem State.groupUnder_keeps {κ : Nat} {ζ s : State} (hk : Keeps κ ζ s) :
    Keeps κ ζ (State.groupUnder s) := by
  unfold State.groupUnder
  try dsimp only
  repeat' with_reducible (first | assumption | apply EvKeeps.refl | apply Keeps.ite | apply State.raise_keeps | apply State.setGroup_keeps | apply State.clearAct_keeps | apply EvKeeps.ite | refine Keeps.foldl (fun _ _ _ => ?_) ?_ | apply Keeps.lit)

theorem State.missCell_keeps {κ : Nat} {ζ s : State} (hk : Keeps κ ζ s) (c : Nat) :
    Keeps κ ζ (State.missCell s c) := by
  unfold State.missCell
  try dsimp only
  repeat' with_reducible (first | assumption | apply EvKeeps.refl | apply Keeps.ite | apply State.pulse_keeps | apply State.errInc_keeps | apply State.satIncF_keeps | apply State.setCell_keeps | apply EvKeeps.ite | apply Keeps.lit)

theorem State.noteIdent_keeps {κ : Nat} {ζ s : State} (hk : Keeps κ ζ s) (c : Nat) (lo : Bool) :
    Keeps κ ζ (State.noteIdent s c lo) := by
  unfold State.noteIdent
  try dsimp only
  repeat' with_reducible (first | assumption | apply EvKeeps.refl | apply State.setCell_keeps | apply State.putB_keeps | apply Keeps.lit)

theorem State.takeReply_keeps {κ : Nat} {ζ s : State} (hk : Keeps κ ζ s) (c rtype reply : Nat) :
    Keeps κ ζ (State.takeReply s c rtype reply) := by
  unfold State.takeReply
  try dsimp only
  repeat' with_reducible (first | assumption | apply EvKeeps.refl | apply Keeps.ite | apply State.put_keeps | apply State.noteIdent_keeps | apply State.refuseCell_keeps | apply State.setCell_keeps | apply State.stageAck_keeps | apply State.stageNak_keeps | apply EvKeeps.ite | apply Keeps.lit)

theorem State.recordMoves_keeps {κ : Nat} {ζ s : State} (hk : Keeps κ ζ s) (c events : Nat) :
    Keeps κ ζ (State.recordMoves s c events) := by
  unfold State.recordMoves
  try dsimp only
  repeat' with_reducible (first | assumption | apply EvKeeps.refl | apply Keeps.ite | apply State.pulse_keeps | apply State.removeOpen_keeps | apply State.enterBlocked_keeps | apply State.setCell_keeps | apply State.giveUnitBack_keeps | apply State.setCState_keeps | apply EvKeeps.ite | apply Keeps.lit)

theorem State.takeRecord_keeps {κ : Nat} {ζ s0 : State} (hk : Keeps κ ζ s0) (c : Nat) (r : Option GatherRec) :
    Keeps κ ζ (State.takeRecord s0 c r) := by
  unfold State.takeRecord
  try dsimp only
  repeat' with_reducible (first | assumption | apply EvKeeps.refl | apply Keeps.ite | apply KeepsP.ite | apply State.setCell_keeps | apply State.wr_keeps | apply State.put_keeps | apply State.feedRecord_keeps | apply State.takeReply_keeps | apply State.recordMoves_keeps | apply State.feedNone_keeps | apply State.missCell_keeps | apply EvKeeps.ite | refine Keeps.foldl (fun _ _ _ => ?_) ?_ | refine Keeps.foldlP (fun _ _ _ => ?_) ?_ | refine Keeps.of_fst ?_ (by assumption) | apply KeepsP.fst | split | apply KeepsP.mk | apply Keeps.lit)

theorem State.offsetCell_keeps {κ : Nat} {ζ s : State} (hk : Keeps κ ζ s) (l c : Nat) (need : Nat) (b : Bool) :
    Keeps κ ζ (State.offsetCell s l c need b) := by
  unfold State.offsetCell
  try dsimp only
  repeat' with_reducible (first | assumption | apply EvKeeps.refl | apply Keeps.ite | apply KeepsP.ite | apply State.setLane_keeps | apply State.stage_keeps | apply State.pulse_keeps | apply EvKeeps.ite | apply KeepsP.fst | apply Keeps.lit)

theorem State.offsetLane_keeps {κ : Nat} {ζ s : State} (hk : Keeps κ ζ s) (l need : Nat) :
    Keeps κ ζ (State.offsetLane s l need) := by
  unfold State.offsetLane
  try dsimp only
  repeat' with_reducible (first | assumption | apply Keeps.ite | apply State.offsetCell_keeps | refine Keeps.foldl (fun _ _ _ => ?_) ?_)

theorem State.measureLane_keeps {κ : Nat} {ζ s : State} (hk : Keeps κ ζ s) (l : Nat) (f : GatherRx) :
    Keeps κ ζ (State.measureLane s l f) := by
  unfold State.measureLane
  try dsimp only
  repeat' with_reducible (first | assumption | apply Keeps.ite | apply KeepsP.ite | apply State.setLane_keeps | refine Keeps.foldl (fun _ _ _ => ?_) ?_ | refine Keeps.foldlP (fun _ _ _ => ?_) ?_ | refine Keeps.of_fst ?_ (by assumption) | apply KeepsP.fst | split | apply KeepsP.mk)

theorem State.alignFrame_keeps {κ : Nat} {ζ s : State} (hk : Keeps κ ζ s) (l : Nat) (f : GatherRx) :
    Keeps κ ζ (State.alignFrame s l f) := by
  unfold State.alignFrame
  try dsimp only
  repeat' with_reducible (first | assumption | apply EvKeeps.refl | apply Keeps.ite | apply State.pulse_keeps | apply State.enterLost_keeps | apply State.setLane_keeps | apply State.measureLane_keeps | apply State.offsetLane_keeps | apply EvKeeps.ite | apply Keeps.lit)

theorem State.gatherLate_keeps {κ : Nat} {ζ s : State} (hk : Keeps κ ζ s) (l : Nat) :
    Keeps κ ζ (State.gatherLate s l) := by
  unfold State.gatherLate
  repeat' with_reducible (first | assumption | apply State.pulse_keeps | apply State.errInc_keeps)

theorem State.laneMiss_keeps {κ : Nat} {ζ s : State} (hk : Keeps κ ζ s) (l : Nat) :
    Keeps κ ζ (State.laneMiss s l) := by
  unfold State.laneMiss
  try dsimp only
  repeat' with_reducible (first | assumption | apply EvKeeps.refl | apply Keeps.ite | apply State.setLane_keeps | apply State.gatherLate_keeps | apply State.enterLost_keeps | apply EvKeeps.ite | apply Keeps.lit)

theorem State.laneOpen_keeps {κ : Nat} {ζ s : State} (hk : Keeps κ ζ s) (l : Nat) :
    Keeps κ ζ (State.laneOpen s l) := by
  unfold State.laneOpen
  try dsimp only
  repeat' with_reducible (first | assumption | apply EvKeeps.refl | apply Keeps.ite | apply KeepsP.ite | apply State.laneMiss_keeps | apply State.setLane_keeps | apply State.put_keeps | apply State.gatherLate_keeps | apply State.alignFrame_keeps | apply State.measureLane_keeps | apply State.offsetLane_keeps | apply EvKeeps.ite | refine Keeps.foldl (fun _ _ _ => ?_) ?_ | refine Keeps.foldlP (fun _ _ _ => ?_) ?_ | refine Keeps.of_fst ?_ (by assumption) | apply KeepsP.fst | split | apply KeepsP.mk | apply Keeps.lit)

theorem State.xlOpen_keeps {κ : Nat} {ζ s : State} (hk : Keeps κ ζ s) (l : Nat) :
    Keeps κ ζ (State.xlOpen s l) := by
  unfold State.xlOpen
  try dsimp only
  repeat' with_reducible (first | assumption | apply EvKeeps.refl | apply Keeps.ite | apply State.setLane_keeps | apply State.enterLost_keeps | apply EvKeeps.ite | apply Keeps.lit)

theorem State.takeRecords_keeps {κ : Nat} {ζ s : State} (hk : Keeps κ ζ s) :
    Keeps κ ζ (State.takeRecords s) := by
  unfold State.takeRecords
  try dsimp only
  repeat' with_reducible (first | assumption | apply Keeps.ite | apply State.takeRecord_keeps | apply State.feedNone_keeps | refine Keeps.foldl (fun _ _ _ => ?_) ?_)

theorem State.dueRemovals_keeps {κ : Nat} {ζ s : State} (hk : Keeps κ ζ s) :
    Keeps κ ζ (State.dueRemovals s) := by
  unfold State.dueRemovals
  try dsimp only
  repeat' with_reducible (first | assumption | apply EvKeeps.refl | apply Keeps.ite | apply State.removeOpen_keeps | apply EvKeeps.ite | refine Keeps.foldl (fun _ _ _ => ?_) ?_ | apply Keeps.lit | apply EvKeeps.lit)

theorem State.openCells_keeps {κ : Nat} {ζ s : State} (hk : Keeps κ ζ s) :
    Keeps κ ζ (State.openCells s) := by
  unfold State.openCells
  try dsimp only
  repeat' with_reducible (first | assumption | apply EvKeeps.refl | apply Keeps.ite | apply State.setCell_keeps | apply State.takeRecords_keeps | apply State.xlOpen_keeps | apply State.laneOpen_keeps | apply State.vcapSub_keeps | apply State.dueRemovals_keeps | apply State.rideThrough_keeps | apply State.groupUnder_keeps | apply EvKeeps.ite | refine Keeps.foldl (fun _ _ _ => ?_) ?_ | apply Keeps.lit)

theorem State.stopBlock_keeps {κ : Nat} {ζ s : State} (hk : Keeps κ ζ s) :
    Keeps κ ζ (State.stopBlock s) := by
  unfold State.stopBlock
  repeat' with_reducible (first | assumption | apply EvKeeps.refl | apply Keeps.lit | apply EvKeeps.lit)

end Sys2Proof.Machine
end

