-- ==== Sys2Proof/Laws/KeepsAcqPages.lean ====
section
/-! SUPPORT. What each operation of Machine/AcqPages.lean keeps. -/

namespace Sys2Proof.Machine

theorem State.setPage_keeps {κ : Nat} {ζ s : State} (hk : Keeps κ ζ s) (p : Nat) (x : Page) :
    Keeps κ ζ (State.setPage s p x) := by
  unfold State.setPage
  try dsimp only
  repeat' with_reducible (first | assumption | apply EvKeeps.refl | apply Keeps.lit)

theorem State.setRec_keeps {κ : Nat} {ζ s : State} (hk : Keeps κ ζ s) (e : Nat) (r : Option Record) :
    Keeps κ ζ (State.setRec s e r) := by
  unfold State.setRec
  try dsimp only
  repeat' with_reducible (first | assumption | apply EvKeeps.refl | apply Keeps.lit)

theorem State.setRcr_keeps {κ : Nat} {ζ s : State} (hk : Keeps κ ζ s) (k : Nat) (x : Recorder) :
    Keeps κ ζ (State.setRcr s k x) := by
  unfold State.setRcr
  try dsimp only
  repeat' with_reducible (first | assumption | apply EvKeeps.refl | apply Keeps.lit)

theorem State.pagePut_keeps {κ : Nat} {ζ s : State} (hk : Keeps κ ζ s) (p ofs : Nat) (bs : List Byte) :
    Keeps κ ζ (State.pagePut s p ofs bs) := by
  unfold State.pagePut
  repeat' with_reducible (first | assumption | apply Keeps.ite | apply State.dramPut_keeps)

theorem State.writeStream_keeps {κ : Nat} {ζ s : State} (hk : Keeps κ ζ s) (recid st : Nat) (t : Stream) :
    Keeps κ ζ (State.writeStream s recid st t) := by
  unfold State.writeStream
  try dsimp only
  repeat' with_reducible (first | assumption | apply Keeps.ite | apply KeepsP.ite | apply State.pagePut_keeps | refine Keeps.foldl (fun _ _ _ => ?_) ?_ | refine Keeps.foldlP (fun _ _ _ => ?_) ?_ | apply KeepsP.fst | apply KeepsP.mk)

theorem State.writeRecord_keeps {κ : Nat} {ζ s : State} (hk : Keeps κ ζ s) (r : Record) :
    Keeps κ ζ (State.writeRecord s r) := by
  unfold State.writeRecord
  try dsimp only
  repeat' with_reducible (first | assumption | apply State.writeStream_keeps | apply State.pagePut_keeps | refine Keeps.foldl (fun _ _ _ => ?_) ?_ | refine Keeps.foldlP (fun _ _ _ => ?_) ?_ | apply KeepsP.fst | apply KeepsP.mk)

theorem State.evictOne_keeps {κ : Nat} {ζ s : State} (hk : Keeps κ ζ s) :
    KeepsOP κ ζ (State.evictOne s) := by
  unfold State.evictOne
  try dsimp only
  repeat' with_reducible (first | assumption | apply EvKeeps.refl | apply Keeps.ite | apply KeepsP.ite | apply KeepsOP.ite | apply State.errInc_keeps | apply State.pulse_keeps | apply State.setRec_keeps | apply State.setPage_keeps | apply State.writeRecord_keeps | apply EvKeeps.ite | exact KeepsOP.none | apply KeepsOP.some | refine Keeps.of_fst ?_ (by assumption) | apply KeepsP.fst | split | apply KeepsP.mk | apply Keeps.lit | apply EvKeeps.lit)

theorem State.takePage_keeps {κ : Nat} {ζ s : State} (hk : Keeps κ ζ s) :
    KeepsOP κ ζ (State.takePage s) := by
  unfold State.takePage
  try dsimp only
  repeat' with_reducible (first | assumption | apply State.evictOne_keeps | exact KeepsOP.none | apply KeepsOP.some | refine Keeps.of_someP ?_ (by assumption) | refine Keeps.of_fst ?_ (by assumption) | apply KeepsP.fst | split | apply KeepsP.mk)

theorem State.freeList_keeps {κ : Nat} {ζ s : State} (hk : Keeps κ ζ s) (ps : List Nat) :
    Keeps κ ζ (State.freeList s ps) := by
  unfold State.freeList
  try dsimp only
  repeat' with_reducible (first | assumption | apply EvKeeps.refl | apply State.setPage_keeps | refine Keeps.foldl (fun _ _ _ => ?_) ?_ | apply Keeps.lit)

theorem State.dropRec_keeps {κ : Nat} {ζ s : State} (hk : Keeps κ ζ s) (e : Nat) :
    Keeps κ ζ (State.dropRec s e) := by
  unfold State.dropRec
  repeat' with_reducible (first | assumption | apply State.freeList_keeps | apply State.setRec_keeps | refine Keeps.of_fst ?_ (by assumption) | apply KeepsP.fst | split | apply KeepsP.mk)

theorem State.dirSlot_keeps {κ : Nat} {ζ s : State} (hk : Keeps κ ζ s) : KeepsOP κ ζ (State.dirSlot s) := by
  unfold State.dirSlot
  split
  · exact KeepsOP.some hk
  · exact KeepsOP.map fun _ => State.dropRec_keeps hk _

theorem State.newRec_keeps {κ : Nat} {ζ s : State} (hk : Keeps κ ζ s) (r : Record) :
    KeepsXP κ ζ (State.newRec s r) := by
  unfold State.newRec
  repeat' with_reducible (first | assumption | apply EvKeeps.refl | apply State.dirSlot_keeps | apply State.takePage_keeps | apply State.setPage_keeps | apply State.setRec_keeps | exact KeepsXP.error | apply KeepsXP.ok | refine Keeps.of_someP ?_ (by assumption) | refine Keeps.of_fst ?_ (by assumption) | apply KeepsP.fst | split | apply KeepsP.mk | apply Keeps.lit | apply EvKeeps.lit)

theorem State.listRec_keeps {κ : Nat} {ζ s : State} (hk : Keeps κ ζ s) (e : Nat) :
    Keeps κ ζ (State.listRec s e) := by
  unfold State.listRec
  try dsimp only
  repeat' with_reducible (first | assumption | apply EvKeeps.refl | apply Keeps.ite | apply KeepsP.ite | apply State.setRec_keeps | apply State.put_keeps | apply EvKeeps.ite | refine Keeps.of_fst ?_ (by assumption) | apply KeepsP.fst | split | apply KeepsP.mk | apply Keeps.lit | apply EvKeeps.lit)

theorem State.closeRec_keeps {κ : Nat} {ζ s : State} (hk : Keeps κ ζ s) (e cause : Nat) :
    Keeps κ ζ (State.closeRec s e cause) := by
  unfold State.closeRec
  try dsimp only
  repeat' with_reducible (first | assumption | apply EvKeeps.refl | apply Keeps.ite | apply KeepsP.ite | apply State.freeList_keeps | apply State.setRec_keeps | apply State.writeRecord_keeps | apply State.pulse_keeps | apply EvKeeps.ite | refine Keeps.of_fst ?_ (by assumption) | apply KeepsP.fst | split | apply KeepsP.mk | apply Keeps.lit | apply EvKeeps.lit)

theorem State.reserve_keeps {κ : Nat} {ζ s : State} (hk : Keeps κ ζ s) (e st n : Nat) :
    KeepsP κ ζ (State.reserve s e st n) := by
  unfold State.reserve
  try dsimp only
  repeat' with_reducible (first | assumption | apply EvKeeps.refl | apply Keeps.ite | apply KeepsP.ite | apply State.takePage_keeps | apply State.setPage_keeps | apply State.setRec_keeps | apply EvKeeps.ite | refine Keeps.of_someP ?_ (by assumption) | refine Keeps.of_fst ?_ (by assumption) | apply KeepsP.fst | split | apply KeepsP.mk | apply Keeps.lit | apply EvKeeps.lit)

theorem State.streamPage_keeps {κ : Nat} {ζ s : State} (hk : Keeps κ ζ s) (e st : Nat) (r : Record) :
    KeepsO κ ζ (State.streamPage s e st r) := by
  unfold State.streamPage
  try dsimp only
  repeat' with_reducible (first | assumption | apply EvKeeps.refl | apply State.setPage_keeps | apply State.setRec_keeps | apply State.takePage_keeps | exact KeepsO.none | apply KeepsO.some | refine Keeps.of_someP ?_ (by assumption) | refine Keeps.of_fst ?_ (by assumption) | apply KeepsP.fst | split | apply KeepsP.mk | apply Keeps.lit | apply EvKeeps.lit)

theorem State.placeRow_keeps {κ : Nat} {ζ s : State} (hk : Keeps κ ζ s) (e st : Nat) (bs : List Byte) :
    Keeps κ ζ (State.placeRow s e st bs) := by
  unfold State.placeRow
  try dsimp only
  repeat' with_reducible (first | assumption | apply EvKeeps.refl | apply State.dramPut_keeps | apply State.setPage_keeps | apply State.setRec_keeps | refine Keeps.of_fst ?_ (by assumption) | apply KeepsP.fst | split | apply KeepsP.mk | apply Keeps.lit | apply EvKeeps.lit)

theorem State.pushRow_keeps {κ : Nat} {ζ s : State} (hk : Keeps κ ζ s) (e st : Nat) (bs : List Byte) :
    Keeps κ ζ (State.pushRow s e st bs) := by
  unfold State.pushRow
  try dsimp only
  repeat' with_reducible (first | assumption | apply Keeps.ite | apply KeepsP.ite | apply State.streamPage_keeps | apply State.placeRow_keeps | apply State.pulse_keeps | apply State.closeRec_keeps | refine Keeps.of_some ?_ (by assumption) | refine Keeps.of_fst ?_ (by assumption) | apply KeepsP.fst | split | apply KeepsP.mk)

theorem State.guardFree_keeps {κ : Nat} {ζ s t : State} (hs : Keeps κ ζ s) (ht : Keeps κ ζ t) :
    KeepsP κ ζ (State.guardFree s t) := by
  unfold State.guardFree
  exact KeepsP.ite hs ht

theorem State.dirControl_keeps {κ : Nat} {ζ s : State} (hk : Keeps κ ζ s) (cmd : Nat) :
    KeepsP κ ζ (State.dirControl s cmd) := by
  unfold State.dirControl
  try dsimp only
  repeat' with_reducible (first | assumption | apply EvKeeps.refl | apply Keeps.ite | apply KeepsP.ite | apply State.setRec_keeps | apply State.guardFree_keeps | apply State.writeRecord_keeps | apply State.dropRec_keeps | apply EvKeeps.ite | refine Keeps.of_fst ?_ (by assumption) | apply KeepsP.fst | split | apply KeepsP.mk | apply Keeps.lit)

theorem State.releaseSlot_keeps {κ : Nat} {ζ s : State} (hk : Keeps κ ζ s) (n : Nat) :
    Keeps κ ζ (State.releaseSlot s n) := by
  unfold State.releaseSlot
  try dsimp only
  repeat' with_reducible (first | assumption | apply EvKeeps.refl | apply Keeps.ite | apply State.put_keeps | apply State.setPage_keeps | apply EvKeeps.ite | apply Keeps.lit)

theorem State.wmapWrite_keeps {κ : Nat} {ζ s : State} (hk : Keeps κ ζ s) (n : Nat) (own : Bool) (p : Nat) :
    KeepsP κ ζ (State.wmapWrite s n own p) := by
  unfold State.wmapWrite
  try dsimp only
  repeat' with_reducible (first | assumption | apply EvKeeps.refl | apply Keeps.ite | apply KeepsP.ite | apply State.releaseSlot_keeps | apply State.setPage_keeps | apply State.put_keeps | apply State.guardFree_keeps | apply EvKeeps.ite | apply KeepsP.mk | apply Keeps.lit)

end Sys2Proof.Machine
end

