-- ==== Sys2Proof/Laws/KeepsAcqOps.lean ====
section
/-! SUPPORT. What each operation of Machine/AcqOps.lean keeps. -/

namespace Sys2Proof.Machine

theorem State.setRState_keeps {κ : Nat} {ζ s : State} (hk : Keeps κ ζ s) (k n : Nat) :
    Keeps κ ζ (State.setRState s k n) := by
  unfold State.setRState
  repeat' with_reducible (first | assumption | apply State.put_keeps)

theorem State.beginFill_keeps {κ : Nat} {ζ s : State} (hk : Keeps κ ζ s) (k made : Nat) :
    KeepsX κ ζ (State.beginFill s k made) := by
  unfold State.beginFill
  repeat' with_reducible (first | assumption | apply EvKeeps.refl | apply State.newRec_keeps | apply State.setRcr_keeps | apply State.setRState_keeps | exact KeepsX.error | apply KeepsX.ok | refine Keeps.of_okP ?_ (by assumption) | refine Keeps.of_fst ?_ (by assumption) | apply KeepsP.fst | split | apply KeepsP.mk | apply Keeps.lit)

theorem State.armRecorder_keeps {κ : Nat} {ζ s : State} (hk : Keeps κ ζ s) (k : Nat) :
    KeepsP κ ζ (State.armRecorder s k) := by
  unfold State.armRecorder
  repeat' with_reducible (first | assumption | apply Keeps.ite | apply KeepsP.ite | apply State.beginFill_keeps | refine Keeps.of_ok ?_ (by assumption) | refine Keeps.of_fst ?_ (by assumption) | apply KeepsP.fst | split | apply KeepsP.mk)

theorem State.emitPhys_keeps {κ : Nat} {ζ s : State} (hk : Keeps κ ζ s) (k e : Nat) (row : List Int) :
    Keeps κ ζ (State.emitPhys s k e row) := by
  unfold State.emitPhys
  try dsimp only
  repeat' with_reducible (first | assumption | apply EvKeeps.refl | apply Keeps.ite | apply KeepsP.ite | apply State.pushRow_keeps | apply State.setRcr_keeps | apply EvKeeps.ite | refine Keeps.of_fst ?_ (by assumption) | apply KeepsP.fst | split | apply KeepsP.mk | apply Keeps.lit | apply EvKeeps.lit)

theorem State.emitVirt_keeps {κ : Nat} {ζ s : State} (hk : Keeps κ ζ s) (k e : Nat) (vals : List (Int × Bool)) :
    Keeps κ ζ (State.emitVirt s k e vals) := by
  unfold State.emitVirt
  try dsimp only
  repeat' with_reducible (first | assumption | apply EvKeeps.refl | apply Keeps.ite | apply KeepsP.ite | apply State.pushRow_keeps | apply State.setRcr_keeps | apply EvKeeps.ite | refine Keeps.foldl (fun _ _ _ => ?_) ?_ | refine Keeps.foldlP (fun _ _ _ => ?_) ?_ | apply KeepsP.fst | apply KeepsP.mk | apply Keeps.lit)

theorem State.found_keeps {κ : Nat} {ζ s : State} (hk : Keeps κ ζ s) (m row : Nat) :
    Keeps κ ζ (State.found s m row) := by
  unfold State.found
  repeat' with_reducible (first | assumption | apply EvKeeps.refl | apply Keeps.lit)

theorem State.dropViols_keeps {κ : Nat} {ζ s : State} (hk : Keeps κ ζ s) (k : Nat) :
    Keeps κ ζ (State.dropViols s k) := by
  unfold State.dropViols
  try dsimp only
  repeat' with_reducible (first | assumption | apply EvKeeps.refl | apply KeepsP.fst | apply Keeps.lit)

theorem State.maskRow_keeps {κ : Nat} {ζ s : State} (hk : Keeps κ ζ s) (k e : Nat) (row : List Int) :
    Keeps κ ζ (State.maskRow s k e row) := by
  unfold State.maskRow
  try dsimp only
  repeat' with_reducible (first | assumption | apply Keeps.ite | apply State.found_keeps | refine Keeps.foldl (fun _ _ _ => ?_) ?_)

theorem State.maskCycle_keeps {κ : Nat} {ζ s : State} (hk : Keeps κ ζ s) (k row0 : Nat) (rows : List (List Int)) :
    Keeps κ ζ (State.maskCycle s k row0 rows) := by
  unfold State.maskCycle
  try dsimp only
  repeat' with_reducible (first | assumption | apply Keeps.ite | apply KeepsP.ite | apply State.found_keeps | refine Keeps.foldl (fun _ _ _ => ?_) ?_ | refine Keeps.foldlP (fun _ _ _ => ?_) ?_ | apply KeepsP.fst | apply KeepsP.mk)

theorem State.mapFrame_keeps {κ : Nat} {ζ s : State} (hk : Keeps κ ζ s) (ofs : Int) :
    Keeps κ ζ (State.mapFrame s ofs) := by
  unfold State.mapFrame
  repeat' with_reducible (first | assumption | apply EvKeeps.refl | apply Keeps.ite | apply EvKeeps.ite | apply Keeps.lit)

theorem State.mapCount_keeps {κ : Nat} {ζ s : State} (hk : Keeps κ ζ s) (a n : Nat) :
    Keeps κ ζ (State.mapCount s a n) := by
  unfold State.mapCount
  repeat' with_reducible (first | assumption | apply State.dramPut_keeps)

theorem State.mapSample_keeps {κ : Nat} {ζ s : State} (hk : Keeps κ ζ s) (p col : Nat) (row : List Int) :
    Keeps κ ζ (State.mapSample s p col row) := by
  unfold State.mapSample
  try dsimp only
  repeat' with_reducible (first | assumption | apply State.mapCount_keeps | refine Keeps.foldl (fun _ _ _ => ?_) ?_ | refine Keeps.foldlP (fun _ _ _ => ?_) ?_ | refine Keeps.of_fst ?_ (by assumption) | apply KeepsP.fst | split | apply KeepsP.mk)

theorem State.mapRow_keeps {κ : Nat} {ζ s : State} (hk : Keeps κ ζ s) (period : Nat) (row : List Int) :
    Keeps κ ζ (State.mapRow s period row) := by
  unfold State.mapRow
  try dsimp only
  repeat' with_reducible (first | assumption | apply EvKeeps.refl | apply Keeps.ite | apply KeepsP.ite | apply State.mapSample_keeps | apply EvKeeps.ite | refine Keeps.of_fst ?_ (by assumption) | apply KeepsP.fst | split | apply KeepsP.mk | apply Keeps.lit)

theorem State.mapTrigger_keeps {κ : Nat} {ζ s : State} (hk : Keeps κ ζ s) (t : Trig) (plan : RowPlan) (pre : List (List Int)) :
    Keeps κ ζ (State.mapTrigger s t plan pre) := by
  unfold State.mapTrigger
  try dsimp only
  repeat' with_reducible (first | assumption | apply State.mapFrame_keeps | apply State.mapRow_keeps | refine Keeps.foldl (fun _ _ _ => ?_) ?_ | refine Keeps.foldlP (fun _ _ _ => ?_) ?_ | apply KeepsP.fst | apply KeepsP.mk)

theorem State.emitRow_keeps {κ : Nat} {ζ s : State} (hk : Keeps κ ζ s) (k e : Nat) (row : List Int) :
    Keeps κ ζ (State.emitRow s k e row) := by
  unfold State.emitRow
  repeat' with_reducible (first | assumption | apply State.maskRow_keeps | apply State.emitPhys_keeps)

theorem State.postCheck_keeps {κ : Nat} {ζ s : State} (hk : Keeps κ ζ s) (k : Nat) :
    Keeps κ ζ (State.postCheck s k) := by
  unfold State.postCheck
  repeat' with_reducible (first | assumption | apply Keeps.ite | apply State.setRState_keeps)

theorem State.fire_keeps {κ : Nat} {ζ s : State} (hk : Keeps κ ζ s) (k : Nat) (t : Trig) :
    Keeps κ ζ (State.fire s k t) := by
  unfold State.fire
  try dsimp only
  repeat' with_reducible (first | assumption | apply EvKeeps.refl | apply Keeps.ite | apply KeepsP.ite | apply State.setRcr_keeps | apply State.listRec_keeps | apply State.setRec_keeps | apply State.put_keeps | apply State.wr_keeps | apply State.pulse_keeps | apply State.emitRow_keeps | apply State.emitVirt_keeps | apply State.setRState_keeps | apply State.postCheck_keeps | apply State.mapTrigger_keeps | apply EvKeeps.ite | refine Keeps.foldl (fun _ _ _ => ?_) ?_ | refine Keeps.foldlP (fun _ _ _ => ?_) ?_ | refine Keeps.of_fst ?_ (by assumption) | apply KeepsP.fst | split | apply KeepsP.mk | apply Keeps.lit | apply EvKeeps.lit)

theorem State.takeHits_keeps {κ : Nat} {ζ s : State} (hk : Keeps κ ζ s) (k : Nat) (hits : List Trig) :
    KeepsP κ ζ (State.takeHits s k hits) := by
  unfold State.takeHits
  try dsimp only
  repeat' with_reducible (first | assumption | apply EvKeeps.refl | apply Keeps.ite | apply KeepsP.ite | apply State.setRcr_keeps | apply State.fire_keeps | apply EvKeeps.ite | refine Keeps.foldl (fun _ _ _ => ?_) ?_ | refine Keeps.foldlP (fun _ _ _ => ?_) ?_ | refine Keeps.of_fst ?_ (by assumption) | apply KeepsP.fst | split | apply KeepsP.mk | apply Keeps.lit)

theorem State.round_keeps {κ : Nat} {ζ s : State} (hk : Keeps κ ζ s) (hits : State → Nat → List Trig) :
    KeepsP κ ζ (State.round s hits) := by
  unfold State.round
  try dsimp only
  repeat' with_reducible (first | assumption | apply Keeps.ite | apply KeepsP.ite | apply State.takeHits_keeps | refine Keeps.foldl (fun _ _ _ => ?_) ?_ | refine Keeps.foldlP (fun _ _ _ => ?_) ?_ | apply KeepsP.fst | apply KeepsP.mk)

theorem State.offerAll_keeps {κ : Nat} {ζ s : State} (hk : Keeps κ ζ s) (n : Nat) (q : List (Nat × Nat × Bool)) (at_ : Nat × Nat) :
    Keeps κ ζ (State.offerAll n q at_ s) := by
  induction n generalizing q s with
  | zero => exact hk
  | succ n ih =>
    unfold State.offerAll
    exact Keeps.ite hk (ih (KeepsP.fst (State.round_keeps hk _)) _)

theorem State.offerAt_keeps {κ : Nat} {ζ s : State} (hk : Keeps κ ζ s) (q : List (Nat × Nat × Bool)) (at_ : Nat × Nat) :
    Keeps κ ζ (State.offerAt s q at_) := by
  unfold State.offerAt
  repeat' with_reducible (first | assumption | apply State.offerAll_keeps)

theorem State.offer_keeps {κ : Nat} {ζ s : State} (hk : Keeps κ ζ s) (q : List (Nat × Nat × Bool)) (lat : Nat) :
    Keeps κ ζ (State.offer s q lat) := by
  unfold State.offer
  repeat' with_reducible (first | assumption | apply State.offerAt_keeps)

theorem State.levelScan_keeps {κ : Nat} {ζ s : State} (hk : Keeps κ ζ s) (k kind : Nat) (value : Nat → Int) (place : Nat → Int → Int → Int → Trig) :
    KeepsP κ ζ (State.levelScan s k kind value place) := by
  unfold State.levelScan
  try dsimp only
  repeat' with_reducible (first | assumption | apply EvKeeps.refl | apply Keeps.ite | apply KeepsP.ite | apply State.setRcr_keeps | apply EvKeeps.ite | refine Keeps.foldl (fun _ _ _ => ?_) ?_ | refine Keeps.foldlP (fun _ _ _ => ?_) ?_ | refine Keeps.of_fst ?_ (by assumption) | apply KeepsP.fst | split | apply KeepsP.mk | apply Keeps.lit)

theorem State.timeScan_keeps {κ : Nat} {ζ s : State} (hk : Keeps κ ζ s) (k : Nat) :
    KeepsP κ ζ (State.timeScan s k) := by
  unfold State.timeScan
  try dsimp only
  repeat' with_reducible (first | assumption | apply EvKeeps.refl | apply Keeps.ite | apply KeepsP.ite | apply State.setRcr_keeps | apply EvKeeps.ite | refine Keeps.of_fst ?_ (by assumption) | apply KeepsP.fst | split | apply KeepsP.mk | apply Keeps.lit)

theorem State.scan_keeps {κ : Nat} {ζ s : State} (hk : Keeps κ ζ s) (row : List Int) (q : List (Nat × Nat × Bool)) (k : Nat) :
    KeepsP κ ζ (State.scan s row q k) := by
  unfold State.scan
  try dsimp only
  repeat' with_reducible (first | assumption | apply Keeps.ite | apply KeepsP.ite | apply State.levelScan_keeps | apply State.timeScan_keeps | apply KeepsP.fst | apply KeepsP.mk)

theorem State.scanAll_keeps {κ : Nat} {ζ s : State} (hk : Keeps κ ζ s) (row : List Int) (q : List (Nat × Nat × Bool)) :
    Keeps κ ζ (State.scanAll s row q) := by
  unfold State.scanAll
  try dsimp only
  repeat' with_reducible (first | assumption | apply Keeps.ite | apply KeepsP.ite | apply State.scan_keeps | apply State.takeHits_keeps | apply State.offerAt_keeps | refine Keeps.foldl (fun _ _ _ => ?_) ?_ | refine Keeps.foldlP (fun _ _ _ => ?_) ?_ | apply KeepsP.fst | apply KeepsP.mk)

theorem State.vScanAll_keeps {κ : Nat} {ζ s : State} (hk : Keeps κ ζ s) :
    Keeps κ ζ (State.vScanAll s) := by
  unfold State.vScanAll
  try dsimp only
  repeat' with_reducible (first | assumption | apply Keeps.ite | apply KeepsP.ite | apply State.levelScan_keeps | apply State.takeHits_keeps | apply State.offerAt_keeps | refine Keeps.foldl (fun _ _ _ => ?_) ?_ | refine Keeps.foldlP (fun _ _ _ => ?_) ?_ | apply KeepsP.fst | apply KeepsP.mk)

theorem State.recTrigger_keeps {κ : Nat} {ζ s : State} (hk : Keeps κ ζ s) (k tofs : Nat) :
    Keeps κ ζ (State.recTrigger s k tofs) := by
  unfold State.recTrigger
  repeat' with_reducible (first | assumption | apply EvKeeps.refl | apply Keeps.ite | apply KeepsP.ite | apply State.fire_keeps | apply State.offerAt_keeps | apply EvKeeps.ite | refine Keeps.of_fst ?_ (by assumption) | apply KeepsP.fst | split | apply KeepsP.mk | apply Keeps.lit | apply EvKeeps.lit)

theorem State.holdPassed_keeps {κ : Nat} {ζ s : State} (hk : Keeps κ ζ s) (k : Nat) :
    Keeps κ ζ (State.holdPassed s k) := by
  unfold State.holdPassed
  repeat' with_reducible (first | assumption | apply EvKeeps.refl | apply Keeps.ite | apply State.setRcr_keeps | apply EvKeeps.ite | apply Keeps.lit)

theorem State.armTimes_keeps {κ : Nat} {ζ s : State} (hk : Keeps κ ζ s) (k : Nat) :
    Keeps κ ζ (State.armTimes s k) := by
  unfold State.armTimes
  try dsimp only
  repeat' with_reducible (first | assumption | apply EvKeeps.refl | apply State.setRcr_keeps | apply State.fire_keeps | apply State.offerAt_keeps | refine Keeps.foldl (fun _ _ _ => ?_) ?_ | refine Keeps.foldlP (fun _ _ _ => ?_) ?_ | refine Keeps.of_fst ?_ (by assumption) | apply KeepsP.fst | split | apply KeepsP.mk | apply Keeps.lit)

theorem State.recArm_keeps {κ : Nat} {ζ s : State} (hk : Keeps κ ζ s) (k : Nat) :
    KeepsP κ ζ (State.recArm s k) := by
  unfold State.recArm
  try dsimp only
  repeat' with_reducible (first | assumption | apply Keeps.ite | apply KeepsP.ite | apply State.armRecorder_keeps | apply State.armTimes_keeps | refine Keeps.of_fst ?_ (by assumption) | apply KeepsP.fst | split | apply KeepsP.mk)

theorem State.afterClose_keeps {κ : Nat} {ζ s : State} (hk : Keeps κ ζ s) (k : Nat) (again : Bool) :
    Keeps κ ζ (State.afterClose s k again) := by
  unfold State.afterClose
  try dsimp only
  repeat' with_reducible (first | assumption | apply EvKeeps.refl | apply Keeps.ite | apply KeepsP.ite | apply State.dropViols_keeps | apply State.setRcr_keeps | apply State.setRState_keeps | apply State.beginFill_keeps | apply State.pulse_keeps | apply EvKeeps.ite | refine Keeps.of_ok ?_ (by assumption) | refine Keeps.of_fst ?_ (by assumption) | apply KeepsP.fst | split | apply KeepsP.mk | apply Keeps.lit | apply EvKeeps.lit)

theorem State.flushPre_keeps {κ : Nat} {ζ s : State} (hk : Keeps κ ζ s) (k e : Nat) :
    Keeps κ ζ (State.flushPre s k e) := by
  unfold State.flushPre
  try dsimp only
  repeat' with_reducible (first | assumption | apply EvKeeps.refl | apply Keeps.ite | apply KeepsP.ite | apply State.setRcr_keeps | apply State.listRec_keeps | apply State.setRec_keeps | apply State.emitPhys_keeps | apply State.emitVirt_keeps | apply EvKeeps.ite | refine Keeps.foldl (fun _ _ _ => ?_) ?_ | refine Keeps.foldlP (fun _ _ _ => ?_) ?_ | apply KeepsP.fst | apply KeepsP.mk | apply Keeps.lit)

theorem State.finishRec_keeps {κ : Nat} {ζ s : State} (hk : Keeps κ ζ s) (k cause : Nat) (again : Bool) :
    Keeps κ ζ (State.finishRec s k cause again) := by
  unfold State.finishRec
  try dsimp only
  repeat' with_reducible (first | assumption | apply EvKeeps.refl | apply State.flushPre_keeps | apply State.closeRec_keeps | apply State.put_keeps | apply State.satIncF_keeps | apply State.putB_keeps | apply State.setRcr_keeps | apply State.afterClose_keeps | refine Keeps.of_fst ?_ (by assumption) | apply KeepsP.fst | split | apply KeepsP.mk | apply Keeps.lit)

theorem State.checkClosed_keeps {κ : Nat} {ζ s : State} (hk : Keeps κ ζ s) (k : Nat) :
    Keeps κ ζ (State.checkClosed s k) := by
  unfold State.checkClosed
  repeat' with_reducible (first | assumption | apply Keeps.ite | apply KeepsP.ite | apply State.finishRec_keeps | refine Keeps.of_fst ?_ (by assumption) | apply KeepsP.fst | split | apply KeepsP.mk)

theorem State.discardRec_keeps {κ : Nat} {ζ s : State} (hk : Keeps κ ζ s) (k : Nat) :
    Keeps κ ζ (State.discardRec s k) := by
  unfold State.discardRec
  repeat' with_reducible (first | assumption | apply EvKeeps.refl | apply State.dropRec_keeps | apply State.setRcr_keeps | apply State.setRState_keeps | apply State.dropViols_keeps | refine Keeps.of_fst ?_ (by assumption) | apply KeepsP.fst | split | apply KeepsP.mk | apply Keeps.lit)

theorem State.recStop_keeps {κ : Nat} {ζ s : State} (hk : Keeps κ ζ s) (k : Nat) :
    KeepsP κ ζ (State.recStop s k) := by
  unfold State.recStop
  try dsimp only
  repeat' with_reducible (first | assumption | apply Keeps.ite | apply KeepsP.ite | apply State.discardRec_keeps | apply State.finishRec_keeps | apply KeepsP.mk)

theorem State.recForce_keeps {κ : Nat} {ζ s : State} (hk : Keeps κ ζ s) (k : Nat) :
    Keeps κ ζ (State.recForce s k) := by
  unfold State.recForce
  repeat' with_reducible (first | assumption | apply State.offer_keeps)

theorem State.recComplete_keeps {κ : Nat} {ζ s : State} (hk : Keeps κ ζ s) (k : Nat) :
    Keeps κ ζ (State.recComplete s k) := by
  unfold State.recComplete
  repeat' with_reducible (first | assumption | apply Keeps.ite | apply State.finishRec_keeps)

theorem State.overrun_keeps {κ : Nat} {ζ s : State} (hk : Keeps κ ζ s) :
    Keeps κ ζ (State.overrun s) := by
  unfold State.overrun
  try dsimp only
  repeat' with_reducible (first | assumption | apply Keeps.ite | apply State.put_keeps | apply State.pulse_keeps | apply State.finishRec_keeps | refine Keeps.foldl (fun _ _ _ => ?_) ?_)

theorem State.markRecord_keeps {κ : Nat} {ζ s : State} (hk : Keeps κ ζ s) (k m row : Nat) :
    Keeps κ ζ (State.markRecord s k m row) := by
  unfold State.markRecord
  try dsimp only
  repeat' with_reducible (first | assumption | apply EvKeeps.refl | apply Keeps.ite | apply KeepsP.ite | apply State.put_keeps | apply State.setRec_keeps | apply EvKeeps.ite | refine Keeps.of_fst ?_ (by assumption) | apply KeepsP.fst | split | apply KeepsP.mk | apply Keeps.lit | apply EvKeeps.lit)

theorem State.maskHit_keeps {κ : Nat} {ζ s : State} (hk : Keeps κ ζ s) (m row : Nat) :
    Keeps κ ζ (State.maskHit s m row) := by
  unfold State.maskHit
  try dsimp only
  repeat' with_reducible (first | assumption | apply EvKeeps.refl | apply Keeps.ite | apply State.errInc_keeps | apply State.pulse_keeps | apply State.setRcr_keeps | apply State.markRecord_keeps | apply State.offer_keeps | apply EvKeeps.ite | apply Keeps.lit)

theorem State.zeroPage_keeps {κ : Nat} {ζ s : State} (hk : Keeps κ ζ s) (p : Nat) :
    Keeps κ ζ (State.zeroPage s p) := by
  unfold State.zeroPage
  try dsimp only
  repeat' with_reducible (first | assumption | apply EvKeeps.refl | apply Keeps.dramFilter | apply KeepsP.fst | apply Keeps.lit)

theorem State.mapEnable_keeps {κ : Nat} {ζ s : State} (hk : Keeps κ ζ s) (en : Bool) :
    Keeps κ ζ (State.mapEnable s en) := by
  unfold State.mapEnable
  try dsimp only
  repeat' with_reducible (first | assumption | apply EvKeeps.refl | apply Keeps.ite | apply KeepsP.ite | apply State.takePage_keeps | apply State.setPage_keeps | apply State.zeroPage_keeps | apply State.put_keeps | apply EvKeeps.ite | refine Keeps.foldl (fun _ _ _ => ?_) ?_ | refine Keeps.foldlP (fun _ _ _ => ?_) ?_ | refine Keeps.of_someP ?_ (by assumption) | refine Keeps.of_fst ?_ (by assumption) | apply KeepsP.fst | split | apply KeepsP.mk | apply Keeps.lit | apply EvKeeps.lit)

theorem State.mapSnap_keeps {κ : Nat} {ζ s : State} (hk : Keeps κ ζ s) :
    KeepsP κ ζ (State.mapSnap s) := by
  unfold State.mapSnap
  try dsimp only
  repeat' with_reducible (first | assumption | apply EvKeeps.refl | apply Keeps.ite | apply KeepsP.ite | apply State.put_keeps | apply EvKeeps.ite | refine Keeps.of_fst ?_ (by assumption) | apply KeepsP.fst | split | apply KeepsP.mk | apply Keeps.lit)

theorem State.mapSnapDone_keeps {κ : Nat} {ζ s : State} (hk : Keeps κ ζ s) :
    Keeps κ ζ (State.mapSnapDone s) := by
  unfold State.mapSnapDone
  try dsimp only
  repeat' with_reducible (first | assumption | apply EvKeeps.refl | apply Keeps.ite | apply KeepsP.ite | apply State.put_keeps | apply State.zeroPage_keeps | apply State.dramPut_keeps | apply EvKeeps.ite | apply Keeps.dramFilter | refine Keeps.foldl (fun _ _ _ => ?_) ?_ | refine Keeps.foldlP (fun _ _ _ => ?_) ?_ | refine Keeps.of_fst ?_ (by assumption) | apply KeepsP.fst | split | apply KeepsP.mk | apply Keeps.lit)

theorem State.mapClr_keeps {κ : Nat} {ζ s : State} (hk : Keeps κ ζ s) :
    Keeps κ ζ (State.mapClr s) := by
  unfold State.mapClr
  try dsimp only
  repeat' with_reducible (first | assumption | apply EvKeeps.refl | apply State.zeroPage_keeps | refine Keeps.of_fst ?_ (by assumption) | apply KeepsP.fst | split | apply KeepsP.mk | apply Keeps.lit)

theorem State.calStart_keeps {κ : Nat} {ζ s : State} (hk : Keeps κ ζ s) (cause : Nat) :
    Keeps κ ζ (State.calStart s cause) := by
  unfold State.calStart
  repeat' with_reducible (first | assumption | apply Keeps.ite | apply State.put_keeps)

theorem State.calAbandon_keeps {κ : Nat} {ζ s : State} (hk : Keeps κ ζ s) :
    Keeps κ ζ (State.calAbandon s) := by
  unfold State.calAbandon
  repeat' with_reducible (first | assumption | apply Keeps.ite | apply State.put_keeps)

theorem State.calChange_keeps {κ : Nat} {ζ s : State} (hk : Keeps κ ζ s) (e row : Nat) :
    Keeps κ ζ (State.calChange s e row) := by
  unfold State.calChange
  repeat' with_reducible (first | assumption | apply EvKeeps.refl | apply Keeps.ite | apply KeepsP.ite | apply State.setRec_keeps | apply EvKeeps.ite | refine Keeps.of_fst ?_ (by assumption) | apply KeepsP.fst | split | apply KeepsP.mk | apply Keeps.lit | apply EvKeeps.lit)

theorem State.calMark_keeps {κ : Nat} {ζ s : State} (hk : Keeps κ ζ s) (k : Nat) :
    Keeps κ ζ (State.calMark s k) := by
  unfold State.calMark
  try dsimp only
  repeat' with_reducible (first | assumption | apply EvKeeps.refl | apply State.setRcr_keeps | apply State.calChange_keeps | refine Keeps.of_fst ?_ (by assumption) | apply KeepsP.fst | split | apply KeepsP.mk | apply Keeps.lit)

theorem State.calSpill_keeps {κ : Nat} {ζ s : State} (hk : Keeps κ ζ s) (n : Nat) :
    Keeps κ ζ (State.calSpill s n) := by
  unfold State.calSpill
  try dsimp only
  repeat' with_reducible (first | assumption | apply State.calChange_keeps | refine Keeps.of_fst ?_ (by assumption) | apply KeepsP.fst | split | apply KeepsP.mk)

theorem State.calDone_keeps {κ : Nat} {ζ s : State} (hk : Keeps κ ζ s) (skews : List Int) :
    Keeps κ ζ (State.calDone s skews) := by
  unfold State.calDone
  try dsimp only
  repeat' with_reducible (first | assumption | apply Keeps.ite | apply KeepsP.ite | apply State.putS_keeps | apply State.pulse_keeps | apply State.put_keeps | apply State.satIncF_keeps | apply State.calSpill_keeps | apply State.calMark_keeps | refine Keeps.foldl (fun _ _ _ => ?_) ?_ | refine Keeps.foldlP (fun _ _ _ => ?_) ?_ | refine Keeps.of_fst ?_ (by assumption) | apply KeepsP.fst | split | apply KeepsP.mk)

theorem State.liveRow_keeps {κ : Nat} {ζ s : State} (hk : Keeps κ ζ s) (k : Nat) (row : List Int) :
    Keeps κ ζ (State.liveRow s k row) := by
  unfold State.liveRow
  try dsimp only
  repeat' with_reducible (first | assumption | apply EvKeeps.refl | apply Keeps.ite | apply KeepsP.ite | apply State.setRcr_keeps | apply State.maskCycle_keeps | apply State.mapFrame_keeps | apply EvKeeps.ite | refine Keeps.of_fst ?_ (by assumption) | apply KeepsP.fst | split | apply KeepsP.mk | apply Keeps.lit)

theorem State.recInstant_keeps {κ : Nat} {ζ s : State} (hk : Keeps κ ζ s) (row : List Int) (k : Nat) :
    Keeps κ ζ (State.recInstant s row k) := by
  unfold State.recInstant
  try dsimp only
  repeat' with_reducible (first | assumption | apply EvKeeps.refl | apply Keeps.ite | apply KeepsP.ite | apply State.liveRow_keeps | apply State.setRcr_keeps | apply State.reserve_keeps | apply State.pulse_keeps | apply State.finishRec_keeps | apply State.setRState_keeps | apply State.emitRow_keeps | apply State.postCheck_keeps | apply State.checkClosed_keeps | apply EvKeeps.ite | refine Keeps.foldl (fun _ _ _ => ?_) ?_ | refine Keeps.foldlP (fun _ _ _ => ?_) ?_ | refine Keeps.of_fst ?_ (by assumption) | apply KeepsP.fst | split | apply KeepsP.mk | apply Keeps.lit)

theorem State.acqInstant_keeps {κ : Nat} {ζ s : State} (hk : Keeps κ ζ s) (j : Nat) (codes : List Int) :
    Keeps κ ζ (State.acqInstant s j codes) := by
  unfold State.acqInstant
  try dsimp only
  repeat' with_reducible (first | assumption | apply EvKeeps.refl | apply State.recInstant_keeps | apply State.mapRow_keeps | apply State.scanAll_keeps | refine Keeps.foldl (fun _ _ _ => ?_) ?_ | apply Keeps.lit)

theorem State.acqWindow_keeps {κ : Nat} {ζ s : State} (hk : Keeps κ ζ s) :
    Keeps κ ζ (State.acqWindow s) := by
  unfold State.acqWindow
  try dsimp only
  repeat' with_reducible (first | assumption | apply EvKeeps.refl | apply Keeps.ite | apply KeepsP.ite | apply State.setRcr_keeps | apply State.emitVirt_keeps | apply State.postCheck_keeps | apply State.checkClosed_keeps | apply State.vScanAll_keeps | apply EvKeeps.ite | refine Keeps.foldl (fun _ _ _ => ?_) ?_ | refine Keeps.foldlP (fun _ _ _ => ?_) ?_ | refine Keeps.of_fst ?_ (by assumption) | apply KeepsP.fst | split | apply KeepsP.mk | apply Keeps.lit)

theorem State.needPage_keeps {κ : Nat} {ζ s : State} (hk : Keeps κ ζ s) (k : Nat) :
    Keeps κ ζ (State.needPage s k) := by
  unfold State.needPage
  try dsimp only
  repeat' with_reducible (first | assumption | apply Keeps.ite | apply KeepsP.ite | apply State.reserve_keeps | apply State.pulse_keeps | apply State.finishRec_keeps | refine Keeps.of_fst ?_ (by assumption) | apply KeepsP.fst | split | apply KeepsP.mk)

theorem State.setTrace_keeps {κ : Nat} {ζ s : State} (hk : Keeps κ ζ s) (n : Nat) (x : Trace) :
    Keeps κ ζ (State.setTrace s n x) := by
  unfold State.setTrace
  try dsimp only
  repeat' with_reducible (first | assumption | apply EvKeeps.refl | apply Keeps.lit | apply EvKeeps.lit)

theorem State.setSpill_keeps {κ : Nat} {ζ s : State} (hk : Keeps κ ζ s) (n : Nat) (e : Option Nat) :
    Keeps κ ζ (State.setSpill s n e) := by
  unfold State.setSpill
  try dsimp only
  repeat' with_reducible (first | assumption | apply EvKeeps.refl | apply Keeps.lit)

theorem State.spillClose_keeps {κ : Nat} {ζ s : State} (hk : Keeps κ ζ s) (n cause : Nat) :
    Keeps κ ζ (State.spillClose s n cause) := by
  unfold State.spillClose
  repeat' with_reducible (first | assumption | apply State.closeRec_keeps | apply State.setSpill_keeps | refine Keeps.of_fst ?_ (by assumption) | apply KeepsP.fst | split | apply KeepsP.mk)

theorem State.spillOpen_keeps {κ : Nat} {ζ s : State} (hk : Keeps κ ζ s) (n : Nat) :
    KeepsOP κ ζ (State.spillOpen s n) := by
  unfold State.spillOpen
  repeat' with_reducible (first | assumption | apply EvKeeps.refl | apply State.newRec_keeps | apply State.listRec_keeps | apply State.setSpill_keeps | refine Keeps.of_okP ?_ (by assumption) | exact KeepsOP.none | apply KeepsOP.some | refine Keeps.of_fst ?_ (by assumption) | apply KeepsP.fst | split | apply KeepsP.mk | apply Keeps.lit)

theorem State.spillKeep_keeps {κ : Nat} {ζ s : State} (hk : Keeps κ ζ s) (n : Nat) :
    Keeps κ ζ (State.spillKeep s n) := by
  unfold State.spillKeep
  repeat' with_reducible (first | assumption | apply Keeps.ite | apply KeepsP.ite | apply State.spillOpen_keeps | refine Keeps.of_someP ?_ (by assumption) | refine Keeps.of_fst ?_ (by assumption) | apply KeepsP.fst | split | apply KeepsP.mk)

theorem State.traceArm_keeps {κ : Nat} {ζ s : State} (hk : Keeps κ ζ s) (mask : Nat) :
    Keeps κ ζ (State.traceArm s mask) := by
  unfold State.traceArm
  try dsimp only
  repeat' with_reducible (first | assumption | apply EvKeeps.refl | apply Keeps.ite | apply State.spillClose_keeps | apply State.setTrace_keeps | apply State.put_keeps | apply State.spillKeep_keeps | apply EvKeeps.ite | refine Keeps.foldl (fun _ _ _ => ?_) ?_ | apply Keeps.lit)

theorem State.traceHalt_keeps {κ : Nat} {ζ s : State} (hk : Keeps κ ζ s) (cause n : Nat) :
    Keeps κ ζ (State.traceHalt s cause n) := by
  unfold State.traceHalt
  try dsimp only
  repeat' with_reducible (first | assumption | apply Keeps.ite | apply State.spillClose_keeps | apply State.put_keeps)

theorem State.traceStop_keeps {κ : Nat} {ζ s : State} (hk : Keeps κ ζ s) (mask : Nat) :
    Keeps κ ζ (State.traceStop s mask) := by
  unfold State.traceStop
  try dsimp only
  repeat' with_reducible (first | assumption | apply State.traceHalt_keeps | refine Keeps.foldl (fun _ _ _ => ?_) ?_)

theorem State.traceSample_keeps {κ : Nat} {ζ s : State} (hk : Keeps κ ζ s) (n : Nat) :
    Keeps κ ζ (State.traceSample s n) := by
  unfold State.traceSample
  try dsimp only
  repeat' with_reducible (first | assumption | apply EvKeeps.refl | apply Keeps.ite | apply KeepsP.ite | apply State.setTrace_keeps | apply State.put_keeps | apply EvKeeps.ite | apply KeepsP.fst | apply Keeps.lit)

theorem State.traceTrig_keeps {κ : Nat} {ζ s : State} (hk : Keeps κ ζ s) (n : Nat) :
    Keeps κ ζ (State.traceTrig s n) := by
  unfold State.traceTrig
  try dsimp only
  repeat' with_reducible (first | assumption | apply EvKeeps.refl | apply Keeps.ite | apply State.setTrace_keeps | apply State.put_keeps | apply EvKeeps.ite | apply Keeps.lit)

theorem State.traceWindow_keeps {κ : Nat} {ζ s : State} (hk : Keeps κ ζ s) :
    Keeps κ ζ (State.traceWindow s) := by
  unfold State.traceWindow
  try dsimp only
  repeat' with_reducible (first | assumption | apply EvKeeps.refl | apply Keeps.ite | apply State.traceSample_keeps | apply State.traceTrig_keeps | apply EvKeeps.ite | refine Keeps.foldl (fun _ _ _ => ?_) ?_ | apply Keeps.lit | apply EvKeeps.lit)

theorem State.halfLost_keeps {κ : Nat} {ζ s : State} (hk : Keeps κ ζ s) (n : Nat) :
    Keeps κ ζ (State.halfLost s n) := by
  unfold State.halfLost
  repeat' with_reducible (first | assumption | apply State.put_keeps | apply State.pulse_keeps)

theorem State.halfRoom_keeps {κ : Nat} {ζ s : State} (hk : Keeps κ ζ s) (e : Nat) :
    KeepsO κ ζ (State.halfRoom s e) := by
  unfold State.halfRoom
  try dsimp only
  repeat' with_reducible (first | assumption | apply Keeps.ite | apply KeepsP.ite | apply KeepsO.ite | apply State.streamPage_keeps | exact KeepsO.none | apply KeepsO.some | refine Keeps.of_some ?_ (by assumption) | refine Keeps.of_fst ?_ (by assumption) | apply KeepsP.fst | split | apply KeepsP.mk)

theorem State.halfRows_keeps {κ : Nat} {ζ s : State} (hk : Keeps κ ζ s) (e base k : Nat) (x : Trace) :
    Keeps κ ζ (State.halfRows s e base k x) := by
  unfold State.halfRows
  try dsimp only
  repeat' with_reducible (first | assumption | apply State.placeRow_keeps | refine Keeps.foldl (fun _ _ _ => ?_) ?_ | refine Keeps.foldlP (fun _ _ _ => ?_) ?_ | apply KeepsP.fst | apply KeepsP.mk)

theorem State.halfClose_keeps {κ : Nat} {ζ s : State} (hk : Keeps κ ζ s) (n e : Nat) :
    Keeps κ ζ (State.halfClose s n e) := by
  unfold State.halfClose
  repeat' with_reducible (first | assumption | apply Keeps.ite | apply KeepsP.ite | apply State.spillClose_keeps | apply State.spillKeep_keeps | refine Keeps.of_fst ?_ (by assumption) | apply KeepsP.fst | split | apply KeepsP.mk)

theorem State.spillTail_keeps {κ : Nat} {ζ s : State} (hk : Keeps κ ζ s) (n : Nat) :
    Keeps κ ζ (State.spillTail s n) := by
  unfold State.spillTail
  try dsimp only
  repeat' with_reducible (first | assumption | apply Keeps.ite | apply KeepsP.ite | apply State.halfRoom_keeps | apply State.halfRows_keeps | refine Keeps.of_some ?_ (by assumption) | refine Keeps.of_fst ?_ (by assumption) | apply KeepsP.fst | split | apply KeepsP.mk)

theorem State.halfSpill_keeps {κ : Nat} {ζ s : State} (hk : Keeps κ ζ s) (n : Nat) (accepted : Bool) :
    Keeps κ ζ (State.halfSpill s n accepted) := by
  unfold State.halfSpill
  try dsimp only
  repeat' with_reducible (first | assumption | apply EvKeeps.refl | apply Keeps.ite | apply KeepsP.ite | apply State.setTrace_keeps | apply State.halfLost_keeps | apply State.spillOpen_keeps | apply State.halfRoom_keeps | apply State.halfRows_keeps | apply State.halfClose_keeps | apply EvKeeps.ite | refine Keeps.of_some ?_ (by assumption) | refine Keeps.of_someP ?_ (by assumption) | refine Keeps.of_fst ?_ (by assumption) | apply KeepsP.fst | split | apply KeepsP.mk | apply Keeps.lit | apply EvKeeps.lit)

theorem State.acqResign_keeps {κ : Nat} {ζ s : State} (hk : Keeps κ ζ s) :
    Keeps κ ζ (State.acqResign s) := by
  unfold State.acqResign
  try dsimp only
  repeat' with_reducible (first | assumption | apply EvKeeps.refl | apply Keeps.ite | apply State.discardRec_keeps | apply State.finishRec_keeps | apply State.spillTail_keeps | apply State.traceHalt_keeps | apply State.calAbandon_keeps | apply EvKeeps.ite | refine Keeps.foldl (fun _ _ _ => ?_) ?_ | apply Keeps.lit)

theorem State.acqShed_keeps {κ : Nat} {ζ s : State} (hk : Keeps κ ζ s) (on : Bool) :
    Keeps κ ζ (State.acqShed s on) := by
  unfold State.acqShed
  try dsimp only
  repeat' with_reducible (first | assumption | apply Keeps.ite | apply State.calAbandon_keeps | apply State.putB_keeps | apply State.calStart_keeps)

end Sys2Proof.Machine
end

