-- ==== Sys2Proof/Laws/KeepsClkThmOps.lean ====
section
/-! SUPPORT. What each operation of Machine/ClkThmOps.lean keeps. -/

namespace Sys2Proof.Machine

theorem State.outRun_keeps {κ : Nat} {ζ s : State} (hk : Keeps κ ζ s) (o : Nat) :
    Keeps κ ζ (State.outRun s o) := by
  unfold State.outRun
  try dsimp only
  repeat' with_reducible (first | assumption | apply State.putBit_keeps)

theorem State.outApply_keeps {κ : Nat} {ζ s : State} (hk : Keeps κ ζ s) (o : Nat) :
    Keeps κ ζ (State.outApply s o) := by
  unfold State.outApply
  try dsimp only
  repeat' with_reducible (first | assumption | apply EvKeeps.refl | apply State.outRun_keeps | apply Keeps.lit)

theorem State.pllLocked_keeps {κ : Nat} {ζ s : State} (hk : Keeps κ ζ s) (p : PllId) : Keeps κ ζ (s.pllLocked p) := by
  cases p <;> unfold State.pllLocked
  · exact State.putBit_keeps hk ..
  · exact State.putBit_keeps hk ..
  · exact State.putBit_keeps hk ..
  · exact State.putBit_keeps hk ..
  · exact Keeps.ite (State.put_keeps (State.putBit_keeps hk ..) _ _ _ _) hk

theorem State.recoverStart_keeps {κ : Nat} {ζ s : State} (hk : Keeps κ ζ s) (c p : Nat) :
    Keeps κ ζ (State.recoverStart s c p) := by
  unfold State.recoverStart
  try dsimp only
  repeat' with_reducible (first | assumption | apply EvKeeps.refl | apply Keeps.ite | apply KeepsP.ite | apply State.putBit_keeps | apply State.raise_keeps | apply EvKeeps.ite | refine Keeps.of_fst ?_ (by assumption) | apply KeepsP.fst | split | apply KeepsP.mk | apply Keeps.lit)

theorem State.dramLost_keeps {κ : Nat} {ζ s : State} (hk : Keeps κ ζ s) :
    Keeps κ ζ (State.dramLost s) := by
  unfold State.dramLost
  try dsimp only
  repeat' with_reducible (first | assumption | apply Keeps.ite | apply State.finishRec_keeps | apply State.spillClose_keeps | refine Keeps.foldl (fun _ _ _ => ?_) ?_)

theorem State.clockAlarm_keeps {κ : Nat} {ζ s : State} (hk : Keeps κ ζ s) (c dev : Nat) :
    Keeps κ ζ (State.clockAlarm s c dev) := by
  unfold State.clockAlarm
  try dsimp only
  repeat' with_reducible (first | assumption | apply EvKeeps.refl | apply Keeps.ite | apply KeepsP.ite | apply State.putBit_keeps | apply State.raise_keeps | apply State.outRun_keeps | apply State.enterLost_keeps | apply State.put_keeps | apply State.dramLost_keeps | apply State.recoverStart_keeps | apply Evt.put_keeps | apply EvKeeps.ite | refine Keeps.foldl (fun _ _ _ => ?_) ?_ | refine Keeps.foldlP (fun _ _ _ => ?_) ?_ | refine EvKeeps.foldl (fun _ _ _ => ?_) ?_ | refine Keeps.of_fst ?_ (by assumption) | refine EvKeeps.of_fst ?_ (by assumption) | apply KeepsP.fst | apply EvKeepsP.fst | split | apply KeepsP.mk | apply Keeps.lit | apply EvKeeps.lit)

theorem State.recoverDone_keeps {κ : Nat} {ζ s : State} (hk : Keeps κ ζ s) (c : Nat) :
    Keeps κ ζ (State.recoverDone s c) := by
  unfold State.recoverDone
  try dsimp only
  repeat' with_reducible (first | assumption | apply EvKeeps.refl | apply Keeps.ite | apply KeepsP.ite | apply State.putBit_keeps | apply State.clearAct_keeps | apply State.outRun_keeps | apply State.calStart_keeps | apply EvKeeps.ite | refine Keeps.foldl (fun _ _ _ => ?_) ?_ | refine Keeps.foldlP (fun _ _ _ => ?_) ?_ | refine Keeps.of_fst ?_ (by assumption) | apply KeepsP.fst | split | apply KeepsP.mk | apply Keeps.lit)

theorem State.alarmClear_keeps {κ : Nat} {ζ s : State} (hk : Keeps κ ζ s) (mask : Nat) :
    Keeps κ ζ (State.alarmClear s mask) := by
  unfold State.alarmClear
  try dsimp only
  repeat' with_reducible (first | assumption | apply Keeps.ite | apply KeepsP.ite | apply State.putBit_keeps | apply State.put_keeps | apply State.clearAct_keeps | apply State.outRun_keeps | refine Keeps.foldl (fun _ _ _ => ?_) ?_ | refine Keeps.foldlP (fun _ _ _ => ?_) ?_ | refine Keeps.of_fst ?_ (by assumption) | apply KeepsP.fst | split | apply KeepsP.mk)

theorem State.setLevels_keeps {κ : Nat} {ζ s : State} (hk : Keeps κ ζ s) (idx v : Nat) :
    Keeps κ ζ (State.setLevels s idx v) := by
  unfold State.setLevels
  try dsimp only
  repeat' with_reducible (first | assumption | apply Keeps.ite | apply State.put_keeps | apply State.putBit_keeps | refine Keeps.foldl (fun _ _ _ => ?_) ?_)

theorem State.evalLevels_keeps {κ : Nat} {ζ s : State} (hk : Keeps κ ζ s) (idx : Nat) (t : Int) (l : Limits) (src : Nat) :
    Keeps κ ζ (State.evalLevels s idx t l src) := by
  unfold State.evalLevels
  try dsimp only
  repeat' with_reducible (first | assumption | apply EvKeeps.refl | apply Keeps.ite | apply State.setLevels_keeps | apply State.raise_keeps | apply EvKeeps.ite | refine Keeps.foldl (fun _ _ _ => ?_) ?_ | apply Keeps.lit)

theorem State.thmQuiet_keeps {κ : Nat} {ζ s : State} (hk : Keeps κ ζ s) :
    Keeps κ ζ (State.thmQuiet s) := by
  unfold State.thmQuiet
  try dsimp only
  repeat' with_reducible (first | assumption | apply Keeps.ite | apply KeepsP.ite | apply State.clearAct_keeps | refine Keeps.foldl (fun _ _ _ => ?_) ?_ | refine Keeps.foldlP (fun _ _ _ => ?_) ?_ | apply KeepsP.fst | apply KeepsP.mk)

theorem State.sensorState_keeps {κ : Nat} {ζ s : State} (hk : Keeps κ ζ s) (idx : Nat) (ok : Bool) :
    Keeps κ ζ (State.sensorState s idx ok) := by
  unfold State.sensorState
  try dsimp only
  repeat' with_reducible (first | assumption | apply EvKeeps.refl | apply Keeps.ite | apply State.clearAct_keeps | apply State.raise_keeps | apply EvKeeps.ite | apply Keeps.lit)

theorem State.shedFollow_keeps {κ : Nat} {ζ s : State} (hk : Keeps κ ζ s) :
    Keeps κ ζ (State.shedFollow s) := by
  unfold State.shedFollow
  try dsimp only
  repeat' with_reducible (first | assumption | apply Keeps.ite | apply State.putB_keeps | apply State.acqShed_keeps | apply State.haloAbort_keeps | refine Keeps.foldl (fun _ _ _ => ?_) ?_)

theorem State.bandFollow_keeps {κ : Nat} {ζ s : State} (hk : Keeps κ ζ s) :
    Keeps κ ζ (State.bandFollow s) := by
  unfold State.bandFollow
  try dsimp only
  repeat' with_reducible (first | assumption | apply EvKeeps.refl | apply Keeps.ite | apply State.put_keeps | apply State.pulse_keeps | apply EvKeeps.ite | apply Keeps.lit)

theorem State.parityWords_keeps {κ : Nat} {ζ s : State} (hk : Keeps κ ζ s) (ws : List TempWord) :
    Keeps κ ζ (State.parityWords s ws) := by
  unfold State.parityWords
  try dsimp only
  repeat' with_reducible (first | assumption | apply Keeps.ite | apply State.xingBad_keeps | refine Keeps.foldl (fun _ _ _ => ?_) ?_)

theorem State.dieRead_keeps {κ : Nat} {ζ s : State} (hk : Keeps κ ζ s) (readings : List (Option (BitVec 12))) :
    Keeps κ ζ (State.dieRead s readings) := by
  unfold State.dieRead
  try dsimp only
  repeat' with_reducible (first | assumption | apply Keeps.ite | apply KeepsP.ite | apply State.putB_keeps | apply State.put_keeps | apply State.sensorState_keeps | apply State.evalLevels_keeps | apply State.shedFollow_keeps | apply State.bandFollow_keeps | apply State.thmQuiet_keeps | apply State.calStart_keeps | refine Keeps.foldl (fun _ _ _ => ?_) ?_ | refine Keeps.foldlP (fun _ _ _ => ?_) ?_ | refine Keeps.of_fst ?_ (by assumption) | apply KeepsP.fst | split | apply KeepsP.mk)

theorem State.extOne_keeps {κ : Nat} {ζ s : State} (hk : Keeps κ ζ s) (x : Nat) (r : Option (BitVec 12)) :
    Keeps κ ζ (State.extOne s x r) := by
  unfold State.extOne
  try dsimp only
  repeat' with_reducible (first | assumption | apply EvKeeps.refl | apply Keeps.ite | apply State.putB_keeps | apply State.put_keeps | apply State.sensorState_keeps | apply State.evalLevels_keeps | apply EvKeeps.ite | apply Keeps.lit)

theorem State.extRead_keeps {κ : Nat} {ζ s : State} (hk : Keeps κ ζ s) (readings : List (Option (BitVec 12))) :
    Keeps κ ζ (State.extRead s readings) := by
  unfold State.extRead
  try dsimp only
  repeat' with_reducible (first | assumption | apply State.extOne_keeps | apply State.thmQuiet_keeps | refine Keeps.foldl (fun _ _ _ => ?_) ?_)

theorem State.dieIn_keeps {κ : Nat} {ζ s : State} (hk : Keeps κ ζ s) (ws : List TempWord) :
    Keeps κ ζ (State.dieIn s ws) := by
  unfold State.dieIn
  repeat' with_reducible (first | assumption | apply Keeps.ite | apply State.parityWords_keeps | apply State.dieRead_keeps)

theorem State.extIn_keeps {κ : Nat} {ζ s : State} (hk : Keeps κ ζ s) (ws : List TempWord) :
    Keeps κ ζ (State.extIn s ws) := by
  unfold State.extIn
  try dsimp only
  repeat' with_reducible (first | assumption | apply Keeps.ite | apply State.parityWords_keeps | apply State.extRead_keeps)

theorem State.thmCells_keeps {κ : Nat} {ζ s : State} (hk : Keeps κ ζ s) :
    Keeps κ ζ (State.thmCells s) := by
  unfold State.thmCells
  try dsimp only
  repeat' with_reducible (first | assumption | apply Keeps.ite | apply State.evalLevels_keeps | apply State.thmQuiet_keeps | refine Keeps.foldl (fun _ _ _ => ?_) ?_)

theorem State.thmLevel_keeps {κ : Nat} {ζ s : State} (hk : Keeps κ ζ s) :
    Keeps κ ζ (State.thmLevel s) := by
  unfold State.thmLevel
  try dsimp only
  repeat' with_reducible (first | assumption | apply Keeps.ite | apply KeepsP.ite | apply State.put_keeps | apply State.putB_keeps | refine Keeps.foldl (fun _ _ _ => ?_) ?_ | refine Keeps.foldlP (fun _ _ _ => ?_) ?_ | refine Keeps.of_fst ?_ (by assumption) | apply KeepsP.fst | split | apply KeepsP.mk)

end Sys2Proof.Machine
end

