-- ==== Sys2Proof/Laws/KeepsNetOps.lean ====
section
/-! SUPPORT. What each operation of Machine/NetOps.lean keeps. -/

namespace Sys2Proof.Machine

theorem State.setLink_keeps {κ : Nat} {ζ s : State} (hk : Keeps κ ζ s) (p : Nat) (up : Bool) :
    Keeps κ ζ (State.setLink s p up) := by
  unfold State.setLink
  repeat' with_reducible (first | assumption | apply Keeps.ite | apply State.putBit_keeps | apply State.pulse_keeps)

theorem State.linkChange_keeps {κ : Nat} {ζ s : State} (hk : Keeps κ ζ s) (p : Nat) (x : LinkState) :
    Keeps κ ζ (State.linkChange s p x) := by
  unfold State.linkChange
  repeat' with_reducible (first | assumption | apply Keeps.ite | apply State.setLink_keeps)

theorem State.linksDown_keeps {κ : Nat} {ζ s : State} (hk : Keeps κ ζ s) :
    Keeps κ ζ (State.linksDown s) := by
  unfold State.linksDown
  try dsimp only
  repeat' with_reducible (first | assumption | apply Keeps.ite | apply State.setLink_keeps | refine Keeps.foldl (fun _ _ _ => ?_) ?_)

theorem State.send_keeps {κ : Nat} {ζ s : State} (hk : Keeps κ ζ s) (x : Egress) :
    Keeps κ ζ (State.send s x) := by
  unfold State.send
  try dsimp only
  repeat' with_reducible (first | assumption | apply EvKeeps.refl | apply Keeps.lit)

theorem State.police_keeps {κ : Nat} {ζ s : State} (hk : Keeps κ ζ s) (p c : Nat) :
    KeepsP κ ζ (State.police s p c) := by
  unfold State.police
  try dsimp only
  repeat' with_reducible (first | assumption | apply EvKeeps.refl | apply Keeps.ite | apply KeepsP.ite | apply EvKeeps.ite | apply KeepsP.fst | apply KeepsP.mk | apply Keeps.lit)

theorem State.setRx_keeps {κ : Nat} {ζ s : State} (hk : Keeps κ ζ s) (p : Nat) (c : Option Nat) :
    Keeps κ ζ (State.setRx s p c) := by
  unfold State.setRx
  try dsimp only
  repeat' with_reducible (first | assumption | apply EvKeeps.refl | apply Keeps.lit)

theorem State.frameCheck_keeps {κ : Nat} {ζ s : State} (hk : Keeps κ ζ s) (p : Nat) (f : NetFrame) :
    Keeps κ ζ (State.frameCheck s p f) := by
  unfold State.frameCheck
  try dsimp only
  repeat' with_reducible (first | assumption | apply Keeps.ite | apply KeepsP.ite | apply State.errInc_keeps | apply State.police_keeps | apply State.wrapInc_keeps | apply State.send_keeps | apply State.setRx_keeps | apply State.pulse_keeps | refine Keeps.of_fst ?_ (by assumption) | apply KeepsP.fst | split | apply KeepsP.mk)

theorem State.frameIn_keeps {κ : Nat} {ζ s : State} (hk : Keeps κ ζ s) (p : Nat) (f : NetFrame) :
    Keeps κ ζ (State.frameIn s p f) := by
  unfold State.frameIn
  repeat' with_reducible (first | assumption | apply Keeps.ite | apply State.setRx_keeps | apply State.frameCheck_keeps)

theorem State.timeBase_keeps {κ : Nat} {ζ s : State} (hk : Keeps κ ζ s) :
    Keeps κ ζ (State.timeBase s) := by
  unfold State.timeBase
  repeat' with_reducible (first | assumption | apply EvKeeps.refl | apply Keeps.lit)

theorem State.setFreq_keeps {κ : Nat} {ζ s : State} (hk : Keeps κ ζ s) (f : Int) :
    Keeps κ ζ (State.setFreq s f) := by
  unfold State.setFreq
  repeat' with_reducible (first | assumption | apply State.timeBase_keeps | apply State.putS_keeps)

theorem State.stepTime_keeps {κ : Nat} {ζ s : State} (hk : Keeps κ ζ s) (x : Rat) :
    Keeps κ ζ (State.stepTime s x) := by
  unfold State.stepTime
  try dsimp only
  repeat' with_reducible (first | assumption | apply EvKeeps.refl | apply State.timeBase_keeps | apply Keeps.lit | apply EvKeeps.lit)

theorem State.setTout_keeps {κ : Nat} {ζ s : State} (hk : Keeps κ ζ s) (n : Nat) (x : Tout) :
    Keeps κ ζ (State.setTout s n x) := by
  unfold State.setTout
  try dsimp only
  repeat' with_reducible (first | assumption | apply EvKeeps.refl | apply Keeps.lit)

theorem State.pulseStart_keeps {κ : Nat} {ζ s : State} (hk : Keeps κ ζ s) (n : Nat) (late : Bool) :
    Keeps κ ζ (State.pulseStart s n late) := by
  unfold State.pulseStart
  try dsimp only
  repeat' with_reducible (first | assumption | apply EvKeeps.refl | apply Keeps.ite | apply State.setTout_keeps | apply State.put_keeps | apply State.wrapInc_keeps | apply State.pulse_keeps | apply EvKeeps.ite | apply Keeps.lit)

theorem State.toutTest_keeps {κ : Nat} {ζ s : State} (hk : Keeps κ ζ s) (n : Nat) :
    Keeps κ ζ (State.toutTest s n) := by
  unfold State.toutTest
  repeat' with_reducible (first | assumption | apply Keeps.ite | apply State.pulseStart_keeps)

theorem State.toutArm_keeps {κ : Nat} {ζ s : State} (hk : Keeps κ ζ s) (n : Nat) :
    Keeps κ ζ (State.toutArm s n) := by
  unfold State.toutArm
  try dsimp only
  repeat' with_reducible (first | assumption | apply EvKeeps.refl | apply Keeps.ite | apply State.setTout_keeps | apply State.put_keeps | apply State.toutTest_keeps | apply EvKeeps.ite | apply Keeps.lit)

theorem State.toutStop_keeps {κ : Nat} {ζ s0 : State} (hk : Keeps κ ζ s0) (n : Nat) :
    KeepsP κ ζ (State.toutStop s0 n) := by
  unfold State.toutStop
  try dsimp only
  repeat' with_reducible (first | assumption | apply EvKeeps.refl | apply Keeps.ite | apply KeepsP.ite | apply State.pulseStart_keeps | apply State.put_keeps | apply State.setTout_keeps | apply EvKeeps.ite | apply KeepsP.mk | apply Keeps.lit)

theorem State.toutReached_keeps {κ : Nat} {ζ s : State} (hk : Keeps κ ζ s) (n : Nat) :
    Keeps κ ζ (State.toutReached s n) := by
  unfold State.toutReached
  repeat' with_reducible (first | assumption | apply Keeps.ite | apply State.pulseStart_keeps)

theorem State.pulseEnd_keeps {κ : Nat} {ζ s : State} (hk : Keeps κ ζ s) (n : Nat) :
    Keeps κ ζ (State.pulseEnd s n) := by
  unfold State.pulseEnd
  try dsimp only
  repeat' with_reducible (first | assumption | apply EvKeeps.refl | apply Keeps.ite | apply State.setTout_keeps | apply State.put_keeps | apply State.toutTest_keeps | apply EvKeeps.ite | apply Keeps.lit)

theorem State.toutStep_keeps {κ : Nat} {ζ s : State} (hk : Keeps κ ζ s) (x : Rat) :
    Keeps κ ζ (State.toutStep s x) := by
  unfold State.toutStep
  try dsimp only
  repeat' with_reducible (first | assumption | apply EvKeeps.refl | apply State.setTout_keeps | apply State.toutTest_keeps | refine Keeps.foldl (fun _ _ _ => ?_) ?_ | apply Keeps.lit)

theorem State.lockHold_keeps {κ : Nat} {ζ s : State} (hk : Keeps κ ζ s) :
    Keeps κ ζ (State.lockHold s) := by
  unfold State.lockHold
  try dsimp only
  repeat' with_reducible (first | assumption | apply Keeps.ite | apply State.put_keeps | apply State.pulse_keeps)

theorem State.lockPull_keeps {κ : Nat} {ζ s : State} (hk : Keeps κ ζ s) :
    Keeps κ ζ (State.lockPull s) := by
  unfold State.lockPull
  try dsimp only
  repeat' with_reducible (first | assumption | apply EvKeeps.refl | apply Keeps.ite | apply State.put_keeps | apply EvKeeps.ite | apply Keeps.lit)

theorem State.lockDrop_keeps {κ : Nat} {ζ s : State} (hk : Keeps κ ζ s) :
    Keeps κ ζ (State.lockDrop s) := by
  unfold State.lockDrop
  try dsimp only
  repeat' with_reducible (first | assumption | apply Keeps.ite | apply State.lockHold_keeps)

theorem State.lockStamp_keeps {κ : Nat} {ζ s : State} (hk : Keeps κ ζ s) :
    Keeps κ ζ (State.lockStamp s) := by
  unfold State.lockStamp
  try dsimp only
  repeat' with_reducible (first | assumption | apply EvKeeps.refl | apply Keeps.ite | apply State.putS_keeps | apply State.lockHold_keeps | apply EvKeeps.ite | apply Keeps.lit)

theorem State.lockSettled_keeps {κ : Nat} {ζ s : State} (hk : Keeps κ ζ s) :
    Keeps κ ζ (State.lockSettled s) := by
  unfold State.lockSettled
  repeat' with_reducible (first | assumption | apply Keeps.ite | apply State.put_keeps | apply State.pulse_keeps)

theorem State.setDom_keeps {κ : Nat} {ζ s : State} (hk : Keeps κ ζ s) (d : Nat) (x : PtpDomain) :
    Keeps κ ζ (State.setDom s d x) := by
  unfold State.setDom
  try dsimp only
  repeat' with_reducible (first | assumption | apply EvKeeps.refl | apply Keeps.lit)

theorem State.setServo_keeps {κ : Nat} {ζ s : State} (hk : Keeps κ ζ s) (st : Nat) :
    Keeps κ ζ (State.setServo s st) := by
  unfold State.setServo
  try dsimp only
  repeat' with_reducible (first | assumption | apply EvKeeps.refl | apply Keeps.ite | apply State.put_keeps | apply State.setDom_keeps | apply State.pulse_keeps | apply State.lockPull_keeps | apply State.lockDrop_keeps | apply EvKeeps.ite | refine Keeps.foldl (fun _ _ _ => ?_) ?_ | apply Keeps.lit)

theorem State.showDom_keeps {κ : Nat} {ζ s : State} (hk : Keeps κ ζ s) (d : Nat) :
    Keeps κ ζ (State.showDom s d) := by
  unfold State.showDom
  try dsimp only
  repeat' with_reducible (first | assumption | apply Keeps.ite | apply State.put_keeps | apply State.putS_keeps)

theorem State.ptpBad_keeps {κ : Nat} {ζ s : State} (hk : Keeps κ ζ s) (d : Nat) :
    Keeps κ ζ (State.ptpBad s d) := by
  unfold State.ptpBad
  repeat' with_reducible (first | assumption | apply State.errInc_keeps | apply State.pulse_keeps)

theorem State.shiftDoms_keeps {κ : Nat} {ζ s : State} (hk : Keeps κ ζ s) (x : Rat) :
    Keeps κ ζ (State.shiftDoms s x) := by
  unfold State.shiftDoms
  try dsimp only
  repeat' with_reducible (first | assumption | apply EvKeeps.refl | apply State.setDom_keeps | apply State.showDom_keeps | refine Keeps.foldl (fun _ _ _ => ?_) ?_ | refine Keeps.foldlP (fun _ _ _ => ?_) ?_ | apply KeepsP.fst | apply KeepsP.mk | apply Keeps.lit)

theorem State.servoStep_keeps {κ : Nat} {ζ s : State} (hk : Keeps κ ζ s) (x : Rat) :
    Keeps κ ζ (State.servoStep s x) := by
  unfold State.servoStep
  try dsimp only
  repeat' with_reducible (first | assumption | apply State.stepTime_keeps | apply State.shiftDoms_keeps | apply State.setServo_keeps | apply State.satIncF_keeps | apply State.pulse_keeps)

theorem State.steer_keeps {κ : Nat} {ζ s : State} (hk : Keeps κ ζ s) :
    Keeps κ ζ (State.steer s) := by
  unfold State.steer
  try dsimp only
  repeat' with_reducible (first | assumption | apply EvKeeps.refl | apply Keeps.ite | apply State.pulse_keeps | apply State.servoStep_keeps | apply State.setFreq_keeps | apply State.toutStep_keeps | apply State.setServo_keeps | apply EvKeeps.ite | apply Keeps.lit)

theorem State.ptpJump_keeps {κ : Nat} {ζ s : State} (hk : Keeps κ ζ s) (d : Nat) (o : Rat) :
    Keeps κ ζ (State.ptpJump s d o) := by
  unfold State.ptpJump
  try dsimp only
  repeat' with_reducible (first | assumption | apply EvKeeps.refl | apply Keeps.ite | apply State.setDom_keeps | apply State.putS_keeps | apply State.setServo_keeps | apply State.pulse_keeps | apply EvKeeps.ite | apply Keeps.lit)

theorem State.armGather_keeps {κ : Nat} {ζ s : State} (hk : Keeps κ ζ s) (d : Nat) (o : Rat) :
    KeepsP κ ζ (State.armGather s d o) := by
  unfold State.armGather
  try dsimp only
  repeat' with_reducible (first | assumption | apply EvKeeps.refl | apply Keeps.ite | apply KeepsP.ite | apply State.put_keeps | apply State.servoStep_keeps | apply State.toutStep_keeps | apply EvKeeps.ite | refine Keeps.foldl (fun _ _ _ => ?_) ?_ | refine Keeps.foldlP (fun _ _ _ => ?_) ?_ | apply KeepsP.mk | apply Keeps.lit)

theorem State.holdSample_keeps {κ : Nat} {ζ s : State} (hk : Keeps κ ζ s) (d : Nat) (o : Rat) :
    Keeps κ ζ (State.holdSample s d o) := by
  unfold State.holdSample
  try dsimp only
  repeat' with_reducible (first | assumption | apply EvKeeps.refl | apply Keeps.ite | apply State.setDom_keeps | apply State.setServo_keeps | apply EvKeeps.ite | apply Keeps.lit)

theorem State.filterSample_keeps {κ : Nat} {ζ s : State} (hk : Keeps κ ζ s) (d : Nat) (o : Rat) :
    Keeps κ ζ (State.filterSample s d o) := by
  unfold State.filterSample
  try dsimp only
  repeat' with_reducible (first | assumption | apply EvKeeps.refl | apply Keeps.ite | apply State.setDom_keeps | apply State.ptpJump_keeps | apply State.steer_keeps | apply State.holdSample_keeps | apply State.showDom_keeps | apply EvKeeps.ite | apply Keeps.lit)

theorem State.ptpSample_keeps {κ : Nat} {ζ s : State} (hk : Keeps κ ζ s) (d : Nat) (m : PtpSample) :
    Keeps κ ζ (State.ptpSample s d m) := by
  unfold State.ptpSample
  try dsimp only
  repeat' with_reducible (first | assumption | apply EvKeeps.refl | apply Keeps.ite | apply KeepsP.ite | apply State.ptpBad_keeps | apply State.setDom_keeps | apply State.armGather_keeps | apply State.filterSample_keeps | apply EvKeeps.ite | refine Keeps.of_fst ?_ (by assumption) | apply KeepsP.fst | split | apply KeepsP.mk | apply Keeps.lit)

theorem State.showUtc_keeps {κ : Nat} {ζ s : State} (hk : Keeps κ ζ s) :
    Keeps κ ζ (State.showUtc s) := by
  unfold State.showUtc
  repeat' with_reducible (first | assumption | apply State.put_keeps | refine Keeps.of_fst ?_ (by assumption) | apply KeepsP.fst | split | apply KeepsP.mk)

theorem State.switchSteer_keeps {κ : Nat} {ζ s : State} (hk : Keeps κ ζ s) :
    Keeps κ ζ (State.switchSteer s) := by
  unfold State.switchSteer
  try dsimp only
  repeat' with_reducible (first | assumption | apply EvKeeps.refl | apply Keeps.ite | apply State.put_keeps | apply State.setServo_keeps | apply State.showUtc_keeps | apply State.pulse_keeps | apply State.showDom_keeps | apply EvKeeps.ite | apply Keeps.lit)

theorem State.steerLost_keeps {κ : Nat} {ζ s : State} (hk : Keeps κ ζ s) :
    Keeps κ ζ (State.steerLost s) := by
  unfold State.steerLost
  try dsimp only
  repeat' with_reducible (first | assumption | apply EvKeeps.refl | apply Keeps.ite | apply State.switchSteer_keeps | apply State.setDom_keeps | apply State.setServo_keeps | apply State.pulse_keeps | apply EvKeeps.ite | apply Keeps.lit)

theorem State.ptpSelect_keeps {κ : Nat} {ζ s : State} (hk : Keeps κ ζ s) (sel : Nat) :
    KeepsP κ ζ (State.ptpSelect s sel) := by
  unfold State.ptpSelect
  repeat' with_reducible (first | assumption | apply Keeps.ite | apply KeepsP.ite | apply State.switchSteer_keeps | apply KeepsP.mk)

theorem State.armStepGo_keeps {κ : Nat} {ζ s : State} (hk : Keeps κ ζ s) :
    Keeps κ ζ (State.armStepGo s) := by
  unfold State.armStepGo
  try dsimp only
  repeat' with_reducible (first | assumption | apply EvKeeps.refl | apply Keeps.ite | apply State.put_keeps | apply EvKeeps.ite | apply Keeps.lit)

theorem State.ptpAnnounce_keeps {κ : Nat} {ζ s : State} (hk : Keeps κ ζ s) (d : Nat) (a : PtpAnnounce) :
    Keeps κ ζ (State.ptpAnnounce s d a) := by
  unfold State.ptpAnnounce
  try dsimp only
  repeat' with_reducible (first | assumption | apply EvKeeps.refl | apply Keeps.ite | apply KeepsP.ite | apply State.ptpBad_keeps | apply State.setDom_keeps | apply State.put_keeps | apply State.showDom_keeps | apply State.showUtc_keeps | apply State.steerLost_keeps | apply EvKeeps.ite | refine Keeps.of_fst ?_ (by assumption) | apply KeepsP.fst | split | apply KeepsP.mk | apply Keeps.lit)

theorem State.annTimeout_keeps {κ : Nat} {ζ s : State} (hk : Keeps κ ζ s) (d : Nat) :
    Keeps κ ζ (State.annTimeout s d) := by
  unfold State.annTimeout
  try dsimp only
  repeat' with_reducible (first | assumption | apply EvKeeps.refl | apply Keeps.ite | apply State.setDom_keeps | apply State.showDom_keeps | apply State.steerLost_keeps | apply EvKeeps.ite | apply Keeps.lit)

theorem State.pdelayReq_keeps {κ : Nat} {ζ s : State} (hk : Keeps κ ζ s) (p : Nat) (r : PdelayReq) :
    Keeps κ ζ (State.pdelayReq s p r) := by
  unfold State.pdelayReq
  try dsimp only
  repeat' with_reducible (first | assumption | apply State.send_keeps | apply State.ptpBad_keeps | refine Keeps.of_fst ?_ (by assumption) | apply KeepsP.fst | split | apply KeepsP.mk)

theorem State.withFrame_keeps {κ : Nat} {ζ s : State} (hk : Keeps κ ζ s) (p c : Nat) {f : State → State}
    (hf : ∀ t, Keeps κ ζ t → Keeps κ ζ (f t)) : Keeps κ ζ (State.withFrame s p c f) := by
  unfold State.withFrame
  exact Keeps.ite (hf _ (State.setRx_keeps hk _ _)) hk

theorem State.setGsub_keeps {κ : Nat} {ζ s : State} (hk : Keeps κ ζ s) (i : Nat) (x : GooseSub) :
    Keeps κ ζ (State.setGsub s i x) := by
  unfold State.setGsub
  try dsimp only
  repeat' with_reducible (first | assumption | apply EvKeeps.refl | apply Keeps.lit)

theorem State.setSvsub_keeps {κ : Nat} {ζ s : State} (hk : Keeps κ ζ s) (i : Nat) (x : SvSub) :
    Keeps κ ζ (State.setSvsub s i x) := by
  unfold State.setSvsub
  try dsimp only
  repeat' with_reducible (first | assumption | apply EvKeeps.refl | apply Keeps.lit)

theorem State.setGooseValid_keeps {κ : Nat} {ζ s : State} (hk : Keeps κ ζ s) (i : Nat) (b : Bool) :
    Keeps κ ζ (State.setGooseValid s i b) := by
  unfold State.setGooseValid
  repeat' with_reducible (first | assumption | apply State.wr_keeps)

theorem State.gooseCount_keeps {κ : Nat} {ζ s : State} (hk : Keeps κ ζ s) (i : Nat) :
    Keeps κ ζ (State.gooseCount s i) := by
  unfold State.gooseCount
  repeat' with_reducible (first | assumption | apply State.wr_keeps)

theorem State.gooseOne_keeps {κ : Nat} {ζ s : State} (hk : Keeps κ ζ s) (m : GooseMsg) (i : Nat) :
    Keeps κ ζ (State.gooseOne s m i) := by
  unfold State.gooseOne
  try dsimp only
  repeat' with_reducible (first | assumption | apply EvKeeps.refl | apply Keeps.ite | apply State.setGooseValid_keeps | apply State.pulse_keeps | apply State.setGsub_keeps | apply State.wr_keeps | apply State.gooseCount_keeps | apply EvKeeps.ite | apply Keeps.lit)

theorem State.gooseIn_keeps {κ : Nat} {ζ s : State} (hk : Keeps κ ζ s) (m : GooseMsg) :
    Keeps κ ζ (State.gooseIn s m) := by
  unfold State.gooseIn
  try dsimp only
  repeat' with_reducible (first | assumption | apply State.gooseOne_keeps | refine Keeps.foldl (fun _ _ _ => ?_) ?_)

theorem State.gooseTimeout_keeps {κ : Nat} {ζ s : State} (hk : Keeps κ ζ s) (i : Nat) :
    Keeps κ ζ (State.gooseTimeout s i) := by
  unfold State.gooseTimeout
  repeat' with_reducible (first | assumption | apply Keeps.ite | apply State.setGooseValid_keeps | apply State.pulse_keeps)

theorem State.setSvValid_keeps {κ : Nat} {ζ s : State} (hk : Keeps κ ζ s) (i : Nat) (b : Bool) :
    Keeps κ ζ (State.setSvValid s i b) := by
  unfold State.setSvValid
  repeat' with_reducible (first | assumption | apply State.wr_keeps)

theorem State.svAsdu_keeps {κ : Nat} {ζ s : State} (hk : Keeps κ ζ s) (i : Nat) (a : SvAsdu) :
    Keeps κ ζ (State.svAsdu s i a) := by
  unfold State.svAsdu
  try dsimp only
  repeat' with_reducible (first | assumption | apply EvKeeps.refl | apply Keeps.ite | apply State.setSvsub_keeps | apply State.wr_keeps | apply State.setSvValid_keeps | apply State.pulse_keeps | apply EvKeeps.ite | apply Keeps.lit)

theorem State.svOne_keeps {κ : Nat} {ζ s : State} (hk : Keeps κ ζ s) (m : SvMsg) (i : Nat) :
    Keeps κ ζ (State.svOne s m i) := by
  unfold State.svOne
  try dsimp only
  repeat' with_reducible (first | assumption | apply EvKeeps.refl | apply Keeps.ite | apply State.setSvValid_keeps | apply State.pulse_keeps | apply State.setSvsub_keeps | apply State.svAsdu_keeps | apply EvKeeps.ite | refine Keeps.foldl (fun _ _ _ => ?_) ?_ | apply Keeps.lit)

theorem State.svIn_keeps {κ : Nat} {ζ s : State} (hk : Keeps κ ζ s) (m : SvMsg) :
    Keeps κ ζ (State.svIn s m) := by
  unfold State.svIn
  try dsimp only
  repeat' with_reducible (first | assumption | apply State.svOne_keeps | refine Keeps.foldl (fun _ _ _ => ?_) ?_)

theorem State.svAge_keeps {κ : Nat} {ζ s : State} (hk : Keeps κ ζ s) (i : Nat) :
    Keeps κ ζ (State.svAge s i) := by
  unfold State.svAge
  try dsimp only
  repeat' with_reducible (first | assumption | apply EvKeeps.refl | apply Keeps.ite | apply State.setSvsub_keeps | apply State.setSvValid_keeps | apply State.pulse_keeps | apply EvKeeps.ite | apply Keeps.lit)

theorem State.mapEntry_keeps {κ : Nat} {ζ s : State} (hk : Keeps κ ζ s) (i : Nat) :
    Keeps κ ζ (State.mapEntry s i) := by
  unfold State.mapEntry
  try dsimp only
  repeat' with_reducible (first | assumption | apply EvKeeps.refl | apply Keeps.ite | apply KeepsP.ite | apply State.pulse_keeps | apply State.wr_keeps | apply EvKeeps.ite | apply KeepsP.fst | apply Keeps.lit)

theorem State.mapSnapshot_keeps {κ : Nat} {ζ s : State} (hk : Keeps κ ζ s) :
    Keeps κ ζ (State.mapSnapshot s) := by
  unfold State.mapSnapshot
  repeat' with_reducible (first | assumption | apply State.mapEntry_keeps | apply State.svAge_keeps | refine Keeps.foldl (fun _ _ _ => ?_) ?_)

theorem State.setPub_keeps {κ : Nat} {ζ s : State} (hk : Keeps κ ζ s) (j : Nat) (x : GoosePub) :
    Keeps κ ζ (State.setPub s j x) := by
  unfold State.setPub
  try dsimp only
  repeat' with_reducible (first | assumption | apply EvKeeps.refl | apply Keeps.lit)

theorem State.sendGoose_keeps {κ : Nat} {ζ s : State} (hk : Keeps κ ζ s) (j : Nat) :
    Keeps κ ζ (State.sendGoose s j) := by
  unfold State.sendGoose
  try dsimp only
  repeat' with_reducible (first | assumption | apply EvKeeps.refl | apply Keeps.ite | apply State.send_keeps | apply EvKeeps.ite | refine Keeps.foldl (fun _ _ _ => ?_) ?_ | apply Keeps.lit)

theorem State.publish_keeps {κ : Nat} {ζ s : State} (hk : Keeps κ ζ s) (j : Nat) :
    Keeps κ ζ (State.publish s j) := by
  unfold State.publish
  try dsimp only
  repeat' with_reducible (first | assumption | apply Keeps.ite | apply KeepsP.ite | apply State.setPub_keeps | apply State.wrapInc_keeps | apply State.put_keeps | apply State.sendGoose_keeps | apply KeepsP.fst)

theorem State.republish_keeps {κ : Nat} {ζ s : State} (hk : Keeps κ ζ s) (j : Nat) :
    Keeps κ ζ (State.republish s j) := by
  unfold State.republish
  try dsimp only
  repeat' with_reducible (first | assumption | apply EvKeeps.refl | apply Keeps.ite | apply State.setPub_keeps | apply State.wrapInc_keeps | apply State.sendGoose_keeps | apply EvKeeps.ite | apply Keeps.lit)

theorem State.setSession_keeps {κ : Nat} {ζ s : State} (hk : Keeps κ ζ s) (n : Nat) (x : RapSession) :
    Keeps κ ζ (State.setSession s n x) := by
  unfold State.setSession
  try dsimp only
  repeat' with_reducible (first | assumption | apply EvKeeps.refl | apply Keeps.lit)

theorem State.sendRap_keeps {κ : Nat} {ζ s : State} (hk : Keeps κ ζ s) (p : Nat) (key : List Byte) (x : RapOut) :
    Keeps κ ζ (State.sendRap s p key x) := by
  unfold State.sendRap
  repeat' with_reducible (first | assumption | apply EvKeeps.refl | apply State.send_keeps | apply Keeps.lit)

theorem State.sendNotify_keeps {κ : Nat} {ζ s : State} (hk : Keeps κ ζ s) (x : Nat × Nat × Nat) :
    Keeps κ ζ (State.sendNotify s x) := by
  unfold State.sendNotify
  try dsimp only
  repeat' with_reducible (first | assumption | apply EvKeeps.refl | apply Keeps.ite | apply State.sendRap_keeps | apply EvKeeps.ite | refine Keeps.foldl (fun _ _ _ => ?_) ?_ | apply Keeps.lit)

theorem State.sendNotifies_keeps {κ : Nat} {ζ s : State} (hk : Keeps κ ζ s) :
    Keeps κ ζ (State.sendNotifies s) := by
  unfold State.sendNotifies
  repeat' with_reducible (first | assumption | apply State.sendNotify_keeps | refine Keeps.foldl (fun _ _ _ => ?_) ?_)

theorem State.rapAuth_keeps {κ : Nat} {ζ s : State} (hk : Keeps κ ζ s) (p : Nat) :
    Keeps κ ζ (State.rapAuth s p) := by
  unfold State.rapAuth
  repeat' with_reducible (first | assumption | apply State.errInc_keeps | apply State.pulse_keeps)

end Sys2Proof.Machine
end

