-- ==== Sys2Proof/Laws/KeepsLvWave.lean ====
section
/-! SUPPORT. What each operation of Machine/LvWave.lean keeps. -/

namespace Sys2Proof.Machine

theorem State.rawChange_keeps {κ : Nat} {ζ s : State} (hk : Keeps κ ζ s) (n : Nat) (b : Bool) :
    Keeps κ ζ (State.rawChange s n b) := by
  unfold State.rawChange
  try dsimp only
  repeat' with_reducible (first | assumption | apply EvKeeps.refl | apply Keeps.ite | apply State.setChan_keeps | apply State.refresh_keeps | apply EvKeeps.ite | apply Keeps.lit)

theorem State.reloadChan_keeps {κ : Nat} {ζ s : State} (hk : Keeps κ ζ s) (n : Nat) :
    Keeps κ ζ (State.reloadChan s n) := by
  unfold State.reloadChan
  try dsimp only
  repeat' with_reducible (first | assumption | apply EvKeeps.refl | apply Keeps.ite | apply State.put_keeps | apply State.pulse_keeps | apply State.setChan_keeps | apply State.rawChange_keeps | apply EvKeeps.ite | apply Keeps.lit)

theorem State.reloadAll_keeps {κ : Nat} {ζ s : State} (hk : Keeps κ ζ s) (rl : List Nat) :
    Keeps κ ζ (State.reloadAll s rl) := by
  unfold State.reloadAll
  repeat' with_reducible (first | assumption | apply State.reloadChan_keeps | refine Keeps.foldl (fun _ _ _ => ?_) ?_)

theorem State.compareMatch_keeps {κ : Nat} {ζ s : State} (hk : Keeps κ ζ s) (n : Nat) :
    Keeps κ ζ (State.compareMatch s n) := by
  unfold State.compareMatch
  try dsimp only
  repeat' with_reducible (first | assumption | apply Keeps.ite | apply State.rawChange_keeps)

theorem State.deadEnd_keeps {κ : Nat} {ζ s : State} (hk : Keeps κ ζ s) (n : Nat) (high : Bool) :
    Keeps κ ζ (State.deadEnd s n high) := by
  unfold State.deadEnd
  try dsimp only
  repeat' with_reducible (first | assumption | apply EvKeeps.refl | apply Keeps.ite | apply State.setChan_keeps | apply State.refresh_keeps | apply EvKeeps.ite | apply Keeps.lit)

theorem State.shootEval_keeps {κ : Nat} {ζ s : State} (hk : Keeps κ ζ s) (n : Nat) :
    Keeps κ ζ (State.shootEval s n) := by
  unfold State.shootEval
  try dsimp only
  repeat' with_reducible (first | assumption | apply EvKeeps.refl | apply Keeps.ite | apply State.put_keeps | apply State.setChan_keeps | apply State.shootTrip_keeps | apply EvKeeps.ite | apply Keeps.lit)

theorem State.pwmWrap_keeps {κ : Nat} {ζ s : State} (hk : Keeps κ ζ s) (n : Nat) :
    Keeps κ ζ (State.pwmWrap s n) := by
  unfold State.pwmWrap
  try dsimp only
  repeat' with_reducible (first | assumption | apply Keeps.ite | apply State.shootEval_keeps | apply State.rawChange_keeps)

theorem State.pumpCommit_keeps {κ : Nat} {ζ s : State} (hk : Keeps κ ζ s) :
    Keeps κ ζ (State.pumpCommit s) := by
  unfold State.pumpCommit
  try dsimp only
  repeat' with_reducible (first | assumption | apply EvKeeps.refl | apply KeepsP.fst | apply Keeps.lit)

theorem State.shadow_keeps {κ : Nat} {ζ s : State} (hk : Keeps κ ζ s) (n v : Nat) :
    Keeps κ ζ (State.shadow s n v) := by
  unfold State.shadow
  repeat' with_reducible (first | assumption | apply EvKeeps.refl | apply State.setChan_keeps | apply Keeps.lit)

theorem State.lvCommit_keeps {κ : Nat} {ζ s : State} (hk : Keeps κ ζ s) :
    Keeps κ ζ (State.lvCommit s) := by
  unfold State.lvCommit
  try dsimp only
  repeat' with_reducible (first | assumption | apply State.shadow_keeps | apply State.putB_keeps | refine Keeps.foldl (fun _ _ _ => ?_) ?_ | refine Keeps.foldlP (fun _ _ _ => ?_) ?_ | apply KeepsP.fst | apply KeepsP.mk)

theorem State.chopFollow_keeps {κ : Nat} {ζ s : State} (hk : Keeps κ ζ s) (c : Nat) :
    Keeps κ ζ (State.chopFollow s c) := by
  unfold State.chopFollow
  try dsimp only
  repeat' with_reducible (first | assumption | apply EvKeeps.refl | apply Keeps.ite | apply KeepsW.ite | apply State.setChan_keeps | apply State.rawChange_keeps | apply EvKeeps.ite | apply KeepsW.s | apply KeepsW.mk | apply Keeps.lit)

theorem State.chopApply_keeps {κ : Nat} {ζ s : State} (hk : Keeps κ ζ s) (c : Nat) :
    Keeps κ ζ (State.chopApply s c) := by
  unfold State.chopApply
  try dsimp only
  repeat' with_reducible (first | assumption | apply EvKeeps.refl | apply Keeps.ite | apply KeepsW.ite | apply State.setChan_keeps | apply State.chopFollow_keeps | apply State.refresh_keeps | apply State.rawChange_keeps | apply EvKeeps.ite | apply KeepsW.s | apply KeepsW.mk | apply Keeps.lit)

theorem State.chopHoldEnd_keeps {κ : Nat} {ζ s : State} (hk : Keeps κ ζ s) (c : Nat) :
    Keeps κ ζ (State.chopHoldEnd s c) := by
  unfold State.chopHoldEnd
  try dsimp only
  repeat' with_reducible (first | assumption | apply EvKeeps.refl | apply Keeps.ite | apply State.setChan_keeps | apply State.chopFollow_keeps | apply EvKeeps.ite | apply Keeps.lit)

theorem State.takeOn_keeps {κ : Nat} {ζ s : State} (hk : Keeps κ ζ s) (n : Nat) : Keeps κ ζ (s.takeOn n).2 := by
  unfold State.takeOn
  try dsimp only
  repeat' with_reducible (first | assumption | apply State.setChan_keeps)

theorem State.chopPeriod_keeps {κ : Nat} {ζ s : State} (hk : Keeps κ ζ s) (n : Nat) :
    Keeps κ ζ (State.chopPeriod s n) := by
  unfold State.chopPeriod
  try dsimp only
  repeat' with_reducible (first | assumption | apply EvKeeps.refl | apply State.takeOn_keeps | apply State.setChan_keeps | refine Keeps.of_fst ?_ (by assumption) | apply KeepsP.fst | split | apply KeepsP.mk | apply Keeps.lit)

theorem State.chopEnergy_keeps {κ : Nat} {ζ s : State} (hk : Keeps κ ζ s) (c : Nat) :
    Keeps κ ζ (State.chopEnergy s c) := by
  unfold State.chopEnergy
  try dsimp only
  repeat' with_reducible (first | assumption | apply Keeps.ite | apply State.takeOn_keeps | apply State.setChan_keeps | apply State.put_keeps | apply State.chopFault_keeps)

theorem State.setPump_keeps {κ : Nat} {ζ s : State} (hk : Keeps κ ζ s) (st : Nat) :
    Keeps κ ζ (State.setPump s st) := by
  unfold State.setPump
  try dsimp only
  repeat' with_reducible (first | assumption | apply EvKeeps.refl | apply State.put_keeps | apply Keeps.lit)

theorem State.setBrk_keeps {κ : Nat} {ζ s : State} (hk : Keeps κ ζ s) (b : Bool) :
    Keeps κ ζ (State.setBrk s b) := by
  unfold State.setBrk
  try dsimp only
  repeat' with_reducible (first | assumption | apply Keeps.ite | apply State.putB_keeps | apply State.pulse_keeps)

theorem State.brkFree_keeps {κ : Nat} {ζ s : State} (hk : Keeps κ ζ s) :
    Keeps κ ζ (State.brkFree s) := by
  unfold State.brkFree
  repeat' with_reducible (first | assumption | apply EvKeeps.refl | apply Keeps.lit)

theorem State.pumpQueue_keeps {κ : Nat} {ζ s : State} (hk : Keeps κ ζ s) :
    Keeps κ ζ (State.pumpQueue s) := by
  unfold State.pumpQueue
  try dsimp only
  repeat' with_reducible (first | assumption | apply EvKeeps.refl | apply State.setPump_keeps | apply State.brkFree_keeps | apply Keeps.lit)

theorem State.pumpUnqueue_keeps {κ : Nat} {ζ s : State} (hk : Keeps κ ζ s) :
    Keeps κ ζ (State.pumpUnqueue s) := by
  unfold State.pumpUnqueue
  try dsimp only
  repeat' with_reducible (first | assumption | apply EvKeeps.refl | apply Keeps.lit)

theorem State.pumpStartNow_keeps {κ : Nat} {ζ s : State} (hk : Keeps κ ζ s) :
    Keeps κ ζ (State.pumpStartNow s) := by
  unfold State.pumpStartNow
  repeat' with_reducible (first | assumption | apply Keeps.ite | apply State.pumpQueue_keeps)

theorem State.pumpStopNow_keeps {κ : Nat} {ζ s : State} (hk : Keeps κ ζ s) :
    Keeps κ ζ (State.pumpStopNow s) := by
  unfold State.pumpStopNow
  try dsimp only
  repeat' with_reducible (first | assumption | apply EvKeeps.refl | apply Keeps.ite | apply KeepsP.ite | apply State.put_keeps | apply State.setPump_keeps | apply State.pumpUnqueue_keeps | apply State.brkFree_keeps | apply EvKeeps.ite | refine Keeps.of_fst ?_ (by assumption) | apply KeepsP.fst | split | apply KeepsP.mk | apply Keeps.lit)

theorem State.diagStep_keeps {κ : Nat} {ζ s : State} (hk : Keeps κ ζ s) (low high : Nat) :
    Keeps κ ζ (State.diagStep s low high) := by
  unfold State.diagStep
  try dsimp only
  repeat' with_reducible (first | assumption | apply EvKeeps.refl | apply Keeps.ite | apply State.putBit_keeps | apply State.put_keeps | apply State.pumpFault_keeps | apply State.pumpFaultAt_keeps | apply State.setPump_keeps | apply EvKeeps.ite | apply Keeps.lit)

theorem State.setBoot_keeps {κ : Nat} {ζ s : State} (hk : Keeps κ ζ s) (low : Bool) :
    Keeps κ ζ (State.setBoot s low) := by
  unfold State.setBoot
  repeat' with_reducible (first | assumption | apply EvKeeps.refl | apply Keeps.lit)

theorem State.hallIn_keeps {κ : Nat} {ζ s : State} (hk : Keeps κ ζ s) (code : Nat) (bootLow : Bool) :
    Keeps κ ζ (State.hallIn s code bootLow) := by
  unfold State.hallIn
  try dsimp only
  repeat' with_reducible (first | assumption | apply EvKeeps.refl | apply Keeps.ite | apply KeepsP.ite | apply State.put_keeps | apply State.setBoot_keeps | apply State.checkBoot_keeps | apply State.commutate_keeps | apply State.pumpFault_keeps | apply EvKeeps.ite | refine Keeps.of_fst ?_ (by assumption) | apply KeepsP.fst | split | apply KeepsP.mk | apply Keeps.lit)

theorem State.vmIn_keeps {κ : Nat} {ζ s : State} (hk : Keeps κ ζ s) (vm : Nat) :
    Keeps κ ζ (State.vmIn s vm) := by
  unfold State.vmIn
  try dsimp only
  repeat' with_reducible (first | assumption | apply EvKeeps.refl | apply Keeps.ite | apply State.put_keeps | apply State.setBrk_keeps | apply State.ovBrakeEnd_keeps | apply State.pumpOv_keeps | apply State.pumpFault_keeps | apply EvKeeps.ite | apply Keeps.lit)

theorem State.brkTimeout_keeps {κ : Nat} {ζ s : State} (hk : Keeps κ ζ s) :
    Keeps κ ζ (State.brkTimeout s) := by
  unfold State.brkTimeout
  try dsimp only
  repeat' with_reducible (first | assumption | apply EvKeeps.refl | apply Keeps.ite | apply State.setBrk_keeps | apply State.pumpFault_keeps | apply EvKeeps.ite | apply Keeps.lit)

theorem State.overCurrent_keeps {κ : Nat} {ζ s : State} (hk : Keeps κ ζ s) :
    Keeps κ ζ (State.overCurrent s) := by
  unfold State.overCurrent
  repeat' with_reducible (first | assumption | apply EvKeeps.refl | apply Keeps.ite | apply EvKeeps.ite | apply Keeps.lit)

theorem State.pumpWrap_keeps {κ : Nat} {ζ s : State} (hk : Keeps κ ζ s) :
    Keeps κ ζ (State.pumpWrap s) := by
  unfold State.pumpWrap
  try dsimp only
  repeat' with_reducible (first | assumption | apply EvKeeps.refl | apply Keeps.ite | apply State.pumpFault_keeps | apply State.checkBoot_keeps | apply EvKeeps.ite | apply Keeps.lit)

theorem State.pumpStall_keeps {κ : Nat} {ζ s : State} (hk : Keeps κ ζ s) :
    Keeps κ ζ (State.pumpStall s) := by
  unfold State.pumpStall
  try dsimp only
  repeat' with_reducible (first | assumption | apply Keeps.ite | apply State.put_keeps | apply State.pumpFault_keeps)

theorem State.hallTimeout_keeps {κ : Nat} {ζ s : State} (hk : Keeps κ ζ s) :
    Keeps κ ζ (State.hallTimeout s) := by
  unfold State.hallTimeout
  try dsimp only
  repeat' with_reducible (first | assumption | apply Keeps.ite | apply State.pumpFault_keeps)

theorem State.retryEnd_keeps {κ : Nat} {ζ s : State} (hk : Keeps κ ζ s) (c : Nat) :
    Keeps κ ζ (State.retryEnd s c) := by
  unfold State.retryEnd
  try dsimp only
  repeat' with_reducible (first | assumption | apply EvKeeps.refl | apply Keeps.ite | apply State.put_keeps | apply State.pumpQueue_keeps | apply State.pumpFault_keeps | apply State.clearAct_keeps | apply State.chopFault_keeps | apply EvKeeps.ite | apply Keeps.lit)

theorem State.chopResume_keeps {κ : Nat} {ζ s : State} (hk : Keeps κ ζ s) (c : Nat) :
    Keeps κ ζ (State.chopResume s c) := by
  unfold State.chopResume
  try dsimp only
  repeat' with_reducible (first | assumption | apply EvKeeps.refl | apply State.put_keeps | apply State.setChan_keeps | apply State.refresh_keeps | apply Keeps.lit)

theorem State.chopResumes_keeps {κ : Nat} {ζ s : State} (hk : Keeps κ ζ s) :
    Keeps κ ζ (State.chopResumes s) := by
  unfold State.chopResumes
  try dsimp only
  repeat' with_reducible (first | assumption | apply EvKeeps.refl | apply Keeps.ite | apply State.chopResume_keeps | apply EvKeeps.ite | apply Keeps.lit)

theorem State.retryClean_keeps {κ : Nat} {ζ s : State} (hk : Keeps κ ζ s) (c : Nat) :
    Keeps κ ζ (State.retryClean s c) := by
  unfold State.retryClean
  repeat' with_reducible (first | assumption | apply State.put_keeps)

theorem State.retryClearOne_keeps {κ : Nat} {ζ s : State} (hk : Keeps κ ζ s) (c : Nat) :
    Keeps κ ζ (State.retryClearOne s c) := by
  unfold State.retryClearOne
  try dsimp only
  repeat' with_reducible (first | assumption | apply EvKeeps.refl | apply Keeps.ite | apply State.put_keeps | apply State.noteClear_keeps | apply State.setPump_keeps | apply State.brkFree_keeps | apply State.clearAct_keeps | apply State.dropChan_keeps | apply EvKeeps.ite | apply Keeps.lit)

theorem State.unitsBack_keeps {κ : Nat} {ζ s : State} (hk : Keeps κ ζ s) :
    Keeps κ ζ (State.unitsBack s) := by
  unfold State.unitsBack
  try dsimp only
  repeat' with_reducible (first | assumption | apply EvKeeps.refl | apply Keeps.ite | apply State.setCell_keeps | apply EvKeeps.ite | refine Keeps.foldl (fun _ _ _ => ?_) ?_ | apply Keeps.lit)

theorem State.grantPump_keeps {κ : Nat} {ζ s : State} (hk : Keeps κ ζ s) :
    Keeps κ ζ (State.grantPump s) := by
  unfold State.grantPump
  try dsimp only
  repeat' with_reducible (first | assumption | apply EvKeeps.refl | apply State.setPump_keeps | apply State.put_keeps | apply Keeps.lit)

theorem State.grantCell_keeps {κ : Nat} {ζ s : State} (hk : Keeps κ ζ s) (c : Nat) :
    Keeps κ ζ (State.grantCell s c) := by
  unfold State.grantCell
  try dsimp only
  repeat' with_reducible (first | assumption | apply EvKeeps.refl | apply State.setCState_keeps | apply State.setCell_keeps | apply Keeps.lit)

theorem State.grantList_keeps {κ : Nat} {ζ s : State} (hk : Keeps κ ζ s) (l : List StartReq) :
    Keeps κ ζ (State.grantList s l) := by
  induction l generalizing s with
  | nil => exact Keeps.lit hk (EvKeeps.refl _)
  | cons r l ih =>
    unfold State.grantList
    dsimp only
    refine Keeps.ite (ih (Keeps.ite (State.grantPump_keeps hk) (State.grantCell_keeps hk _))) ?_
    exact Keeps.lit hk (EvKeeps.refl _)

theorem State.grantStarts_keeps {κ : Nat} {ζ s : State} (hk : Keeps κ ζ s) :
    Keeps κ ζ (State.grantStarts s) := by
  unfold State.grantStarts
  repeat' with_reducible (first | assumption | apply State.grantList_keeps)

end Sys2Proof.Machine
end

