-- ==== Sys2Proof/Laws/KeepsRedOps.lean ====
section
/-! SUPPORT. What each operation of Machine/RedOps.lean keeps. -/

namespace Sys2Proof.Machine

theorem State.setRole_keeps {κ : Nat} {ζ s : State} (hk : Keeps κ ζ s) (r : Nat) :
    Keeps κ ζ (State.setRole s r) := by
  unfold State.setRole
  repeat' with_reducible (first | assumption | apply State.put_keeps)

theorem State.toAlign_keeps {κ : Nat} {ζ s : State} (hk : Keeps κ ζ s) :
    Keeps κ ζ (State.toAlign s) := by
  unfold State.toAlign
  try dsimp only
  repeat' with_reducible (first | assumption | apply EvKeeps.refl | apply State.setRole_keeps | apply Keeps.lit)

theorem State.toSync_keeps {κ : Nat} {ζ s : State} (hk : Keeps κ ζ s) :
    Keeps κ ζ (State.toSync s) := by
  unfold State.toSync
  try dsimp only
  repeat' with_reducible (first | assumption | apply EvKeeps.refl | apply State.setRole_keeps | apply State.put_keeps | apply Keeps.lit)

theorem State.firstCopy_keeps {κ : Nat} {ζ s : State} (hk : Keeps κ ζ s) (x : Nat) {f : State → State}
    (hf : ∀ t, Keeps κ ζ t → Keeps κ ζ (f t)) : Keeps κ ζ (State.firstCopy s x f) := by
  unfold State.firstCopy
  exact Keeps.ite hk (hf _ (Keeps.lit hk (EvKeeps.refl _)))

theorem State.peerShows_keeps {κ : Nat} {ζ s : State} (hk : Keeps κ ζ s) (role : Nat) :
    Keeps κ ζ (State.peerShows s role) := by
  unfold State.peerShows
  try dsimp only
  repeat' with_reducible (first | assumption | apply EvKeeps.refl | apply Keeps.ite | apply State.pulse_keeps | apply EvKeeps.ite | apply Keeps.lit)

theorem State.alignSteer_keeps {ζ s : State} (hk : Keeps 1 ζ s) (e : Int) :
    Keeps 1 ζ (State.alignSteer s e) := by
  unfold State.alignSteer
  try dsimp only
  repeat' with_reducible (first | assumption | apply EvKeeps.refl | apply Keeps.ite | apply State.putS_keeps | apply EvKeeps.ite | apply Keeps.lit1)

theorem State.alignEval_keeps {ζ s : State} (hk : Keeps 1 ζ s) (e2 : Int) :
    Keeps 1 ζ (State.alignEval s e2) := by
  unfold State.alignEval
  try dsimp only
  repeat' with_reducible (first | assumption | apply EvKeeps.refl | apply Keeps.ite | apply State.putS_keeps | apply State.alignSteer_keeps | apply State.put_keeps | apply State.toSync_keeps | apply State.pulse_keeps | apply State.toAlign_keeps | apply EvKeeps.ite | apply Keeps.lit1)

theorem State.alignStep_keeps {ζ s : State} (hk : Keeps 1 ζ s) :
    Keeps 1 ζ (State.alignStep s) := by
  unfold State.alignStep
  try dsimp only
  repeat' with_reducible (first | assumption | apply EvKeeps.refl | apply Keeps.ite | apply KeepsP.ite | apply State.alignEval_keeps | apply EvKeeps.ite | refine Keeps.of_fst ?_ (by assumption) | apply KeepsP.fst | split | apply KeepsP.mk | apply Keeps.lit1)

theorem State.xlAlign_keeps {ζ s : State} (hk : Keeps 1 ζ s) (h : XlHead) (m16 : Int) (peerReady : Bool) :
    Keeps 1 ζ (State.xlAlign s h m16 peerReady) := by
  unfold State.xlAlign
  try dsimp only
  repeat' with_reducible (first | assumption | apply EvKeeps.refl | apply Keeps.ite | refine State.firstCopy_keeps ?_ _ (fun _ _ => ?_) | apply State.putB_keeps | apply State.alignStep_keeps | apply EvKeeps.ite | apply Keeps.lit1)

theorem State.breakRuns_keeps {κ : Nat} {ζ s : State} (hk : Keeps κ ζ s) :
    Keeps κ ζ (State.breakRuns s) := by
  unfold State.breakRuns
  repeat' with_reducible (first | assumption | apply EvKeeps.refl | apply Keeps.ite | apply EvKeeps.ite | apply Keeps.lit)

theorem State.adoptCell_keeps {κ : Nat} {ζ s : State} (hk : Keeps κ ζ s) (c st : Nat) (valid : Bool) :
    Keeps κ ζ (State.adoptCell s c st valid) := by
  unfold State.adoptCell
  try dsimp only
  repeat' with_reducible (first | assumption | apply EvKeeps.refl | apply Keeps.ite | apply State.setCState_keeps | apply State.setCell_keeps | apply State.put_keeps | apply State.errInc_keeps | apply State.satIncF_keeps | apply EvKeeps.ite | apply Keeps.lit)

theorem State.compareCrc_keeps {κ : Nat} {ζ s : State} (hk : Keeps κ ζ s) (same : Bool) :
    Keeps κ ζ (State.compareCrc s same) := by
  unfold State.compareCrc
  try dsimp only
  repeat' with_reducible (first | assumption | apply EvKeeps.refl | apply Keeps.ite | apply State.setRole_keeps | apply State.pulse_keeps | apply State.errInc_keeps | apply State.toSync_keeps | apply EvKeeps.ite | apply Keeps.lit)

theorem State.xlState_keeps {ζ s : State} (hk : Keeps 1 ζ s) (f : XlState) :
    Keeps 1 ζ (State.xlState s f) := by
  unfold State.xlState
  try dsimp only
  repeat' with_reducible (first | assumption | apply EvKeeps.refl | apply Keeps.ite | refine State.firstCopy_keeps ?_ _ (fun _ _ => ?_) | apply State.putB_keeps | apply State.adoptCell_keeps | apply State.setGroup_keeps | apply State.compareCrc_keeps | apply State.alignStep_keeps | apply EvKeeps.ite | refine Keeps.foldl (fun _ _ _ => ?_) ?_ | apply Keeps.lit1)

theorem State.xlInput_keeps {κ : Nat} {ζ s : State} (hk : Keeps κ ζ s) (f : XlInput) :
    Keeps κ ζ (State.xlInput s f) := by
  unfold State.xlInput
  try dsimp only
  repeat' with_reducible (first | assumption | apply EvKeeps.refl | apply Keeps.ite | refine State.firstCopy_keeps ?_ _ (fun _ _ => ?_) | apply EvKeeps.ite | apply Keeps.lit | apply EvKeeps.lit)

theorem State.copyEntry_keeps {κ : Nat} {ζ s : State} (hk : Keeps κ ζ s) (a : Nat) (v : Int) :
    Keeps κ ζ (State.copyEntry s a v) := by
  unfold State.copyEntry
  try dsimp only
  repeat' with_reducible (first | assumption | apply EvKeeps.refl | apply State.setCell_keeps | refine Keeps.of_fst ?_ (by assumption) | apply KeepsP.fst | split | apply KeepsP.mk | apply Keeps.lit | apply EvKeeps.lit)

theorem State.copyWrite_keeps {κ : Nat} {ζ s : State} (hk : Keeps κ ζ s) :
    Keeps κ ζ (State.copyWrite s) := by
  unfold State.copyWrite
  try dsimp only
  repeat' with_reducible (first | assumption | apply EvKeeps.refl | apply Keeps.ite | apply KeepsP.ite | apply State.copyEntry_keeps | apply State.put_keeps | apply EvKeeps.ite | refine Keeps.foldl (fun _ _ _ => ?_) ?_ | refine Keeps.foldlP (fun _ _ _ => ?_) ?_ | apply KeepsP.fst | apply KeepsP.mk | apply Keeps.lit)

theorem State.xlCopy_keeps {κ : Nat} {ζ s : State} (hk : Keeps κ ζ s) (h : XlHead) (entries : List (Nat × Int)) (last : Bool) :
    Keeps κ ζ (State.xlCopy s h entries last) := by
  unfold State.xlCopy
  try dsimp only
  repeat' with_reducible (first | assumption | apply EvKeeps.refl | apply Keeps.ite | refine State.firstCopy_keeps ?_ _ (fun _ _ => ?_) | apply State.copyWrite_keeps | apply EvKeeps.ite | apply Keeps.lit)

theorem State.peerResigned_keeps {κ : Nat} {ζ s : State} (hk : Keeps κ ζ s) :
    Keeps κ ζ (State.peerResigned s) := by
  unfold State.peerResigned
  try dsimp only
  repeat' with_reducible (first | assumption | apply EvKeeps.refl | apply Keeps.ite | apply State.pulse_keeps | apply EvKeeps.ite | apply Keeps.lit)

theorem State.resignInput_keeps {κ : Nat} {ζ s : State} (hk : Keeps κ ζ s) (level : Bool) :
    Keeps κ ζ (State.resignInput s level) := by
  unfold State.resignInput
  try dsimp only
  repeat' with_reducible (first | assumption | apply Keeps.ite | apply State.putB_keeps | apply State.peerResigned_keeps | apply State.toAlign_keeps)

theorem State.startDriving_keeps {κ : Nat} {ζ s : State} (hk : Keeps κ ζ s) :
    Keeps κ ζ (State.startDriving s) := by
  unfold State.startDriving
  try dsimp only
  repeat' with_reducible (first | assumption | apply EvKeeps.refl | apply Keeps.ite | apply State.setRole_keeps | apply State.lockPull_keeps | apply EvKeeps.ite | apply Keeps.lit)

theorem State.electDone_keeps {κ : Nat} {ζ s : State} (hk : Keeps κ ζ s) :
    Keeps κ ζ (State.electDone s) := by
  unfold State.electDone
  repeat' with_reducible (first | assumption | apply Keeps.ite | apply State.startDriving_keeps)

theorem State.xlBothLost_keeps {κ : Nat} {ζ s : State} (hk : Keeps κ ζ s) :
    Keeps κ ζ (State.xlBothLost s) := by
  unfold State.xlBothLost
  try dsimp only
  repeat' with_reducible (first | assumption | apply Keeps.ite | apply State.pulse_keeps | apply State.toAlign_keeps)

theorem State.swapNow_keeps {κ : Nat} {ζ s : State} (hk : Keeps κ ζ s) :
    Keeps κ ζ (State.swapNow s) := by
  unfold State.swapNow
  try dsimp only
  repeat' with_reducible (first | assumption | apply EvKeeps.refl | apply Keeps.ite | apply State.setRole_keeps | apply State.startDriving_keeps | apply State.setWhiteout_keeps | apply State.put_keeps | apply State.errInc_keeps | apply State.pulse_keeps | apply EvKeeps.ite | apply Keeps.lit)

theorem State.setSlice_keeps {κ : Nat} {ζ s : State} (hk : Keeps κ ζ s) (n : Nat) (x : Slice) :
    Keeps κ ζ (State.setSlice s n x) := by
  unfold State.setSlice
  try dsimp only
  repeat' with_reducible (first | assumption | apply EvKeeps.refl | apply Keeps.lit)

theorem State.minority_keeps {κ : Nat} {ζ s : State} (hk : Keeps κ ζ s) (n kind index : Nat) :
    Keeps κ ζ (State.minority s n kind index) := by
  unfold State.minority
  try dsimp only
  repeat' with_reducible (first | assumption | apply EvKeeps.refl | apply Keeps.ite | apply State.setSlice_keeps | apply State.put_keeps | apply State.errInc_keeps | apply State.pulse_keeps | apply EvKeeps.ite | apply Keeps.lit)

theorem State.sliceBoundary_keeps {κ : Nat} {ζ s : State} (hk : Keeps κ ζ s) :
    Keeps κ ζ (State.sliceBoundary s) := by
  unfold State.sliceBoundary
  try dsimp only
  repeat' with_reducible (first | assumption | apply Keeps.ite | apply State.put_keeps | refine Keeps.foldl (fun _ _ _ => ?_) ?_)

theorem State.sliceBack_keeps {κ : Nat} {ζ s : State} (hk : Keeps κ ζ s) (n : Nat) :
    Keeps κ ζ (State.sliceBack s n) := by
  unfold State.sliceBack
  repeat' with_reducible (first | assumption | apply Keeps.ite | apply State.put_keeps | apply State.pulse_keeps)

end Sys2Proof.Machine
end

