-- ==== Sys2Proof/Laws/KeepsSecOps.lean ====
section
/-! SUPPORT. What each operation of Machine/SecOps.lean keeps. -/

namespace Sys2Proof.Machine

theorem State.frzPut_keeps {κ : Nat} {ζ s : State} (hk : Keeps κ ζ s) (e : Nat) (w : Word × Word) :
    Keeps κ ζ (State.frzPut s e w) := by
  unfold State.frzPut
  repeat' with_reducible (first | assumption | apply State.wr_keeps | apply KeepsP.fst)

theorem State.freeze_keeps {κ : Nat} {ζ s : State} (hk : Keeps κ ζ s) :
    Keeps κ ζ (State.freeze s) := by
  unfold State.freeze
  try dsimp only
  repeat' with_reducible (first | assumption | apply EvKeeps.refl | apply State.frzPut_keeps | apply State.atTick_keeps | apply State.put_keeps | apply Evt.put_keeps | refine Keeps.foldl (fun _ _ _ => ?_) ?_ | refine EvKeeps.foldl (fun _ _ _ => ?_) ?_)

theorem State.discardCell_keeps {κ : Nat} {ζ s : State} (hk : Keeps κ ζ s) (c : Nat) :
    Keeps κ ζ (State.discardCell s c) := by
  unfold State.discardCell
  try dsimp only
  repeat' with_reducible (first | assumption | apply EvKeeps.refl | apply State.setCell_keeps | refine Keeps.of_fst ?_ (by assumption) | apply KeepsP.fst | split | apply KeepsP.mk | apply Keeps.lit)

theorem State.txAbort_keeps {κ : Nat} {ζ s : State} (hk : Keeps κ ζ s) (cause : Nat) :
    Keeps κ ζ (State.txAbort s cause) := by
  unfold State.txAbort
  try dsimp only
  repeat' with_reducible (first | assumption | apply EvKeeps.refl | apply Keeps.ite | apply State.discardCell_keeps | apply State.put_keeps | apply EvKeeps.ite | refine Keeps.foldl (fun _ _ _ => ?_) ?_ | apply Keeps.lit)

theorem State.txSwitch_keeps {κ : Nat} {ζ s : State} (hk : Keeps κ ζ s) :
    Keeps κ ζ (State.txSwitch s) := by
  unfold State.txSwitch
  repeat' with_reducible (first | assumption | apply Keeps.ite | apply State.txAbort_keeps)

theorem State.writeSummary_keeps {κ : Nat} {ζ s : State} (hk : Keeps κ ζ s) (cause : Nat) :
    Keeps κ ζ (State.writeSummary s cause) := by
  unfold State.writeSummary
  try dsimp only
  repeat' with_reducible (first | assumption | apply State.mramPut_keeps)

theorem State.bootEvt_wf (s : State) (cause boot : Nat) : Sparse.wf resetWord (s.bootEvt cause boot).regs = true := by
  have h0 : EvKeeps {} { queue := [⟨0, 0, 0x3FF, 0, 2, false, 0, s.nv.logSeq, BitVec.ofNat 32 cause, BitVec.ofNat 32 boot⟩] } := id
  have h : EvKeeps {} (s.bootEvt cause boot) :=
    EvKeeps.foldl (fun _ _ ht => EvKeeps.ite ht (Evt.wr_keeps ht _ _)) (Evt.put_keeps (Evt.put_keeps h0 _ _ _) _ _ _)
  exact h rfl

theorem State.cleared_keeps {ζ s : State} (hk : Keeps 1 ζ s) (cause : Nat) : Keeps 1 ζ (s.cleared cause) := by
  have w := State.bootEvt_wf s cause (satInc 0xFFFFFFFF s.nv.bootCnt)
  unfold State.cleared
  exact ⟨fun c => let d := hk.canon c; ⟨rfl, w, d.mram, d.flash, rfl⟩, hk.pending, hk.store, fun k => absurd k (by decide)⟩

theorem State.hardReset_keeps {ζ s : State} (hk : Keeps 1 ζ s) (cause : Nat) :
    Keeps 1 ζ (State.hardReset s cause) := by
  unfold State.hardReset
  try dsimp only
  repeat' with_reducible (first | assumption | apply Keeps.ite | apply State.cleared_keeps | apply State.put_keeps | apply State.putB_keeps)

theorem State.resignOutputs_keeps {κ : Nat} {ζ s : State} (hk : Keeps κ ζ s) :
    Keeps κ ζ (State.resignOutputs s) := by
  unfold State.resignOutputs
  try dsimp only
  repeat' with_reducible (first | assumption | apply EvKeeps.refl | apply Keeps.ite | apply State.put_keeps | apply State.pumpUnqueue_keeps | apply State.setPump_keeps | apply State.setBrk_keeps | apply State.dropScope_keeps | apply State.refreshAll_keeps | apply EvKeeps.ite | refine Keeps.foldl (fun _ _ _ => ?_) ?_ | apply Keeps.lit)

theorem State.enterResigned_keeps {κ : Nat} {ζ s : State} (hk : Keeps κ ζ s) (cause : Nat) :
    Keeps κ ζ (State.enterResigned s cause) := by
  unfold State.enterResigned
  try dsimp only
  repeat' with_reducible (first | assumption | apply EvKeeps.refl | apply Keeps.ite | apply State.freeze_keeps | apply State.acqResign_keeps | apply State.txSwitch_keeps | apply State.put_keeps | apply State.putB_keeps | apply State.writeSummary_keeps | apply State.setRole_keeps | apply State.resignOutputs_keeps | apply EvKeeps.ite | apply Keeps.lit)

theorem State.doResign_keeps {κ : Nat} {ζ s : State} (hk : Keeps κ ζ s) (cause src : Nat) :
    Keeps κ ζ (State.doResign s cause src) := by
  unfold State.doResign
  try dsimp only
  repeat' with_reducible (first | assumption | apply EvKeeps.refl | apply Keeps.ite | apply State.pulse_keeps | apply State.txSwitch_keeps | apply State.put_keeps | apply State.resignOutputs_keeps | apply State.setWhiteout_keeps | apply State.enterResigned_keeps | apply EvKeeps.ite | apply Keeps.lit)

theorem State.traceOnEvent_keeps {κ : Nat} {ζ s : State} (hk : Keeps κ ζ s) :
    Keeps κ ζ (State.traceOnEvent s) := by
  unfold State.traceOnEvent
  try dsimp only
  repeat' with_reducible (first | assumption | apply EvKeeps.refl | apply Keeps.ite | apply KeepsP.ite | apply EvKeeps.ite | apply KeepsP.fst | apply Keeps.lit | apply EvKeeps.lit)

theorem State.settleRound_keeps {κ : Nat} {ζ s : State} (hk : Keeps κ ζ s) :
    Keeps κ ζ (State.settleRound s) := by
  unfold State.settleRound
  try dsimp only
  repeat' with_reducible (first | assumption | apply EvKeeps.refl | apply State.traceOnEvent_keeps | apply State.countRaised_keeps | apply State.offer_keeps | apply State.setWhiteout_keeps | apply State.doResign_keeps | refine Keeps.of_fst ?_ (by assumption) | apply KeepsP.fst | split | apply KeepsP.mk | apply Keeps.lit | apply EvKeeps.lit)

theorem State.settleN_keeps {κ : Nat} {ζ s : State} (hk : Keeps κ ζ s) (n : Nat) : Keeps κ ζ (State.settleN n s) := by
  induction n generalizing s with
  | zero => exact hk
  | succ n ih =>
    unfold State.settleN
    exact Keeps.ite hk (ih (State.settleRound_keeps hk))

theorem State.settle_keeps {κ : Nat} {ζ s : State} (hk : Keeps κ ζ s) :
    Keeps κ ζ (State.settle s) := by
  unfold State.settle
  try dsimp only
  repeat' with_reducible (first | assumption | apply EvKeeps.refl | apply State.settleN_keeps | apply State.sendNotifies_keeps | apply Keeps.lit | apply EvKeeps.lit)

end Sys2Proof.Machine
end

