-- ==== Sys2Proof/Laws/KeepsImageOps.lean ====
section
/-! SUPPORT. What each operation of Machine/ImageOps.lean keeps. -/

namespace Sys2Proof.Machine

theorem State.bootResult_keeps {κ : Nat} {ζ s : State} (hk : Keeps κ ζ s) (k code : Nat) :
    Keeps κ ζ (State.bootResult s k code) := by
  unfold State.bootResult
  repeat' with_reducible (first | assumption | apply Keeps.ite | apply State.put_keeps)

theorem State.slotFail_keeps {κ : Nat} {ζ s : State} (hk : Keeps κ ζ s) (k code : Nat) :
    Keeps κ ζ (State.slotFail s k code) := by
  unfold State.slotFail
  repeat' with_reducible (first | assumption | apply State.bootResult_keeps | apply State.pulse_keeps)

theorem State.noImage_keeps {κ : Nat} {ζ s : State} (hk : Keeps κ ζ s) :
    Keeps κ ζ (State.noImage s) := by
  unfold State.noImage
  try dsimp only
  repeat' with_reducible (first | assumption | apply EvKeeps.refl | apply State.put_keeps | apply State.pulse_keeps | apply Keeps.lit)

theorem State.nextSlot_keeps {κ : Nat} {ζ s : State} (hk : Keeps κ ζ s) :
    Keeps κ ζ (State.nextSlot s) := by
  unfold State.nextSlot
  try dsimp only
  repeat' with_reducible (first | assumption | apply EvKeeps.refl | apply Keeps.ite | apply State.noImage_keeps | apply State.put_keeps | apply EvKeeps.ite | apply Keeps.lit)

theorem State.orderSlots_keeps {κ : Nat} {ζ s : State} (hk : Keeps κ ζ s) :
    Keeps κ ζ (State.orderSlots s) := by
  unfold State.orderSlots
  try dsimp only
  repeat' with_reducible (first | assumption | apply EvKeeps.refl | apply Keeps.ite | apply State.slotFail_keeps | apply EvKeeps.ite | apply Keeps.lit)

theorem State.lcSteps_keeps {ζ s : State} (hk : Keeps 0 ζ s) (l : Nat) : Keeps 0 ζ (State.lcSteps s l) :=
  ⟨fun c => let d := hk.canon c; ⟨d.regs, d.evt, rfl, d.flash, d.dram⟩, hk.pending, fun k => absurd k (by decide),
    fun k => absurd k (by decide)⟩

theorem State.wipeFlag_keeps {κ : Nat} {ζ s : State} (hk : Keeps κ ζ s) (x : Option Nat) :
    Keeps κ ζ (State.wipeFlag s x) := by
  unfold State.wipeFlag
  repeat' with_reducible (first | assumption | apply EvKeeps.refl | apply Keeps.lit)

theorem State.lcResume_keeps {ζ s : State} (hk : Keeps 0 ζ s) :
    Keeps 0 ζ (State.lcResume s) := by
  unfold State.lcResume
  repeat' with_reducible (first | assumption | apply State.lcSteps_keeps | apply State.wipeFlag_keeps | apply State.put_keeps | refine Keeps.of_fst ?_ (by assumption) | apply KeepsP.fst | split | apply KeepsP.mk)

theorem State.bootStart_keeps {ζ s : State} (hk : Keeps 0 ζ s) : Keeps 0 ζ (State.bootStart s) := by
  have hk := State.lcResume_keeps hk
  unfold State.bootStart
  dsimp only
  repeat' with_reducible (first | assumption | apply EvKeeps.refl | apply Keeps.ite | apply State.pulse_keeps | apply State.noImage_keeps | apply State.slotFail_keeps | apply State.orderSlots_keeps | apply EvKeeps.ite | apply Keeps.lit0)

/-- Past an unfinished life-cycle change, the start of boot keeps the flash and the fuses. -/
theorem State.bootStart_keeps1 {ζ s : State} (hk : Keeps 1 ζ s.lcResume) : Keeps 1 ζ (State.bootStart s) := by
  unfold State.bootStart
  dsimp only
  repeat' with_reducible (first | assumption | apply EvKeeps.refl | apply Keeps.ite | apply State.pulse_keeps | apply State.noImage_keeps | apply State.slotFail_keeps | apply State.orderSlots_keeps | apply EvKeeps.ite | apply Keeps.lit1)

theorem State.trySlot_keeps {κ : Nat} {ζ s : State} (hk : Keeps κ ζ s) :
    Keeps κ ζ (State.trySlot s) := by
  unfold State.trySlot
  try dsimp only
  repeat' with_reducible (first | assumption | apply EvKeeps.refl | apply Keeps.ite | apply KeepsP.ite | apply State.slotFail_keeps | apply State.nextSlot_keeps | apply EvKeeps.ite | refine Keeps.of_fst ?_ (by assumption) | apply KeepsP.fst | split | apply KeepsP.mk | apply Keeps.lit)

theorem State.readDone_keeps {κ : Nat} {ζ s : State} (hk : Keeps κ ζ s) (ok : Bool) :
    Keeps κ ζ (State.readDone s ok) := by
  unfold State.readDone
  repeat' with_reducible (first | assumption | apply EvKeeps.refl | apply Keeps.ite | apply KeepsP.ite | apply State.stage_keeps | apply State.slotFail_keeps | apply State.nextSlot_keeps | apply EvKeeps.ite | refine Keeps.of_fst ?_ (by assumption) | apply KeepsP.fst | split | apply KeepsP.mk | apply Keeps.lit)

theorem State.load_keeps {κ : Nat} {ζ s : State} (hk : Keeps κ ζ s) (a : Nat) (v : Word) :
    Keeps κ ζ (State.load s a v) := by
  unfold State.load
  repeat' with_reducible (first | assumption | apply EvKeeps.refl | apply Keeps.ite | apply State.wr_keeps | apply Evt.wr_keeps | apply EvKeeps.ite | apply Keeps.lit)

theorem State.loadRw_keeps {κ : Nat} {ζ s : State} (hk : Keeps κ ζ s) (a : Nat) (v : Word) :
    Keeps κ ζ (State.loadRw s a v) := by
  unfold State.loadRw
  repeat' with_reducible (first | assumption | apply State.load_keeps | refine Keeps.of_fst ?_ (by assumption) | apply KeepsP.fst | split | apply KeepsP.mk)

theorem State.loadCopy_keeps {κ : Nat} {ζ s : State} (hk : Keeps κ ζ s) (r : Row) (i : Nat) (v : Word) :
    Keeps κ ζ (State.loadCopy s r i v) := by
  unfold State.loadCopy
  repeat' with_reducible (first | assumption | apply EvKeeps.refl | apply Keeps.ite | apply State.setAonCfg_keeps | apply State.setChan_keeps | apply EvKeeps.ite | apply Keeps.lit)

theorem State.loadInit_keeps {κ : Nat} {ζ s : State} (hk : Keeps κ ζ s) (a : Nat) (v : Word) :
    Keeps κ ζ (State.loadInit s a v) := by
  unfold State.loadInit
  repeat' with_reducible (first | assumption | apply State.loadRw_keeps | apply State.loadCopy_keeps | refine Keeps.of_fst ?_ (by assumption) | apply KeepsP.fst | split | apply KeepsP.mk)

theorem State.loadReg_keeps {κ : Nat} {ζ s : State} (hk : Keeps κ ζ s) (a : Nat) (v : Word) :
    Keeps κ ζ (State.loadReg s a v) := by
  unfold State.loadReg
  repeat' with_reducible (first | assumption | apply State.load_keeps | apply State.loadCopy_keeps | refine Keeps.of_fst ?_ (by assumption) | apply KeepsP.fst | split | apply KeepsP.mk)

theorem State.loadCell_keeps {κ : Nat} {ζ s : State} (hk : Keeps κ ζ s) (ws : List Word) :
    Keeps κ ζ (State.loadCell s ws) := by
  unfold State.loadCell
  try dsimp only
  repeat' with_reducible (first | assumption | apply State.wr_keeps | apply State.setCState_keeps | refine Keeps.foldl (fun _ _ _ => ?_) ?_ | refine Keeps.foldlP (fun _ _ _ => ?_) ?_ | apply KeepsP.fst | apply KeepsP.mk)

theorem State.loadEvent_keeps {κ : Nat} {ζ s : State} (hk : Keeps κ ζ s) (x : Word × Word) :
    Keeps κ ζ (State.loadEvent s x) := by
  unfold State.loadEvent
  try dsimp only
  repeat' with_reducible (first | assumption | apply EvKeeps.refl | apply State.put_keeps | apply Evt.put_keeps | apply KeepsP.fst | apply EvKeepsP.fst | apply Keeps.lit)

theorem State.loadPlant_keeps {κ : Nat} {ζ s : State} (hk : Keeps κ ζ s) (d : ImgData) :
    Keeps κ ζ (State.loadPlant s d) := by
  unfold State.loadPlant
  try dsimp only
  repeat' with_reducible (first | assumption | apply Keeps.ite | apply KeepsP.ite | apply State.put_keeps | apply State.putB_keeps | apply State.putBit_keeps | refine Keeps.foldl (fun _ _ _ => ?_) ?_ | refine Keeps.foldlP (fun _ _ _ => ?_) ?_ | apply KeepsP.fst | apply KeepsP.mk)

theorem State.loadGraph_keeps {κ : Nat} {ζ s : State} (hk : Keeps κ ζ s) (d : ImgData) :
    Keeps κ ζ (State.loadGraph s d) := by
  unfold State.loadGraph
  try dsimp only
  repeat' with_reducible (first | assumption | apply State.wr_keeps | apply State.put_keeps | refine Keeps.foldl (fun _ _ _ => ?_) ?_ | refine Keeps.foldlP (fun _ _ _ => ?_) ?_ | apply KeepsP.fst | apply KeepsP.mk)

theorem State.holdVbLim_keeps {κ : Nat} {ζ s : State} (hk : Keeps κ ζ s) :
    Keeps κ ζ (State.holdVbLim s) := by
  unfold State.holdVbLim
  try dsimp only
  repeat' with_reducible (first | assumption | apply State.put_keeps)

theorem State.loadGroups_keeps {κ : Nat} {ζ s : State} (hk : Keeps κ ζ s) :
    Keeps κ ζ (State.loadGroups s) := by
  unfold State.loadGroups
  try dsimp only
  repeat' with_reducible (first | assumption | apply State.put_keeps | refine Keeps.foldl (fun _ _ _ => ?_) ?_)

theorem State.diodeSubs_keeps {κ : Nat} {ζ s : State} (hk : Keeps κ ζ s) (d : ImgData) :
    Keeps κ ζ (State.diodeSubs s d) := by
  unfold State.diodeSubs
  try dsimp only
  repeat' with_reducible (first | assumption | apply Keeps.ite | apply KeepsP.ite | apply State.put_keeps | refine Keeps.foldl (fun _ _ _ => ?_) ?_ | refine Keeps.foldlP (fun _ _ _ => ?_) ?_ | apply KeepsP.fst | apply KeepsP.mk)

theorem State.derive_keeps {ζ s : State} (hk : Keeps 1 ζ s) :
    Keeps 1 ζ (State.derive s) := by
  unfold State.derive
  try dsimp only
  repeat' with_reducible (first | assumption | apply EvKeeps.refl | apply Keeps.ite | apply State.put_keeps | apply EvKeeps.ite | refine Keeps.foldl (fun _ _ _ => ?_) ?_ | apply Keeps.lit1 | apply EvKeeps.lit)

theorem State.connApply_keeps {κ : Nat} {ζ s : State} (hk : Keeps κ ζ s) (t : Nat) :
    Keeps κ ζ (State.connApply s t) := by
  unfold State.connApply
  try dsimp only
  repeat' with_reducible (first | assumption | apply EvKeeps.refl | apply Keeps.ite | apply State.put_keeps | apply State.setTgConn_keeps | apply EvKeeps.ite | apply Keeps.lit)

theorem State.imageFollow_keeps {κ : Nat} {ζ s : State} (hk : Keeps κ ζ s) :
    Keeps κ ζ (State.imageFollow s) := by
  unfold State.imageFollow
  try dsimp only
  repeat' with_reducible (first | assumption | apply Keeps.ite | apply KeepsW.ite | apply State.connApply_keeps | apply State.presetWindow_keeps | apply State.showDom_keeps | apply KeepsW.s | refine Keeps.foldl (fun _ _ _ => ?_) ?_ | refine KeepsW.foldl (fun _ _ _ => ?_) ?_ | apply KeepsW.mk)

theorem State.applyImage_keeps {ζ s : State} (hk : Keeps 1 ζ s) (d : ImgData) :
    Keeps 1 ζ (State.applyImage s d) := by
  unfold State.applyImage
  try dsimp only
  repeat' with_reducible (first | assumption | apply EvKeeps.refl | apply State.loadCell_keeps | apply State.loadPlant_keeps | apply State.loadGroups_keeps | apply State.loadGraph_keeps | apply State.loadEvent_keeps | apply State.loadReg_keeps | apply State.loadInit_keeps | apply State.diodeSubs_keeps | apply State.derive_keeps | apply State.holdVbLim_keeps | apply State.put_keeps | apply State.imageFollow_keeps | apply Evt.put_keeps | refine Keeps.foldl (fun _ _ _ => ?_) ?_ | refine Keeps.foldlP (fun _ _ _ => ?_) ?_ | refine EvKeeps.foldl (fun _ _ _ => ?_) ?_ | apply KeepsP.fst | apply EvKeepsP.fst | apply KeepsP.mk | apply Keeps.lit1 | apply EvKeeps.lit)

theorem dropRegs_wf (m : Sparse Word) : Sparse.wf resetWord (dropRegs m) = true := by
  have h : ∀ (l acc : Sparse Word), Sparse.wf resetWord acc = true →
      Sparse.wf resetWord (l.foldl (fun l x => Sparse.set resetWord l x.1 (dropWord x.1 x.2)) acc) = true := by
    intro l
    induction l with
    | nil => exact fun _ h => h
    | cons x l ih => exact fun acc h => ih _ (Sparse.wf_set _ _ _ h)
  exact h m [] rfl

theorem State.dropImage_keeps {ζ s : State} (hk : Keeps 1 ζ s) : Keeps 1 ζ (State.dropImage s) :=
  ⟨fun c => let d := hk.canon c; ⟨dropRegs_wf _, dropRegs_wf _, d.mram, d.flash, d.dram⟩,
    hk.pending, hk.store, fun k => absurd k (by decide)⟩

theorem State.lateFail_keeps {ζ s : State} (hk : Keeps 1 ζ s) (k code : Nat) :
    Keeps 1 ζ (State.lateFail s k code) := by
  unfold State.lateFail
  repeat' with_reducible (first | assumption | apply State.dropImage_keeps | apply State.slotFail_keeps | apply State.nextSlot_keeps)

theorem State.verifyRest_keeps {ζ s : State} (hk : Keeps 1 ζ s) :
    Keeps 1 ζ (State.verifyRest s) := by
  unfold State.verifyRest
  try dsimp only
  repeat' with_reducible (first | assumption | apply EvKeeps.refl | apply Keeps.ite | apply KeepsP.ite | apply State.slotFail_keeps | apply State.nextSlot_keeps | apply State.put_keeps | apply State.lateFail_keeps | apply State.applyImage_keeps | apply EvKeeps.ite | refine Keeps.of_fst ?_ (by assumption) | apply KeepsP.fst | split | apply KeepsP.mk | apply Keeps.lit1)

theorem State.checkPass_keeps {ζ s : State} (hk : Keeps 1 ζ s) :
    Keeps 1 ζ (State.checkPass s) := by
  unfold State.checkPass
  try dsimp only
  repeat' with_reducible (first | assumption | apply EvKeeps.refl | apply Keeps.ite | apply KeepsP.ite | apply State.stage_keeps | apply State.put_keeps | apply State.bootResult_keeps | apply State.wrapInc_keeps | apply State.pulse_keeps | apply State.lateFail_keeps | apply EvKeeps.ite | refine Keeps.of_fst ?_ (by assumption) | apply KeepsP.fst | split | apply KeepsP.mk | apply Keeps.lit1)

theorem State.slotVerify_keeps {ζ s : State} (hk : Keeps 0 ζ s) : Keeps 0 ζ (State.slotVerify s) := by
  have h1 : ∀ {t : State}, Keeps 0 ζ t → ∀ {u}, Keeps 1 t u → Keeps 0 ζ u := fun ht _ hu =>
    Keeps.trans ht (Keeps.mono (Nat.zero_le 1) hu)
  unfold State.slotVerify
  dsimp only
  refine Keeps.ite hk (Keeps.ite (h1 hk (State.verifyRest_keeps (Keeps.refl 1 s))) (Keeps.ite hk ?_))
  have hb : Keeps 0 ζ (if s.boot.ordered = true then s else s.bootStart) := Keeps.ite hk (State.bootStart_keeps hk)
  exact Keeps.ite (h1 hb (State.trySlot_keeps (Keeps.refl _ _))) hb

/-- With no life-cycle change to repeat, SLOT_VERIFY keeps the flash and the fuses. -/
theorem State.slotVerify_keeps1 {ζ s : State} (hk : Keeps 1 ζ s) (hr : Keeps 1 ζ s.lcResume) : Keeps 1 ζ (State.slotVerify s) := by
  unfold State.slotVerify
  dsimp only
  refine Keeps.ite hk (Keeps.ite (State.verifyRest_keeps hk) (Keeps.ite hk ?_))
  have hb : Keeps 1 ζ (if s.boot.ordered = true then s else s.bootStart) := Keeps.ite hk (State.bootStart_keeps1 hr)
  exact Keeps.ite (State.trySlot_keeps hb) hb

theorem State.firstBoundary_keeps {ζ s : State} (hk : Keeps 1 ζ s) :
    Keeps 1 ζ (State.firstBoundary s) := by
  unfold State.firstBoundary
  try dsimp only
  repeat' with_reducible (first | assumption | apply EvKeeps.refl | apply Keeps.ite | apply State.stage_keeps | apply State.put_keeps | apply State.setRole_keeps | apply State.reloadAll_keeps | apply State.toAlign_keeps | apply State.pulse_keeps | apply State.calStart_keeps | apply State.safeFollow_keeps | apply State.setWhiteout_keeps | apply State.mapEnable_keeps | apply State.windowBoundary_keeps | apply EvKeeps.ite | refine Keeps.foldl (fun _ _ _ => ?_) ?_ | apply Keeps.lit1)

end Sys2Proof.Machine
end

