-- ==== Sys2Proof/Laws/KeepsBusCmds.lean ====
section
/-! SUPPORT. What each operation of Machine/BusCmds.lean keeps. -/

namespace Sys2Proof.Machine

theorem State.cellStopNow_keeps {κ : Nat} {ζ s : State} (hk : Keeps κ ζ s) (c : Nat) :
    Keeps κ ζ (State.cellStopNow s c) := by
  unfold State.cellStopNow
  try dsimp only
  repeat' with_reducible (first | assumption | apply EvKeeps.refl | apply State.leaveTo_keeps | apply State.enterBlocked_keeps | apply State.setCell_keeps | apply Keeps.lit)

theorem State.cellCmdNow_keeps {κ : Nat} {ζ s : State} (hk : Keeps κ ζ s) (c cmd : Nat) :
    Keeps κ ζ (State.cellCmdNow s c cmd) := by
  unfold State.cellCmdNow
  repeat' with_reducible (first | assumption | apply EvKeeps.refl | apply Keeps.ite | apply State.pulse_keeps | apply State.queueCell_keeps | apply State.cellStopNow_keeps | apply State.setCell_keeps | apply EvKeeps.ite | apply Keeps.lit)

theorem State.groupStartNow_keeps {κ : Nat} {ζ s : State} (hk : Keeps κ ζ s) :
    Keeps κ ζ (State.groupStartNow s) := by
  unfold State.groupStartNow
  try dsimp only
  repeat' with_reducible (first | assumption | apply Keeps.ite | apply State.pulse_keeps | apply State.queueCell_keeps | refine Keeps.foldl (fun _ _ _ => ?_) ?_)

theorem State.groupStopNow_keeps {κ : Nat} {ζ s : State} (hk : Keeps κ ζ s) :
    Keeps κ ζ (State.groupStopNow s) := by
  unfold State.groupStopNow
  try dsimp only
  repeat' with_reducible (first | assumption | apply EvKeeps.refl | apply Keeps.ite | apply State.cellStopNow_keeps | apply State.put_keeps | apply EvKeeps.ite | refine Keeps.foldl (fun _ _ _ => ?_) ?_ | apply Keeps.lit | apply EvKeeps.lit)

theorem State.stopBoundary_keeps {κ : Nat} {ζ s : State} (hk : Keeps κ ζ s) :
    Keeps κ ζ (State.stopBoundary s) := by
  unfold State.stopBoundary
  try dsimp only
  repeat' with_reducible (first | assumption | apply EvKeeps.refl | apply Keeps.ite | apply State.cellStopNow_keeps | apply State.put_keeps | apply EvKeeps.ite | refine Keeps.foldl (fun _ _ _ => ?_) ?_ | apply Keeps.lit | apply EvKeeps.lit)

theorem State.clearTrip_keeps {κ : Nat} {ζ s : State} (hk : Keeps κ ζ s) (t : Nat) :
    Keeps κ ζ (State.clearTrip s t) := by
  unfold State.clearTrip
  try dsimp only
  repeat' with_reducible (first | assumption | apply Keeps.ite | apply State.clearRefused_keeps | apply State.putBit_keeps | apply State.noteClear_keeps | apply State.released_keeps | apply State.clearAct_keeps)

theorem State.clearShoot_keeps {κ : Nat} {ζ s : State} (hk : Keeps κ ζ s) (n : Nat) :
    Keeps κ ζ (State.clearShoot s n) := by
  unfold State.clearShoot
  try dsimp only
  repeat' with_reducible (first | assumption | apply EvKeeps.refl | apply Keeps.ite | apply State.clearRefused_keeps | apply State.put_keeps | apply State.setChan_keeps | apply State.noteClear_keeps | apply State.clearAct_keeps | apply State.released_keeps | apply EvKeeps.ite | apply Keeps.lit)

theorem State.clearFault_keeps {κ : Nat} {ζ s : State} (hk : Keeps κ ζ s) (n : Nat) :
    Keeps κ ζ (State.clearFault s n) := by
  unfold State.clearFault
  try dsimp only
  repeat' with_reducible (first | assumption | apply Keeps.ite | apply State.clearRefused_keeps | apply State.putBit_keeps | apply State.noteClear_keeps | apply State.released_keeps | apply State.clearAct_keeps)

theorem State.eachBit_keeps {κ : Nat} {ζ s : State} (hk : Keeps κ ζ s) (n mask : Nat) {f : State → Nat → State}
    (hf : ∀ t i, Keeps κ ζ t → Keeps κ ζ (f t i)) : Keeps κ ζ (State.eachBit s n mask f) :=
  Keeps.foldl hf hk

theorem State.setForces_keeps {κ : Nat} {ζ s : State} (hk : Keeps κ ζ s) (f : Nat → Nat) :
    Keeps κ ζ (State.setForces s f) := by
  unfold State.setForces
  try dsimp only
  repeat' with_reducible (first | assumption | apply State.put_keeps | apply State.putB_keeps | apply State.refreshAll_keeps | refine Keeps.foldl (fun _ _ _ => ?_) ?_)

theorem State.forceGo_keeps {κ : Nat} {ζ s : State} (hk : Keeps κ ζ s) :
    Keeps κ ζ (State.forceGo s) := by
  unfold State.forceGo
  repeat' with_reducible (first | assumption | apply State.setForces_keeps)

theorem State.forceRelease_keeps {κ : Nat} {ζ s : State} (hk : Keeps κ ζ s) :
    Keeps κ ζ (State.forceRelease s) := by
  unfold State.forceRelease
  try dsimp only
  repeat' with_reducible (first | assumption | apply State.setForces_keeps)

theorem State.safReset_keeps {κ : Nat} {ζ s : State} (hk : Keeps κ ζ s) :
    Keeps κ ζ (State.safReset s) := by
  unfold State.safReset
  repeat' with_reducible (first | assumption | apply EvKeeps.refl | apply Keeps.ite | apply State.put_keeps | apply State.pulse_keeps | apply EvKeeps.ite | apply Keeps.lit)

theorem State.clearSafeIn_keeps {κ : Nat} {ζ s : State} (hk : Keeps κ ζ s) (n : Nat) :
    Keeps κ ζ (State.clearSafeIn s n) := by
  unfold State.clearSafeIn
  try dsimp only
  repeat' with_reducible (first | assumption | apply EvKeeps.refl | apply State.putBit_keeps | apply State.setSafeIn_keeps | apply Keeps.lit)

theorem State.resetBoundary_keeps {κ : Nat} {ζ s : State} (hk : Keeps κ ζ s) :
    Keeps κ ζ (State.resetBoundary s) := by
  unfold State.resetBoundary
  try dsimp only
  repeat' with_reducible (first | assumption | apply EvKeeps.refl | apply Keeps.ite | apply State.clearSafeIn_keeps | apply State.safeFollow_keeps | apply State.released_keeps | apply State.put_keeps | apply State.clearAct_keeps | apply EvKeeps.ite | refine Keeps.foldl (fun _ _ _ => ?_) ?_ | apply Keeps.lit)

theorem State.lcRequest_keeps {κ : Nat} {ζ s : State} (hk : Keeps κ ζ s) (path target : Nat) :
    KeepsP κ ζ (State.lcRequest s path target) := by
  unfold State.lcRequest
  repeat' with_reducible (first | assumption | apply EvKeeps.refl | apply Keeps.ite | apply KeepsP.ite | apply EvKeeps.ite | apply KeepsP.mk | apply Keeps.lit)

theorem State.keyopGo_keeps {κ : Nat} {ζ s : State} (hk : Keeps κ ζ s) (path op slot : Nat) :
    KeepsP κ ζ (State.keyopGo s path op slot) := by
  unfold State.keyopGo
  try dsimp only
  repeat' with_reducible (first | assumption | apply EvKeeps.refl | apply Keeps.ite | apply KeepsP.ite | apply State.put_keeps | apply EvKeeps.ite | apply KeepsP.mk | apply Keeps.lit)

theorem State.keyopDo_keeps {ζ s : State} (hk : Keeps 0 ζ s) (op slot : Nat) :
    Keeps 0 ζ (State.keyopDo s op slot) := by
  unfold State.keyopDo
  try dsimp only
  repeat' with_reducible (first | assumption | apply EvKeeps.refl | apply Keeps.ite | apply EvKeeps.ite | apply Keeps.lit0)

theorem State.clearKeybuf_keeps {κ : Nat} {ζ s : State} (hk : Keeps κ ζ s) :
    Keeps κ ζ (State.clearKeybuf s) := by
  unfold State.clearKeybuf
  try dsimp only
  repeat' with_reducible (first | assumption | apply State.wr_keeps | refine Keeps.foldl (fun _ _ _ => ?_) ?_)

theorem State.keyopEnd_keeps {ζ s : State} (hk : Keeps 0 ζ s) :
    Keeps 0 ζ (State.keyopEnd s) := by
  unfold State.keyopEnd
  try dsimp only
  repeat' with_reducible (first | assumption | apply EvKeeps.refl | apply Keeps.ite | apply KeepsP.ite | apply State.keyopDo_keeps | apply State.clearKeybuf_keeps | apply State.put_keeps | apply State.putB_keeps | apply EvKeeps.ite | refine Keeps.of_fst ?_ (by assumption) | apply KeepsP.fst | split | apply KeepsP.mk | apply Keeps.lit0)

theorem State.attestGo_keeps {κ : Nat} {ζ s : State} (hk : Keeps κ ζ s) :
    Keeps κ ζ (State.attestGo s) := by
  unfold State.attestGo
  repeat' with_reducible (first | assumption | apply Keeps.ite | apply State.put_keeps)

theorem State.attestDone_keeps {κ : Nat} {ζ s : State} (hk : Keeps κ ζ s) :
    Keeps κ ζ (State.attestDone s) := by
  unfold State.attestDone
  try dsimp only
  repeat' with_reducible (first | assumption | apply Keeps.ite | apply KeepsP.ite | apply State.wr_keeps | apply State.put_keeps | refine Keeps.foldl (fun _ _ _ => ?_) ?_ | refine Keeps.foldlP (fun _ _ _ => ?_) ?_ | apply KeepsP.fst | apply KeepsP.mk)

theorem State.nvmGo_keeps {κ : Nat} {ζ s : State} (hk : Keeps κ ζ s) (cmd a : Nat) :
    KeepsP κ ζ (State.nvmGo s cmd a) := by
  unfold State.nvmGo
  try dsimp only
  repeat' with_reducible (first | assumption | apply EvKeeps.refl | apply Keeps.ite | apply KeepsP.ite | apply State.put_keeps | apply EvKeeps.ite | apply KeepsP.mk | apply Keeps.lit)

theorem State.nvmEnd_keeps {ζ s : State} (hk : Keeps 0 ζ s) (ok : Bool) :
    Keeps 0 ζ (State.nvmEnd s ok) := by
  unfold State.nvmEnd
  try dsimp only
  repeat' with_reducible (first | assumption | apply EvKeeps.refl | apply Keeps.ite | apply KeepsP.ite | apply State.flashPut_keeps | apply State.wr_keeps | apply State.put_keeps | apply State.putB_keeps | apply EvKeeps.ite | refine Keeps.foldl (fun _ _ _ => ?_) ?_ | refine Keeps.foldlP (fun _ _ _ => ?_) ?_ | refine Keeps.of_fst ?_ (by assumption) | apply KeepsP.fst | split | apply KeepsP.mk | apply Keeps.lit0)

theorem State.resetGo_keeps {ζ s : State} (hk : Keeps 1 ζ s) :
    Keeps 1 ζ (State.resetGo s) := by
  unfold State.resetGo
  repeat' with_reducible (first | assumption | apply Keeps.ite | apply State.writeSummary_keeps | apply State.hardReset_keeps)

theorem State.lcChange_keeps {ζ s : State} (hk : Keeps 0 ζ s) : Keeps 0 ζ (State.lcChange s) := by
  unfold State.lcChange
  split
  · dsimp only
    have h1 : Keeps 0 ζ (if s.get F.SEC_STATE_HSTATE = 2 then s.writeSummary 6 else s) :=
      Keeps.ite (State.writeSummary_keeps hk 6) hk
    refine Keeps.trans ?_ (Keeps.mono (Nat.zero_le 1) (State.hardReset_keeps (Keeps.refl 1 _) 6))
    exact State.wipeFlag_keeps (State.lcSteps_keeps (State.wipeFlag_keeps h1 _) _) _
  · exact hk

end Sys2Proof.Machine
end

