-- ==== Sys2Proof/Laws/KeepsBusCheck.lean ====
section
/-! SUPPORT. What each operation of Machine/BusCheck.lean keeps. -/

namespace Sys2Proof.Machine

theorem State.withStaged_keeps {κ : Nat} {ζ s : State} (hk : Keeps κ ζ s) :
    Keeps κ ζ (State.withStaged s) := by
  unfold State.withStaged
  try dsimp only
  repeat' with_reducible (first | assumption | apply State.loadRw_keeps | refine Keeps.foldl (fun _ _ _ => ?_) ?_ | refine Keeps.foldlP (fun _ _ _ => ?_) ?_ | apply KeepsP.fst | apply KeepsP.mk)

theorem State.view_keeps {κ : Nat} {ζ s : State} (hk : Keeps κ ζ s) (path a : Nat) (v : Word) :
    Keeps κ ζ (State.view s path a v) := by
  unfold State.view
  repeat' with_reducible (first | assumption | apply Keeps.ite | apply State.withStaged_keeps | apply State.loadRw_keeps)

end Sys2Proof.Machine
end

