-- ==== Sys2Proof/Laws/KeepsBusApply.lean ====
section
/-! SUPPORT. What each operation of Machine/BusApply.lean keeps. -/

namespace Sys2Proof.Machine

theorem State.putBits_keeps {κ : Nat} {ζ s : State} (hk : Keeps κ ζ s) (a : Nat) (v mask : Word) :
    Keeps κ ζ (State.putBits s a v mask) := by
  unfold State.putBits
  repeat' with_reducible (first | assumption | apply State.load_keeps)

theorem State.armGroups_keeps {κ : Nat} {ζ s : State} (hk : Keeps κ ζ s) :
    Keeps κ ζ (State.armGroups s) := by
  unfold State.armGroups
  try dsimp only
  repeat' with_reducible (first | assumption | apply EvKeeps.refl | apply State.setGroup_keeps | refine Keeps.foldl (fun _ _ _ => ?_) ?_ | apply Keeps.lit)

theorem State.windowApply_keeps {κ : Nat} {ζ s : State} (hk : Keeps κ ζ s) (w : Nat) (was : Bool) :
    Keeps κ ζ (State.windowApply s w was) := by
  unfold State.windowApply
  try dsimp only
  repeat' with_reducible (first | assumption | apply Keeps.ite | apply KeepsW.ite | apply State.evalWindow_keeps | apply State.closeWindow_keeps | apply State.presetWindow_keeps | apply State.put_keeps | apply Win.put_keeps | apply KeepsW.s | apply KeepsW.mk)

theorem State.bucketApply_keeps {κ : Nat} {ζ s : State} (hk : Keeps κ ζ s) (ev : Nat) :
    Keeps κ ζ (State.bucketApply s ev) := by
  unfold State.bucketApply
  repeat' with_reducible (first | assumption | apply EvKeeps.refl | apply Evt.setBucket_keeps | apply Keeps.lit)

theorem State.discardPass_keeps {κ : Nat} {ζ s : State} (hk : Keeps κ ζ s) :
    Keeps κ ζ (State.discardPass s) := by
  unfold State.discardPass
  try dsimp only
  repeat' with_reducible (first | assumption | apply EvKeeps.refl | apply Keeps.ite | apply State.errInc_keeps | apply EvKeeps.ite | apply Keeps.lit)

theorem State.duplexLeft_keeps {κ : Nat} {ζ s : State} (hk : Keeps κ ζ s) :
    Keeps κ ζ (State.duplexLeft s) := by
  unfold State.duplexLeft
  try dsimp only
  repeat' with_reducible (first | assumption | apply Keeps.ite | apply State.laneOff_keeps | apply State.put_keeps | apply State.putBit_keeps | apply State.setRole_keeps | refine Keeps.foldl (fun _ _ _ => ?_) ?_)

theorem State.followUp_keeps {κ : Nat} {ζ t : State} (hk : Keeps κ ζ t) (s : State) (r : Row) (i : Nat) (v : Word) :
    Keeps κ ζ (State.followUp s t r i v) := by
  unfold State.followUp
  try dsimp only
  repeat' with_reducible (first | assumption | apply EvKeeps.refl | apply Keeps.ite | apply KeepsW.ite | apply State.setChan_keeps | apply State.cellCmdNow_keeps | apply State.duplexLeft_keeps | apply State.groupStartNow_keeps | apply State.groupStopNow_keeps | apply State.pumpStartNow_keeps | apply State.pumpStopNow_keeps | apply State.chopApply_keeps | apply State.armGroups_keeps | apply State.refreshAll_keeps | apply State.mapEnable_keeps | apply State.setCell_keeps | apply State.safeFollow_keeps | apply State.connApply_keeps | apply State.discardPass_keeps | apply State.setAonCfg_keeps | apply State.windowApply_keeps | apply State.evalWindow_keeps | apply State.holdVbLim_keeps | apply State.showDom_keeps | apply State.linksDown_keeps | apply State.released_keeps | apply EvKeeps.ite | apply KeepsW.s | apply KeepsW.mk | apply Keeps.lit)

theorem State.applyBits_keeps {κ : Nat} {ζ s : State} (hk : Keeps κ ζ s) (a : Nat) (v mask : Word) :
    Keeps κ ζ (State.applyBits s a v mask) := by
  unfold State.applyBits
  try dsimp only
  repeat' with_reducible (first | assumption | apply Keeps.ite | apply KeepsP.ite | apply State.bucketApply_keeps | apply State.followUp_keeps | apply State.putBits_keeps | refine Keeps.of_fst ?_ (by assumption) | apply KeepsP.fst | split | apply KeepsP.mk)

theorem State.forward_keeps {κ : Nat} {ζ s : State} (hk : Keeps κ ζ s) (e : RegEntry) :
    Keeps κ ζ (State.forward s e) := by
  unfold State.forward
  repeat' with_reducible (first | assumption | apply EvKeeps.refl | apply Keeps.ite | apply EvKeeps.ite | apply Keeps.lit)

theorem State.pushBuf_keeps {κ : Nat} {ζ s : State} (hk : Keeps κ ζ s) (w : BufWrite) :
    Keeps κ ζ (State.pushBuf s w) := by
  unfold State.pushBuf
  try dsimp only
  repeat' with_reducible (first | assumption | apply EvKeeps.refl | apply Keeps.ite | apply State.stage_keeps | apply EvKeeps.ite | apply Keeps.lit)

theorem State.pushStage_keeps {κ : Nat} {ζ s : State} (hk : Keeps κ ζ s) (w : BufWrite) :
    Keeps κ ζ (State.pushStage s w) := by
  unfold State.pushStage
  try dsimp only
  repeat' with_reducible (first | assumption | apply EvKeeps.refl | apply State.stage_keeps | apply Keeps.lit)

theorem State.offerBuf_keeps {κ : Nat} {ζ s : State} (hk : Keeps κ ζ s) (w : BufWrite) :
    Keeps κ ζ (State.offerBuf s w) := by
  unfold State.offerBuf
  try dsimp only
  repeat' with_reducible (first | assumption | apply EvKeeps.refl | apply Keeps.ite | apply State.pushBuf_keeps | apply State.forward_keeps | apply EvKeeps.ite | apply Keeps.lit)

theorem State.takeHeld_keeps {κ : Nat} {ζ s : State} (hk : Keeps κ ζ s) :
    Keeps κ ζ (State.takeHeld s) := by
  unfold State.takeHeld
  repeat' with_reducible (first | assumption | apply EvKeeps.refl | apply State.offerBuf_keeps | refine Keeps.foldl (fun _ _ _ => ?_) ?_ | apply Keeps.lit)

theorem State.drain_keeps {κ : Nat} {ζ s : State} (hk : Keeps κ ζ s) (p : ApplyTarget) :
    Keeps κ ζ (State.drain s p) := by
  unfold State.drain
  try dsimp only
  repeat' with_reducible (first | assumption | apply EvKeeps.refl | apply Keeps.ite | apply State.stage_keeps | apply State.applyBits_keeps | apply State.takeHeld_keeps | apply EvKeeps.ite | refine Keeps.foldl (fun _ _ _ => ?_) ?_ | apply Keeps.lit)

theorem State.setTxn_keeps {κ : Nat} {ζ s : State} (hk : Keeps κ ζ s) (x : Txn) :
    Keeps κ ζ (State.setTxn s x) := by
  unfold State.setTxn
  repeat' with_reducible (first | assumption | apply EvKeeps.refl | apply Keeps.lit)

theorem State.txBegin_keeps {κ : Nat} {ζ s : State} (hk : Keeps κ ζ s) (path : Nat) :
    KeepsP κ ζ (State.txBegin s path) := by
  unfold State.txBegin
  try dsimp only
  repeat' with_reducible (first | assumption | apply EvKeeps.refl | apply Keeps.ite | apply KeepsP.ite | apply State.put_keeps | apply State.setTxn_keeps | apply EvKeeps.ite | apply KeepsP.mk | apply Keeps.lit)

theorem State.txStage_keeps {κ : Nat} {ζ s : State} (hk : Keeps κ ζ s) (path a : Nat) (v : Word) :
    KeepsP κ ζ (State.txStage s path a v) := by
  unfold State.txStage
  try dsimp only
  repeat' with_reducible (first | assumption | apply EvKeeps.refl | apply Keeps.ite | apply KeepsP.ite | apply State.put_keeps | apply State.setTxn_keeps | apply State.forward_keeps | apply EvKeeps.ite | apply KeepsP.mk | apply Keeps.lit)

theorem State.nameAct_keeps {κ : Nat} {ζ s : State} (hk : Keeps κ ζ s) (k path : Nat) :
    Keeps κ ζ (State.nameAct s k path) := by
  unfold State.nameAct
  try dsimp only
  repeat' with_reducible (first | assumption | apply EvKeeps.refl | apply State.put_keeps | apply State.setTxn_keeps | apply State.forward_keeps | apply Keeps.lit)

theorem State.txCommit_keeps {κ : Nat} {ζ s : State} (hk : Keeps κ ζ s) (path : Nat) (upd : Bool) :
    KeepsP κ ζ (State.txCommit s path upd) := by
  unfold State.txCommit
  try dsimp only
  repeat' with_reducible (first | assumption | apply EvKeeps.refl | apply Keeps.ite | apply KeepsP.ite | apply State.forward_keeps | apply State.txAbort_keeps | apply State.setTxn_keeps | apply State.put_keeps | apply State.nameAct_keeps | apply State.stage_keeps | apply EvKeeps.ite | refine Keeps.foldl (fun _ _ _ => ?_) ?_ | refine Keeps.foldlP (fun _ _ _ => ?_) ?_ | refine Keeps.of_fst ?_ (by assumption) | apply KeepsP.fst | split | apply KeepsP.mk | apply Keeps.lit)

theorem State.txRollback_keeps {κ : Nat} {ζ s : State} (hk : Keeps κ ζ s) (path : Nat) :
    KeepsP κ ζ (State.txRollback s path) := by
  unfold State.txRollback
  try dsimp only
  repeat' with_reducible (first | assumption | apply Keeps.ite | apply KeepsP.ite | apply State.forward_keeps | apply State.txAbort_keeps | apply KeepsP.mk)

theorem State.txIdleEnd_keeps {κ : Nat} {ζ s : State} (hk : Keeps κ ζ s) :
    Keeps κ ζ (State.txIdleEnd s) := by
  unfold State.txIdleEnd
  try dsimp only
  repeat' with_reducible (first | assumption | apply Keeps.ite | apply State.forward_keeps | apply State.txAbort_keeps | apply State.pulse_keeps)

theorem State.txNoAck_keeps {κ : Nat} {ζ s : State} (hk : Keeps κ ζ s) (c : Nat) :
    Keeps κ ζ (State.txNoAck s c) := by
  unfold State.txNoAck
  try dsimp only
  repeat' with_reducible (first | assumption | apply State.forward_keeps | apply State.put_keeps | apply State.txAbort_keeps | apply State.pulse_keeps)

theorem State.txAckTimeout_keeps {κ : Nat} {ζ s : State} (hk : Keeps κ ζ s) :
    Keeps κ ζ (State.txAckTimeout s) := by
  unfold State.txAckTimeout
  repeat' with_reducible (first | assumption | apply Keeps.ite | apply KeepsP.ite | apply State.txNoAck_keeps | refine Keeps.of_fst ?_ (by assumption) | apply KeepsP.fst | split | apply KeepsP.mk)

theorem State.txOpenCheck_keeps {κ : Nat} {ζ s : State} (hk : Keeps κ ζ s) :
    Keeps κ ζ (State.txOpenCheck s) := by
  unfold State.txOpenCheck
  repeat' with_reducible (first | assumption | apply Keeps.ite | apply KeepsP.ite | apply State.txNoAck_keeps | apply State.nameAct_keeps | refine Keeps.of_fst ?_ (by assumption) | apply KeepsP.fst | split | apply KeepsP.mk)

theorem State.txLaunched_keeps {κ : Nat} {ζ s : State} (hk : Keeps κ ζ s) :
    Keeps κ ζ (State.txLaunched s) := by
  unfold State.txLaunched
  repeat' with_reducible (first | assumption | apply EvKeeps.refl | apply Keeps.ite | apply State.setTxn_keeps | apply EvKeeps.ite | apply Keeps.lit)

theorem State.applyStaged_keeps {κ : Nat} {ζ s : State} (hk : Keeps κ ζ s) (rl : List Nat) (x : Nat × Word) :
    Keeps κ ζ (State.applyStaged rl s x) := by
  unfold State.applyStaged
  try dsimp only
  repeat' with_reducible (first | assumption | apply Keeps.ite | apply KeepsP.ite | apply State.applyBits_keeps | apply State.pushStage_keeps | refine Keeps.of_fst ?_ (by assumption) | apply KeepsP.fst | split | apply KeepsP.mk)

theorem State.restageCell_keeps {κ : Nat} {ζ s : State} (hk : Keeps κ ζ s) (c : Nat) :
    Keeps κ ζ (State.restageCell s c) := by
  unfold State.restageCell
  try dsimp only
  repeat' with_reducible (first | assumption | apply EvKeeps.refl | apply Keeps.ite | apply State.setCell_keeps | apply State.enterBlocked_keeps | apply EvKeeps.ite | apply Keeps.lit)

theorem State.txActivate_keeps {κ : Nat} {ζ s : State} (hk : Keeps κ ζ s) (rl : List Nat) :
    Keeps κ ζ (State.txActivate s rl) := by
  unfold State.txActivate
  try dsimp only
  repeat' with_reducible (first | assumption | apply EvKeeps.refl | apply Keeps.ite | apply State.setCell_keeps | apply State.applyStaged_keeps | apply State.discardPass_keeps | apply State.restageCell_keeps | apply State.setTxn_keeps | apply State.put_keeps | apply EvKeeps.ite | refine Keeps.foldl (fun _ _ _ => ?_) ?_ | apply Keeps.lit)

theorem State.txBoundary_keeps {κ : Nat} {ζ s : State} (hk : Keeps κ ζ s) (rl : List Nat) :
    Keeps κ ζ (State.txBoundary s rl) := by
  unfold State.txBoundary
  repeat' with_reducible (first | assumption | apply EvKeeps.refl | apply Keeps.ite | apply KeepsP.ite | apply State.txActivate_keeps | apply State.setTxn_keeps | apply EvKeeps.ite | refine Keeps.of_fst ?_ (by assumption) | apply KeepsP.fst | split | apply KeepsP.mk | apply Keeps.lit)

theorem State.passStart_keeps {κ : Nat} {ζ s : State} (hk : Keeps κ ζ s) :
    Keeps κ ζ (State.passStart s) := by
  unfold State.passStart
  try dsimp only
  repeat' with_reducible (first | assumption | apply EvKeeps.refl | apply Keeps.ite | apply State.putB_keeps | apply EvKeeps.ite | apply Keeps.lit)

theorem State.passEnd_keeps {κ : Nat} {ζ s : State} (hk : Keeps κ ζ s) :
    Keeps κ ζ (State.passEnd s) := by
  unfold State.passEnd
  try dsimp only
  repeat' with_reducible (first | assumption | apply EvKeeps.refl | apply Keeps.ite | apply State.put_keeps | apply State.wrapInc_keeps | apply State.pulse_keeps | apply EvKeeps.ite | apply Keeps.lit)

end Sys2Proof.Machine
end

