-- ==== Sys2Proof/Laws/KeepsBusOps.lean ====
section
/-! SUPPORT. What each operation of Machine/BusOps.lean keeps. -/

namespace Sys2Proof.Machine

theorem Evt.clearCount_keeps {ζ e : Evt} (hk : EvKeeps ζ e) (ev : Nat) :
    EvKeeps ζ (Evt.clearCount e ev) := by
  unfold Evt.clearCount
  try dsimp only
  repeat' with_reducible (first | assumption | apply EvKeeps.ite | apply Evt.put_keeps | apply Evt.count_keeps | apply EvKeeps.lit)

theorem State.clearAllCounts_keeps {κ : Nat} {ζ s : State} (hk : Keeps κ ζ s) :
    Keeps κ ζ (State.clearAllCounts s) := by
  unfold State.clearAllCounts
  repeat' with_reducible (first | assumption | apply EvKeeps.refl | apply Evt.clearCount_keeps | refine Keeps.foldl (fun _ _ _ => ?_) ?_ | refine EvKeeps.foldl (fun _ _ _ => ?_) ?_ | apply Keeps.lit)

theorem State.clearOneCount_keeps {κ : Nat} {ζ s : State} (hk : Keeps κ ζ s) (ev : Nat) :
    Keeps κ ζ (State.clearOneCount s ev) := by
  unfold State.clearOneCount
  repeat' with_reducible (first | assumption | apply EvKeeps.refl | apply Evt.clearCount_keeps | apply Keeps.lit)

theorem State.plainWrite_keeps {κ : Nat} {ζ s : State} (hk : Keeps κ ζ s) (a : Nat) (v : Word) (r : Row) :
    Keeps κ ζ (State.plainWrite s a v r) := by
  unfold State.plainWrite
  try dsimp only
  repeat' with_reducible (first | assumption | apply Keeps.ite | apply State.load_keeps)

theorem State.pendWrite_keeps {κ : Nat} {ζ s : State} (hk : Keeps κ ζ s) (b : Nat) (v : Word) :
    Keeps κ ζ (State.pendWrite s b v) := by
  unfold State.pendWrite
  try dsimp only
  repeat' with_reducible (first | assumption | apply EvKeeps.refl | apply State.wr_keeps | apply Evt.wr_keeps | refine Keeps.foldl (fun _ _ _ => ?_) ?_ | refine EvKeeps.foldl (fun _ _ _ => ?_) ?_ | apply Keeps.lit)

theorem State.tripstatWrite_keeps {κ : Nat} {ζ s : State} (hk : Keeps κ ζ s) (v : Word) :
    Keeps κ ζ (State.tripstatWrite s v) := by
  unfold State.tripstatWrite
  try dsimp only
  repeat' with_reducible (first | assumption | apply Keeps.ite | refine State.eachBit_keeps ?_ _ _ (fun _ _ _ => ?_) | apply State.clearTrip_keeps | apply State.putBit_keeps | refine Keeps.foldl (fun _ _ _ => ?_) ?_)

theorem State.pwmstatWrite_keeps {κ : Nat} {ζ s : State} (hk : Keeps κ ζ s) (n : Nat) (v : Word) :
    Keeps κ ζ (State.pwmstatWrite s n v) := by
  unfold State.pwmstatWrite
  try dsimp only
  repeat' with_reducible (first | assumption | apply Keeps.ite | apply State.clearShoot_keeps | apply State.put_keeps)

theorem State.cmpstatWrite_keeps {κ : Nat} {ζ s : State} (hk : Keeps κ ζ s) (w : Nat) (u l : Bool) :
    Keeps κ ζ (State.cmpstatWrite s w u l) := by
  unfold State.cmpstatWrite
  try dsimp only
  repeat' with_reducible (first | assumption | apply Keeps.ite | apply State.put_keeps)

theorem State.aonstatWrite_keeps {κ : Nat} {ζ s : State} (hk : Keeps κ ζ s) (v : Word) :
    Keeps κ ζ (State.aonstatWrite s v) := by
  unfold State.aonstatWrite
  repeat' with_reducible (first | assumption | apply EvKeeps.refl | apply Keeps.lit)

theorem State.ceClr_keeps {κ : Nat} {ζ s : State} (hk : Keeps κ ζ s) (v : Word) :
    Keeps κ ζ (State.ceClr s v) := by
  unfold State.ceClr
  try dsimp only
  repeat' with_reducible (first | assumption | apply Keeps.ite | apply State.wr_keeps | apply State.put_keeps | refine Keeps.foldl (fun _ _ _ => ?_) ?_)

theorem State.dmlCtrl_keeps {κ : Nat} {ζ s : State} (hk : Keeps κ ζ s) (l : Nat) (en restart : Bool) :
    KeepsP κ ζ (State.dmlCtrl s l en restart) := by
  unfold State.dmlCtrl
  try dsimp only
  repeat' with_reducible (first | assumption | apply Keeps.ite | apply KeepsP.ite | apply State.laneEnable_keeps | apply State.laneRestart_keeps | apply KeepsP.mk)

theorem State.haloCtrl_keeps {κ : Nat} {ζ s : State} (hk : Keeps κ ζ s) (l : Nat) (go stop : Bool) (dwell : Nat) :
    KeepsP κ ζ (State.haloCtrl s l go stop dwell) := by
  unfold State.haloCtrl
  try dsimp only
  repeat' with_reducible (first | assumption | apply Keeps.ite | apply KeepsP.ite | apply State.put_keeps | apply State.haloAbort_keeps | apply State.haloGo_keeps | apply KeepsP.mk)

theorem State.redCtrl_keeps {κ : Nat} {ζ s : State} (hk : Keeps κ ζ s) (resync swap : Bool) :
    KeepsP κ ζ (State.redCtrl s resync swap) := by
  unfold State.redCtrl
  try dsimp only
  repeat' with_reducible (first | assumption | apply EvKeeps.refl | apply Keeps.ite | apply KeepsP.ite | apply State.toSync_keeps | apply EvKeeps.ite | apply KeepsP.mk | apply Keeps.lit)

theorem State.safCtrl_keeps {κ : Nat} {ζ s : State} (hk : Keeps κ ζ s) (path : Nat) (v : Word) :
    Keeps κ ζ (State.safCtrl s path v) := by
  unfold State.safCtrl
  try dsimp only
  repeat' with_reducible (first | assumption | apply Keeps.ite | apply State.setWhiteout_keeps | apply State.safReset_keeps | apply State.forward_keeps)

theorem State.ptpCtl_keeps {κ : Nat} {ζ s : State} (hk : Keeps κ ζ s) (v : Word) :
    KeepsP κ ζ (State.ptpCtl s v) := by
  unfold State.ptpCtl
  try dsimp only
  repeat' with_reducible (first | assumption | apply Keeps.ite | apply KeepsP.ite | apply State.ptpSelect_keeps | apply State.armStepGo_keeps | refine Keeps.of_fst ?_ (by assumption) | apply KeepsP.fst | split | apply KeepsP.mk)

theorem State.toutCtl_keeps {κ : Nat} {ζ s : State} (hk : Keeps κ ζ s) (n : Nat) (v : Word) :
    KeepsP κ ζ (State.toutCtl s n v) := by
  unfold State.toutCtl
  try dsimp only
  repeat' with_reducible (first | assumption | apply Keeps.ite | apply KeepsP.ite | apply State.toutStop_keeps | apply State.toutArm_keeps | refine Keeps.of_fst ?_ (by assumption) | apply KeepsP.fst | split | apply KeepsP.mk)

theorem State.testCtl_keeps {κ : Nat} {ζ s : State} (hk : Keeps κ ζ s) (v : Word) :
    KeepsP κ ζ (State.testCtl s v) := by
  unfold State.testCtl
  try dsimp only
  repeat' with_reducible (first | assumption | apply Keeps.ite | apply KeepsP.ite | apply State.testStop_keeps | apply State.testGo_keeps | apply State.testConn_keeps | apply KeepsP.mk)

theorem State.recCtl_keeps {κ : Nat} {ζ s : State} (hk : Keeps κ ζ s) (k : Nat) (v : Word) :
    KeepsP κ ζ (State.recCtl s k v) := by
  unfold State.recCtl
  try dsimp only
  repeat' with_reducible (first | assumption | apply Keeps.ite | apply KeepsP.ite | apply State.recStop_keeps | apply State.recArm_keeps | apply State.recForce_keeps | refine Keeps.of_fst ?_ (by assumption) | apply KeepsP.fst | split | apply KeepsP.mk)

theorem State.mapCtl_keeps {κ : Nat} {ζ s : State} (hk : Keeps κ ζ s) (v : Word) :
    KeepsP κ ζ (State.mapCtl s v) := by
  unfold State.mapCtl
  try dsimp only
  repeat' with_reducible (first | assumption | apply Keeps.ite | apply KeepsP.ite | apply State.mapSnap_keeps | apply State.mapClr_keeps | refine Keeps.of_fst ?_ (by assumption) | apply KeepsP.fst | split | apply KeepsP.mk)

theorem State.txCommand_keeps {κ : Nat} {ζ s : State} (hk : Keeps κ ζ s) (path : Nat) (v : Word) :
    KeepsP κ ζ (State.txCommand s path v) := by
  unfold State.txCommand
  try dsimp only
  repeat' with_reducible (first | assumption | apply Keeps.ite | apply KeepsP.ite | apply State.txBegin_keeps | apply State.txCommit_keeps | apply State.txRollback_keeps | apply KeepsP.mk)

theorem State.secWrite_keeps {ζ s : State} (hk : Keeps 1 ζ s) (path a : Nat) (v : Word) (r : Row) :
    KeepsP 1 ζ (State.secWrite s path a v r) := by
  unfold State.secWrite
  try dsimp only
  repeat' with_reducible (first | assumption | apply EvKeeps.refl | apply Keeps.ite | apply KeepsP.ite | apply State.resetGo_keeps | apply State.hardReset_keeps | apply State.lcRequest_keeps | apply State.keyopGo_keeps | apply State.wr_keeps | apply State.attestGo_keeps | apply State.put_keeps | apply State.nvmGo_keeps | apply State.plainWrite_keeps | apply EvKeeps.ite | refine Keeps.of_fst ?_ (by assumption) | apply KeepsP.fst | split | apply KeepsP.mk | apply Keeps.lit1)

theorem State.immediate_keeps {ζ s : State} (hk : Keeps 1 ζ s) (path a : Nat) (v : Word) (r : Row) (i : Nat) :
    KeepsP 1 ζ (State.immediate s path a v r i) := by
  unfold State.immediate
  try dsimp only
  repeat' with_reducible (first | assumption | apply EvKeeps.refl | apply Keeps.ite | apply KeepsP.ite | apply State.txCommand_keeps | apply State.freeze_keeps | apply State.clearAllCounts_keeps | apply State.clearOneCount_keeps | apply State.pendWrite_keeps | apply State.alarmClear_keeps | apply State.testCtl_keeps | apply State.cmpstatWrite_keeps | apply State.aonstatWrite_keeps | apply State.ceClr_keeps | apply State.traceStop_keeps | apply State.traceArm_keeps | apply State.forceGo_keeps | apply State.forceRelease_keeps | apply State.forward_keeps | apply State.plainWrite_keeps | apply State.tripstatWrite_keeps | apply State.pwmstatWrite_keeps | refine State.eachBit_keeps ?_ _ _ (fun _ _ _ => ?_) | apply State.clearFault_keeps | apply State.wr_keeps | apply State.retryClearOne_keeps | apply State.dmlCtrl_keeps | apply State.haloCtrl_keeps | apply State.redCtrl_keeps | apply State.safCtrl_keeps | apply State.ptpCtl_keeps | apply State.toutCtl_keeps | apply State.calStart_keeps | apply State.dirControl_keeps | apply State.wmapWrite_keeps | apply State.recCtl_keeps | apply State.mapCtl_keeps | apply State.secWrite_keeps | apply EvKeeps.ite | apply KeepsP.mk | apply Keeps.lit1 | apply EvKeeps.lit)

theorem State.refuse_keeps {κ : Nat} {ζ s : State} (hk : Keeps κ ζ s) (path a : Nat) (c : Code) :
    KeepsP κ ζ (State.refuse s path a c) := by
  unfold State.refuse
  repeat' with_reducible (first | assumption | apply State.pulse_keeps | refine Keeps.of_fst ?_ (by assumption) | apply KeepsP.fst | split | apply KeepsP.mk)

theorem State.refreeze_keeps {κ : Nat} {ζ s : State} (hk : Keeps κ ζ s) (path : Nat) :
    Keeps κ ζ (State.refreeze s path) := by
  unfold State.refreeze
  repeat' with_reducible (first | assumption | apply EvKeeps.refl | apply Keeps.lit)

theorem State.thawWrite_keeps {κ : Nat} {ζ s : State} (hk : Keeps κ ζ s) (path : Nat) (v : Word) :
    KeepsP κ ζ (State.thawWrite s path v) := by
  unfold State.thawWrite
  repeat' with_reducible (first | assumption | apply EvKeeps.refl | apply Keeps.ite | apply KeepsP.ite | apply State.refreeze_keeps | apply State.refuse_keeps | apply EvKeeps.ite | apply KeepsP.mk | apply Keeps.lit)

theorem State.acceptLate_keeps {κ : Nat} {ζ s : State} (hk : Keeps κ ζ s) (path a : Nat) (v : Word) (r : Row) :
    KeepsP κ ζ (State.acceptLate s path a v r) := by
  unfold State.acceptLate
  try dsimp only
  repeat' with_reducible (first | assumption | apply Keeps.ite | apply KeepsP.ite | apply State.txStage_keeps | apply State.offerBuf_keeps | apply KeepsP.mk)

theorem State.takeWrite_keeps {ζ s : State} (hk : Keeps 1 ζ s) (path a : Nat) (v : Word) (r : Row) (i j : Nat) :
    KeepsP 1 ζ (State.takeWrite s path a v r i j) := by
  unfold State.takeWrite
  try dsimp only
  repeat' with_reducible (first | assumption | apply Keeps.ite | apply KeepsP.ite | apply State.pulse_keeps | apply State.refuse_keeps | apply State.acceptLate_keeps | apply State.immediate_keeps | refine Keeps.of_fst ?_ (by assumption) | apply KeepsP.fst | split | apply KeepsP.mk)

theorem State.guardWrite_keeps {ζ s : State} (hk : Keeps 1 ζ s) (path a : Nat) (v : Word) (r : Row) (i j : Nat) :
    KeepsP 1 ζ (State.guardWrite s path a v r i j) := by
  unfold State.guardWrite
  try dsimp only
  repeat' with_reducible (first | assumption | apply EvKeeps.refl | apply Keeps.ite | apply KeepsP.ite | apply State.takeWrite_keeps | apply State.refreeze_keeps | apply State.refuse_keeps | apply EvKeeps.ite | refine Keeps.of_fst ?_ (by assumption) | apply KeepsP.fst | split | apply KeepsP.mk | apply Keeps.lit1)

theorem State.complWrite_keeps {ζ s : State} (hk : Keeps 1 ζ s) (path a : Nat) (v : Word) (x : Row × Nat × Nat) :
    KeepsP 1 ζ (State.complWrite s path a v x) := by
  unfold State.complWrite
  try dsimp only
  repeat' with_reducible (first | assumption | apply EvKeeps.refl | apply Keeps.ite | apply KeepsP.ite | apply State.takeWrite_keeps | apply State.refuse_keeps | apply EvKeeps.ite | refine Keeps.of_fst ?_ (by assumption) | apply KeepsP.fst | split | apply KeepsP.mk | apply Keeps.lit1)

theorem State.checkWrite_keeps {ζ s : State} (hk : Keeps 1 ζ s) (path a : Nat) (v : Word) :
    KeepsP 1 ζ (State.checkWrite s path a v) := by
  unfold State.checkWrite
  repeat' with_reducible (first | assumption | apply Keeps.ite | apply KeepsP.ite | apply State.complWrite_keeps | apply State.thawWrite_keeps | apply State.guardWrite_keeps | refine Keeps.of_fst ?_ (by assumption) | apply KeepsP.fst | split | apply KeepsP.mk)

theorem State.noteCode_keeps {κ : Nat} {ζ s : State} (hk : Keeps κ ζ s) (path : Nat) (c : Code) :
    Keeps κ ζ (State.noteCode s path c) := by
  unfold State.noteCode
  repeat' with_reducible (first | assumption | apply State.wr_keeps)

theorem State.noteRefused_keeps {κ : Nat} {ζ s : State} (hk : Keeps κ ζ s) (a : Nat) (c : Code) :
    Keeps κ ζ (State.noteRefused s a c) := by
  unfold State.noteRefused
  repeat' with_reducible (first | assumption | apply Keeps.ite | apply State.put_keeps)

theorem State.busWrite_keeps {ζ s : State} (hk : Keeps 1 ζ s) (path a : Nat) (v : Word) :
    KeepsP 1 ζ (State.busWrite s path a v) := by
  unfold State.busWrite
  try dsimp only
  repeat' with_reducible (first | assumption | apply EvKeeps.refl | apply Keeps.ite | apply KeepsP.ite | apply State.refuse_keeps | apply State.checkWrite_keeps | apply State.noteRefused_keeps | apply State.noteCode_keeps | apply EvKeeps.ite | refine Keeps.of_fst ?_ (by assumption) | apply KeepsP.fst | split | apply KeepsP.mk | apply Keeps.lit1)

theorem State.pathWrite_keeps {ζ s : State} (hk : Keeps 1 ζ s) (path a : Nat) (v : Word) :
    Keeps 1 ζ (State.pathWrite s path a v) := by
  unfold State.pathWrite
  repeat' with_reducible (first | assumption | apply EvKeeps.refl | apply Keeps.ite | apply KeepsP.ite | apply State.busWrite_keeps | apply EvKeeps.ite | apply KeepsP.fst | apply Keeps.lit1)

theorem State.takeWaiting_keeps {ζ s : State} (hk : Keeps 1 ζ s) :
    Keeps 1 ζ (State.takeWaiting s) := by
  unfold State.takeWaiting
  try dsimp only
  repeat' with_reducible (first | assumption | apply EvKeeps.refl | apply State.pathWrite_keeps | refine Keeps.foldl (fun _ _ _ => ?_) ?_ | refine Keeps.foldlP (fun _ _ _ => ?_) ?_ | apply KeepsP.fst | apply KeepsP.mk | apply Keeps.lit1)

theorem State.readLatch_keeps {κ : Nat} {ζ s : State} (hk : Keeps κ ζ s) (path a : Nat) :
    Keeps κ ζ (State.readLatch s path a) := by
  unfold State.readLatch
  try dsimp only
  repeat' with_reducible (first | assumption | apply EvKeeps.refl | apply Keeps.ite | apply EvKeeps.ite | apply Keeps.lit)

theorem State.busRead_keeps {κ : Nat} {ζ s : State} (hk : Keeps κ ζ s) (path a : Nat) :
    KeepsP κ ζ (State.busRead s path a) := by
  unfold State.busRead
  try dsimp only
  repeat' with_reducible (first | assumption | apply EvKeeps.refl | apply Keeps.ite | apply KeepsP.ite | apply State.readLatch_keeps | apply State.noteCode_keeps | apply EvKeeps.ite | refine Keeps.of_fst ?_ (by assumption) | apply KeepsP.fst | split | apply KeepsP.mk | apply Keeps.lit)

theorem State.pathRead_keeps {κ : Nat} {ζ s : State} (hk : Keeps κ ζ s) (path a : Nat) :
    Keeps κ ζ (State.pathRead s path a) := by
  unfold State.pathRead
  repeat' with_reducible (first | assumption | apply Keeps.ite | apply KeepsP.ite | apply State.busRead_keeps | apply KeepsP.fst)

end Sys2Proof.Machine
end

