-- ==== Sys2Proof/Laws/KeepsBootCmds.lean ====
section
/-! SUPPORT. What each operation of Machine/BootCmds.lean keeps. -/

namespace Sys2Proof.Machine

/-- A command answers a next state, and keeps what its operations keep. -/
def KeepsR (n : Nat) (a : State) (o : Host.Outcome State Fault Refusal) : Prop := ∃ t, o = .next t ∧ Keeps n a t

theorem KeepsR.done {n : Nat} {a s : State} (h : Keeps n a s) : KeepsR n a s.done := ⟨_, rfl, State.settle_keeps h⟩

theorem State.resetWith_keeps {ζ s : State} (hk : Keeps 1 ζ s) (cause : Nat) (headsel : Bool) :
    Keeps 1 ζ (State.resetWith s cause headsel) := by
  unfold State.resetWith
  repeat' with_reducible (first | assumption | apply EvKeeps.refl | apply State.hardReset_keeps | apply Keeps.lit1)

theorem execPowerOn_keeps (s : State) (headsel : Bool) : KeepsR 1 s (execPowerOn headsel s) := by
  unfold execPowerOn
  apply KeepsR.done
  repeat' with_reducible (first | apply Keeps.refl | apply State.resetWith_keeps)

theorem execResetNLow_keeps (s : State) (headsel : Bool) : KeepsR 1 s (execResetNLow headsel s) := by
  unfold execResetNLow
  apply KeepsR.done
  repeat' with_reducible (first | apply Keeps.refl | apply State.resetWith_keeps)

theorem execSecResetGo_keeps (s : State) (path : Path) (val : Word) : KeepsR 1 s (execSecResetGo path val s) := by
  unfold execSecResetGo
  apply KeepsR.done
  repeat' with_reducible (first | apply Keeps.refl | apply State.pathWrite_keeps)

theorem execBootWatchdogExpiry_keeps (s : State) : KeepsR 1 s (execBootWatchdogExpiry s) := by
  unfold execBootWatchdogExpiry
  apply KeepsR.done
  repeat' with_reducible (first | apply Keeps.refl | apply Keeps.ite | apply State.hardReset_keeps)

theorem execTamperDetect_keeps (s : State) (causes : BitVec 3) : KeepsR 1 s (execTamperDetect causes s) := by
  unfold execTamperDetect
  apply KeepsR.done
  repeat' with_reducible (first | apply Keeps.refl | apply EvKeeps.refl | apply Keeps.ite | apply State.hardReset_keeps | apply Keeps.lit1)

theorem State.corePowerLost_keeps {ζ s : State} (hk : Keeps 1 ζ s) :
    Keeps 1 ζ (State.corePowerLost s) := by
  unfold State.corePowerLost
  try dsimp only
  repeat' with_reducible (first | assumption | apply EvKeeps.refl | apply State.resignOutputs_keeps | refine Keeps.foldl (fun _ _ _ => ?_) ?_ | apply Keeps.lit1)

theorem execCorePowerGoodLoss_keeps (s : State) : KeepsR 1 s (execCorePowerGoodLoss s) := by
  unfold execCorePowerGoodLoss
  apply KeepsR.done
  repeat' with_reducible (first | apply Keeps.refl | apply State.corePowerLost_keeps)

theorem State.retirePages_keeps {ζ s : State} (hk : Keeps 1 ζ s) (failed : List Nat) :
    Keeps 1 ζ (State.retirePages s failed) := by
  unfold State.retirePages
  try dsimp only
  repeat' with_reducible (first | assumption | apply EvKeeps.refl | apply Keeps.ite | apply State.setPage_keeps | apply State.pulse_keeps | apply State.put_keeps | apply State.dropImage_keeps | apply State.noImage_keeps | apply EvKeeps.ite | refine Keeps.foldl (fun _ _ _ => ?_) ?_ | apply Keeps.lit1)

theorem State.wipeDone_keeps {ζ s : State} (hk : Keeps 1 ζ s) (failed : List Nat) (k : WipeKind) :
    Keeps 1 ζ (s.wipeDone failed k) := by
  cases k <;> unfold State.wipeDone
  · exact Keeps.lit hk (EvKeeps.refl _)
  · exact State.retirePages_keeps (State.put_keeps (Keeps.lit hk (EvKeeps.refl _)) _ _ _ _) _
  · exact State.retirePages_keeps (Keeps.lit hk (EvKeeps.refl _)) _

theorem execWipeComplete_keeps (s : State) (kind : WipeKind) (failed : List Nat) : KeepsR 1 s (execWipeComplete kind failed s) := by
  unfold execWipeComplete
  apply KeepsR.done
  repeat' with_reducible (first | apply Keeps.refl | apply Keeps.ite | apply State.wipeDone_keeps)

theorem execPllLockExpiry_keeps {κ : Nat} (s : State) (pll : PllId) : KeepsR κ s (execPllLockExpiry pll s) := by
  unfold execPllLockExpiry
  apply KeepsR.done
  repeat' with_reducible (first | apply Keeps.refl | apply State.pllLocked_keeps)

theorem execSlotVerify_keeps (s : State) : KeepsR 0 s (execSlotVerify s) := by
  unfold execSlotVerify
  apply KeepsR.done
  repeat' with_reducible (first | apply Keeps.refl | apply State.slotVerify_keeps)

theorem execImageReadComplete_keeps {κ : Nat} (s : State) (ok : Bool) : KeepsR κ s (execImageReadComplete ok s) := by
  unfold execImageReadComplete
  apply KeepsR.done
  repeat' with_reducible (first | apply Keeps.refl | apply State.readDone_keeps)

theorem execImageCheckPass_keeps (s : State) : KeepsR 1 s (execImageCheckPass s) := by
  unfold execImageCheckPass
  apply KeepsR.done
  repeat' with_reducible (first | apply Keeps.refl | apply State.checkPass_keeps)

theorem execFirstBoundary_keeps (s : State) : KeepsR 1 s (execFirstBoundary s) := by
  unfold execFirstBoundary
  apply KeepsR.done
  repeat' with_reducible (first | apply Keeps.refl | apply State.firstBoundary_keeps)

theorem execQuadPowerUp_keeps {κ : Nat} (s : State) (quad : Fin 7) : KeepsR κ s (execQuadPowerUp quad s) := by
  unfold execQuadPowerUp
  apply KeepsR.done
  repeat' with_reducible (first | apply Keeps.refl | apply Keeps.ite | apply State.quadUp_keeps)

theorem State.pairWrite_keeps {ζ s : State} (hk : Keeps 1 ζ s) (path a : Nat) (v c : Word) :
    Keeps 1 ζ (State.pairWrite s path a v c) := by
  unfold State.pairWrite
  repeat' with_reducible (first | assumption | apply State.pathWrite_keeps)

theorem execLcRequest_keeps (s : State) (path : Path) (val compl : Word) : KeepsR 1 s (execLcRequest path val compl s) := by
  unfold execLcRequest
  apply KeepsR.done
  repeat' with_reducible (first | apply Keeps.refl | apply State.pairWrite_keeps)

theorem execLcChangeReset_keeps (s : State) : KeepsR 0 s (execLcChangeReset s) := by
  unfold execLcChangeReset
  apply KeepsR.done
  repeat' with_reducible (first | apply Keeps.refl | apply State.lcChange_keeps)

theorem State.keyopWrite_keeps {ζ s : State} (hk : Keeps 1 ζ s) (path op slot : Nat) :
    Keeps 1 ζ (State.keyopWrite s path op slot) := by
  unfold State.keyopWrite
  try dsimp only
  repeat' with_reducible (first | assumption | apply State.pairWrite_keeps)

theorem execKeyopProvisionOwner_keeps (s : State) (path : Path) (slot : BitVec 2) : KeepsR 1 s (execKeyopProvisionOwner path slot s) := by
  unfold execKeyopProvisionOwner
  apply KeepsR.done
  repeat' with_reducible (first | apply Keeps.refl | apply State.keyopWrite_keeps)

theorem execKeyopProvisionImage_keeps (s : State) (path : Path) (slot : BitVec 2) : KeepsR 1 s (execKeyopProvisionImage path slot s) := by
  unfold execKeyopProvisionImage
  apply KeepsR.done
  repeat' with_reducible (first | apply Keeps.refl | apply State.keyopWrite_keeps)

theorem execKeyopProvisionNetwork_keeps (s : State) (path : Path) (slot : BitVec 2) : KeepsR 1 s (execKeyopProvisionNetwork path slot s) := by
  unfold execKeyopProvisionNetwork
  apply KeepsR.done
  repeat' with_reducible (first | apply Keeps.refl | apply State.keyopWrite_keeps)

theorem execKeyopRevokeOwner_keeps (s : State) (path : Path) (slot : BitVec 2) : KeepsR 1 s (execKeyopRevokeOwner path slot s) := by
  unfold execKeyopRevokeOwner
  apply KeepsR.done
  repeat' with_reducible (first | apply Keeps.refl | apply State.keyopWrite_keeps)

theorem execKeyopRevokeImage_keeps (s : State) (path : Path) (slot : BitVec 2) : KeepsR 1 s (execKeyopRevokeImage path slot s) := by
  unfold execKeyopRevokeImage
  apply KeepsR.done
  repeat' with_reducible (first | apply Keeps.refl | apply State.keyopWrite_keeps)

theorem execKeyopRaiseSvn_keeps (s : State) (path : Path) : KeepsR 1 s (execKeyopRaiseSvn path s) := by
  unfold execKeyopRaiseSvn
  apply KeepsR.done
  repeat' with_reducible (first | apply Keeps.refl | apply State.keyopWrite_keeps)

theorem execKeyopClearKeybuf_keeps (s : State) (path : Path) : KeepsR 1 s (execKeyopClearKeybuf path s) := by
  unfold execKeyopClearKeybuf
  apply KeepsR.done
  repeat' with_reducible (first | apply Keeps.refl | apply State.keyopWrite_keeps)

theorem execKeyopComplete_keeps (s : State) : KeepsR 0 s (execKeyopComplete s) := by
  unfold execKeyopComplete
  apply KeepsR.done
  repeat' with_reducible (first | apply Keeps.refl | apply State.keyopEnd_keeps)

theorem execAttestGo_keeps (s : State) (path : Path) : KeepsR 1 s (execAttestGo path s) := by
  unfold execAttestGo
  apply KeepsR.done
  repeat' with_reducible (first | apply Keeps.refl | apply State.pathWrite_keeps)

theorem execAttestDone_keeps {κ : Nat} (s : State) : KeepsR κ s (execAttestDone s) := by
  unfold execAttestDone
  apply KeepsR.done
  repeat' with_reducible (first | apply Keeps.refl | apply State.attestDone_keeps)

theorem State.nvmWrite_keeps {ζ s : State} (hk : Keeps 1 ζ s) (path cmd : Nat) (addr : BitVec 26) :
    Keeps 1 ζ (State.nvmWrite s path cmd addr) := by
  unfold State.nvmWrite
  repeat' with_reducible (first | assumption | apply State.pathWrite_keeps)

theorem execNvmErase_keeps (s : State) (path : Path) (addr : BitVec 26) : KeepsR 1 s (execNvmErase path addr s) := by
  unfold execNvmErase
  apply KeepsR.done
  repeat' with_reducible (first | apply Keeps.refl | apply State.nvmWrite_keeps)

theorem execNvmProgram_keeps (s : State) (path : Path) (addr : BitVec 26) : KeepsR 1 s (execNvmProgram path addr s) := by
  unfold execNvmProgram
  apply KeepsR.done
  repeat' with_reducible (first | apply Keeps.refl | apply State.nvmWrite_keeps)

theorem execNvmRead_keeps (s : State) (path : Path) (addr : BitVec 26) : KeepsR 1 s (execNvmRead path addr s) := by
  unfold execNvmRead
  apply KeepsR.done
  repeat' with_reducible (first | apply Keeps.refl | apply State.nvmWrite_keeps)

theorem execNvmOperationDone_keeps (s : State) (ok : Bool) : KeepsR 0 s (execNvmOperationDone ok s) := by
  unfold execNvmOperationDone
  apply KeepsR.done
  repeat' with_reducible (first | apply Keeps.refl | apply State.nvmEnd_keeps)

theorem execSecReleaseGo_keeps (s : State) (path : Path) (val : Word) : KeepsR 1 s (execSecReleaseGo path val s) := by
  unfold execSecReleaseGo
  apply KeepsR.done
  repeat' with_reducible (first | apply Keeps.refl | apply State.pathWrite_keeps)

theorem execResignHoldTimeout_keeps (s : State) : KeepsR 1 s (execResignHoldTimeout s) := by
  unfold execResignHoldTimeout
  apply KeepsR.done
  repeat' with_reducible (first | apply Keeps.refl | apply Keeps.ite | apply State.hardReset_keeps)

end Sys2Proof.Machine
end

