-- ==== Sys2Proof/Laws/KeepsEventCmds.lean ====
section
/-! SUPPORT. What each operation of Machine/EventCmds.lean keeps. -/

namespace Sys2Proof.Machine

theorem State.countWriteback_keeps {κ : Nat} {ζ s : State} (hk : Keeps κ ζ s) :
    Keeps κ ζ (State.countWriteback s) := by
  unfold State.countWriteback
  try dsimp only
  repeat' with_reducible (first | assumption | apply EvKeeps.refl | apply State.mramPut_keeps | refine Keeps.foldl (fun _ _ _ => ?_) ?_ | apply Keeps.lit | apply EvKeeps.lit)

theorem execCountWriteback_keeps {κ : Nat} (s : State) : KeepsR κ s (execCountWriteback s) := by
  unfold execCountWriteback
  apply KeepsR.done
  repeat' with_reducible (first | apply Keeps.refl | apply State.countWriteback_keeps)

theorem State.logWrite_keeps {κ : Nat} {ζ s : State} (hk : Keeps κ ζ s) :
    Keeps κ ζ (State.logWrite s) := by
  unfold State.logWrite
  try dsimp only
  repeat' with_reducible (first | assumption | apply EvKeeps.refl | apply State.mramPut_keeps | apply State.put_keeps | apply Evt.put_keeps | refine Keeps.of_fst ?_ (by assumption) | refine EvKeeps.of_fst ?_ (by assumption) | apply KeepsP.fst | apply EvKeepsP.fst | split | apply KeepsP.mk | apply Keeps.lit | apply EvKeeps.lit)

theorem execLogEntryWrite_keeps {κ : Nat} (s : State) : KeepsR κ s (execLogEntryWrite s) := by
  unfold execLogEntryWrite
  apply KeepsR.done
  repeat' with_reducible (first | apply Keeps.refl | apply State.logWrite_keeps)

theorem Evt.summaryOne_keeps {ζ e : Evt} (hk : EvKeeps ζ e) (st : Stamp) (ev : Nat) :
    EvKeeps ζ (Evt.summaryOne e st ev) := by
  unfold Evt.summaryOne
  try dsimp only
  repeat' with_reducible (first | assumption | apply EvKeeps.ite | apply EvKeepsP.ite | apply Evt.setBucket_keeps | apply Evt.pushLog_keeps | apply Evt.logDrop_keeps | refine EvKeeps.of_fst ?_ (by assumption) | apply EvKeepsP.fst | split | apply EvKeepsP.mk | apply EvKeeps.lit)

theorem State.squallTick_keeps {κ : Nat} {ζ s : State} (hk : Keeps κ ζ s) :
    Keeps κ ζ (State.squallTick s) := by
  unfold State.squallTick
  try dsimp only
  repeat' with_reducible (first | assumption | apply EvKeeps.refl | apply Evt.summaryOne_keeps | refine Keeps.foldl (fun _ _ _ => ?_) ?_ | refine Keeps.foldlP (fun _ _ _ => ?_) ?_ | refine EvKeeps.foldl (fun _ _ _ => ?_) ?_ | apply KeepsP.fst | apply EvKeepsP.fst | apply KeepsP.mk | apply Keeps.lit)

theorem execSquallSummaryTick_keeps {κ : Nat} (s : State) : KeepsR κ s (execSquallSummaryTick s) := by
  unfold execSquallSummaryTick
  apply KeepsR.done
  repeat' with_reducible (first | apply Keeps.refl | apply State.squallTick_keeps)

theorem State.holdExpiry_keeps {κ : Nat} {ζ s : State} (hk : Keeps κ ζ s) :
    Keeps κ ζ (State.holdExpiry s) := by
  unfold State.holdExpiry
  try dsimp only
  repeat' with_reducible (first | assumption | apply EvKeeps.refl | refine Keeps.of_fst ?_ (by assumption) | apply KeepsP.fst | split | apply KeepsP.mk | apply Keeps.lit | apply EvKeeps.lit)

theorem execDerateHoldExpiry_keeps {κ : Nat} (s : State) : KeepsR κ s (execDerateHoldExpiry s) := by
  unfold execDerateHoldExpiry
  apply KeepsR.done
  repeat' with_reducible (first | apply Keeps.refl | apply State.holdExpiry_keeps)

theorem execEvtCntclrAll_keeps (s : State) (path : Path) : KeepsR 1 s (execEvtCntclrAll path s) := by
  unfold execEvtCntclrAll
  apply KeepsR.done
  repeat' with_reducible (first | apply Keeps.refl | apply State.pathWrite_keeps)

theorem execEvtCntclrSrc_keeps (s : State) (path : Path) (src : BitVec 10) : KeepsR 1 s (execEvtCntclrSrc path src s) := by
  unfold execEvtCntclrSrc
  apply KeepsR.done
  repeat' with_reducible (first | apply Keeps.refl | apply State.pathWrite_keeps)

end Sys2Proof.Machine
end

