-- ==== Sys2Proof/Laws/KeepsRegCmds.lean ====
section
/-! SUPPORT. What each operation of Machine/RegCmds.lean keeps. -/

namespace Sys2Proof.Machine

theorem State.badCrossing_keeps {ζ s : State} (hk : Keeps 1 ζ s) (path a : Nat) (v : Word) :
    Keeps 1 ζ (State.badCrossing s path a v) := by
  unfold State.badCrossing
  try dsimp only
  repeat' with_reducible (first | assumption | apply EvKeeps.refl | apply Keeps.ite | apply KeepsP.ite | apply State.busWrite_keeps | apply State.stage_keeps | apply State.pulse_keeps | apply EvKeeps.ite | refine Keeps.of_fst ?_ (by assumption) | apply KeepsP.fst | split | apply KeepsP.mk | apply Keeps.lit1)

theorem execRegisterWrite_keeps (s : State) (path : Path) (addr val : Word) (parity : Bool) : KeepsR 1 s (execRegisterWrite path addr val parity s) := by
  unfold execRegisterWrite
  apply KeepsR.done
  repeat' with_reducible (first | apply Keeps.refl | apply Keeps.ite | apply State.badCrossing_keeps | apply State.pathWrite_keeps)

theorem State.applyPoint_keeps {κ : Nat} {ζ s : State} (hk : Keeps κ ζ s) (p : ApplyTarget) :
    Keeps κ ζ (State.applyPoint s p) := by
  unfold State.applyPoint
  try dsimp only
  repeat' with_reducible (first | assumption | apply Keeps.ite | apply State.drain_keeps | apply State.armGroups_keeps)

theorem execBufferedWriteApply_keeps {κ : Nat} (s : State) (point : ApplyTarget) : KeepsR κ s (execBufferedWriteApply point s) := by
  unfold execBufferedWriteApply
  apply KeepsR.done
  repeat' with_reducible (first | apply Keeps.refl | apply State.applyPoint_keeps)

theorem execSysThaw_keeps (s : State) (path : Path) (val : Word) : KeepsR 1 s (execSysThaw path val s) := by
  unfold execSysThaw
  apply KeepsR.done
  repeat' with_reducible (first | apply Keeps.refl | apply State.pathWrite_keeps)

theorem execThawTimeout_keeps {κ : Nat} (s : State) (path : Path) : KeepsR κ s (execThawTimeout path s) := by
  unfold execThawTimeout
  apply KeepsR.done
  repeat' with_reducible (first | apply Keeps.refl | apply State.refreeze_keeps)

theorem execG2FirstWrite_keeps (s : State) (path : Path) (addr val : Word) : KeepsR 1 s (execG2FirstWrite path addr val s) := by
  unfold execG2FirstWrite
  apply KeepsR.done
  repeat' with_reducible (first | apply Keeps.refl | apply State.pathWrite_keeps)

theorem execG2ComplementWrite_keeps (s : State) (path : Path) (addr val : Word) : KeepsR 1 s (execG2ComplementWrite path addr val s) := by
  unfold execG2ComplementWrite
  apply KeepsR.done
  repeat' with_reducible (first | apply Keeps.refl | apply State.pathWrite_keeps)

theorem State.g2Drop_keeps {κ : Nat} {ζ s : State} (hk : Keeps κ ζ s) :
    Keeps κ ζ (State.g2Drop s) := by
  unfold State.g2Drop
  repeat' with_reducible (first | assumption | apply EvKeeps.refl | apply State.pulse_keeps | refine Keeps.of_fst ?_ (by assumption) | apply KeepsP.fst | split | apply KeepsP.mk | apply Keeps.lit)

theorem execG2Timeout_keeps {κ : Nat} (s : State) : KeepsR κ s (execG2Timeout s) := by
  unfold execG2Timeout
  apply KeepsR.done
  repeat' with_reducible (first | apply Keeps.refl | apply State.g2Drop_keeps)

theorem execTxnBegin_keeps (s : State) (path : Path) : KeepsR 1 s (execTxnBegin path s) := by
  unfold execTxnBegin
  apply KeepsR.done
  repeat' with_reducible (first | apply Keeps.refl | apply State.pathWrite_keeps)

theorem execTxnCommit_keeps (s : State) (path : Path) (updateRef : Bool) : KeepsR 1 s (execTxnCommit path updateRef s) := by
  unfold execTxnCommit
  apply KeepsR.done
  repeat' with_reducible (first | apply Keeps.refl | apply Keeps.ite | apply State.pathWrite_keeps)

theorem execTxnRollback_keeps (s : State) (path : Path) : KeepsR 1 s (execTxnRollback path s) := by
  unfold execTxnRollback
  apply KeepsR.done
  repeat' with_reducible (first | apply Keeps.refl | apply State.pathWrite_keeps)

theorem execTxnIdleTimeout_keeps {κ : Nat} (s : State) : KeepsR κ s (execTxnIdleTimeout s) := by
  unfold execTxnIdleTimeout
  apply KeepsR.done
  repeat' with_reducible (first | apply Keeps.refl | apply State.txIdleEnd_keeps)

theorem execTxnAckTimeout_keeps {κ : Nat} (s : State) : KeepsR κ s (execTxnAckTimeout s) := by
  unfold execTxnAckTimeout
  apply KeepsR.done
  repeat' with_reducible (first | apply Keeps.refl | apply State.txAckTimeout_keeps)

theorem execHspiReset_keeps {κ : Nat} (s : State) : KeepsR κ s (execHspiReset s) := by
  unfold execHspiReset
  apply KeepsR.done
  repeat' with_reducible (first | apply Keeps.refl | apply Keeps.ite | apply State.txIdleEnd_keeps)

theorem execCfgCrcPassStart_keeps {κ : Nat} (s : State) : KeepsR κ s (execCfgCrcPassStart s) := by
  unfold execCfgCrcPassStart
  apply KeepsR.done
  repeat' with_reducible (first | apply Keeps.refl | apply State.passStart_keeps)

theorem execCfgCrcPassEnd_keeps {κ : Nat} (s : State) : KeepsR κ s (execCfgCrcPassEnd s) := by
  unfold execCfgCrcPassEnd
  apply KeepsR.done
  repeat' with_reducible (first | apply Keeps.refl | apply State.passEnd_keeps)

theorem execSysFreezeGo_keeps (s : State) (path : Path) : KeepsR 1 s (execSysFreezeGo path s) := by
  unfold execSysFreezeGo
  apply KeepsR.done
  repeat' with_reducible (first | apply Keeps.refl | apply State.pathWrite_keeps)

theorem execPeriodloRead_keeps {κ : Nat} (s : State) (path : Path) : KeepsR κ s (execPeriodloRead path s) := by
  unfold execPeriodloRead
  apply KeepsR.done
  repeat' with_reducible (first | apply Keeps.refl | apply State.pathRead_keeps)

theorem execNetTimeloRead_keeps {κ : Nat} (s : State) (path : Path) : KeepsR κ s (execNetTimeloRead path s) := by
  unfold execNetTimeloRead
  apply KeepsR.done
  repeat' with_reducible (first | apply Keeps.refl | apply State.pathRead_keeps)

theorem execClkRtcloRead_keeps {κ : Nat} (s : State) (path : Path) : KeepsR κ s (execClkRtcloRead path s) := by
  unfold execClkRtcloRead
  apply KeepsR.done
  repeat' with_reducible (first | apply Keeps.refl | apply State.pathRead_keeps)

end Sys2Proof.Machine
end

