-- ==== Sys2Proof/Laws/KeepsLaneCmds.lean ====
section
/-! SUPPORT. What each operation of Machine/LaneCmds.lean keeps. -/

namespace Sys2Proof.Machine

theorem execDmlEnWrite_keeps (s : State) (path : Path) (lane : LaneId) (en : Bool) : KeepsR 1 s (execDmlEnWrite path lane en s) := by
  unfold execDmlEnWrite
  apply KeepsR.done
  repeat' with_reducible (first | apply Keeps.refl | apply State.pathWrite_keeps)

theorem execDmlRestart_keeps (s : State) (path : Path) (lane : LaneId) (en : Bool) : KeepsR 1 s (execDmlRestart path lane en s) := by
  unfold execDmlRestart
  apply KeepsR.done
  repeat' with_reducible (first | apply Keeps.refl | apply State.pathWrite_keeps)

theorem execLaneWaitExpiry_keeps {κ : Nat} (s : State) (lane : LaneId) : KeepsR κ s (execLaneWaitExpiry lane s) := by
  unfold execLaneWaitExpiry
  apply KeepsR.done
  repeat' with_reducible (first | apply Keeps.refl | apply Keeps.ite | apply State.enterLink_keeps)

theorem execLaneLinktoExpiry_keeps {κ : Nat} (s : State) (lane : LaneId) : KeepsR κ s (execLaneLinktoExpiry lane s) := by
  unfold execLaneLinktoExpiry
  apply KeepsR.done
  repeat' with_reducible (first | apply Keeps.refl | apply Keeps.ite | apply State.enterLost_keeps)

theorem execLaneRetryWaitExpiry_keeps {κ : Nat} (s : State) (lane : LaneId) : KeepsR κ s (execLaneRetryWaitExpiry lane s) := by
  unfold execLaneRetryWaitExpiry
  apply KeepsR.done
  repeat' with_reducible (first | apply Keeps.refl | apply State.laneRetry_keeps)

theorem execRetryClearExpiry_keeps {κ : Nat} (s : State) (lane : LaneId) : KeepsR κ s (execRetryClearExpiry lane s) := by
  unfold execRetryClearExpiry
  apply KeepsR.done
  repeat' with_reducible (first | apply Keeps.refl | apply Keeps.ite | apply State.put_keeps | apply Win.put_keeps)

theorem execBlockLockAcquired_keeps {κ : Nat} (s : State) (lane : LaneId) (errors : Nat) : KeepsR κ s (execBlockLockAcquired lane errors s) := by
  unfold execBlockLockAcquired
  apply KeepsR.done
  repeat' with_reducible (first | apply Keeps.refl | apply Keeps.ite | apply State.codeErrors_keeps | apply State.lockGot_keeps)

theorem execBlockLockLost_keeps {κ : Nat} (s : State) (lane : LaneId) (errors : Nat) : KeepsR κ s (execBlockLockLost lane errors s) := by
  unfold execBlockLockLost
  apply KeepsR.done
  repeat' with_reducible (first | apply Keeps.refl | apply Keeps.ite | apply State.codeErrors_keeps | apply State.lockGone_keeps)

theorem execOwnIdleReturn_keeps {κ : Nat} (s : State) (lane : LaneId) (origin : BitVec 2) (num : BitVec 5) (gen : Bool) : KeepsR κ s (execOwnIdleReturn lane origin num gen s) := by
  unfold execOwnIdleReturn
  apply KeepsR.done
  repeat' with_reducible (first | apply Keeps.refl | apply State.idleBack_keeps)

theorem State.parityRecs_keeps {κ : Nat} {ζ s : State} (hk : Keeps κ ζ s) (f : GatherRx) :
    Keeps κ ζ (State.parityRecs s f) := by
  unfold State.parityRecs
  try dsimp only
  repeat' with_reducible (first | assumption | apply State.xingBad_keeps | refine Keeps.foldl (fun _ _ _ => ?_) ?_)

theorem State.gatherIn_keeps {κ : Nat} {ζ s : State} (hk : Keeps κ ζ s) (l : Nat) (f : GatherRx) :
    Keeps κ ζ (State.gatherIn s l f) := by
  unfold State.gatherIn
  try dsimp only
  repeat' with_reducible (first | assumption | apply EvKeeps.refl | apply Keeps.ite | apply State.put_keeps | apply State.codeErrors_keeps | apply State.parityRecs_keeps | apply State.setLane_keeps | apply EvKeeps.ite | apply Keeps.lit)

theorem execGatherFrameReceive_keeps {κ : Nat} (s : State) (lane : LaneId) (frame : GatherRx) : KeepsR κ s (execGatherFrameReceive lane frame s) := by
  unfold execGatherFrameReceive
  apply KeepsR.done
  repeat' with_reducible (first | apply Keeps.refl | apply State.gatherIn_keeps)

theorem State.haloWrite_keeps {ζ s : State} (hk : Keeps 1 ζ s) (path l top : Nat) (dwell : BitVec 6) :
    Keeps 1 ζ (State.haloWrite s path l top dwell) := by
  unfold State.haloWrite
  repeat' with_reducible (first | assumption | apply State.pathWrite_keeps)

theorem execHaloGo_keeps (s : State) (path : Path) (lane : LaneId) (dwell : BitVec 6) : KeepsR 1 s (execHaloGo path lane dwell s) := by
  unfold execHaloGo
  apply KeepsR.done
  repeat' with_reducible (first | apply Keeps.refl | apply State.haloWrite_keeps)

theorem execHaloStop_keeps (s : State) (path : Path) (lane : LaneId) (dwell : BitVec 6) : KeepsR 1 s (execHaloStop path lane dwell s) := by
  unfold execHaloStop
  apply KeepsR.done
  repeat' with_reducible (first | apply Keeps.refl | apply State.haloWrite_keeps)

theorem execHaloComplete_keeps {κ : Nat} (s : State) (lane : LaneId) (errors : List Nat) : KeepsR κ s (execHaloComplete lane errors s) := by
  unfold execHaloComplete
  apply KeepsR.done
  repeat' with_reducible (first | apply Keeps.refl | apply State.haloDone_keeps)

end Sys2Proof.Machine
end

