-- ==== Sys2Proof/Laws/KeepsCellCmds.lean ====
section
/-! SUPPORT. What each operation of Machine/CellCmds.lean keeps. -/

namespace Sys2Proof.Machine

theorem State.cellCtrl_keeps {ζ s : State} (hk : Keeps 1 ζ s) (path c cmd : Nat) :
    Keeps 1 ζ (State.cellCtrl s path c cmd) := by
  unfold State.cellCtrl
  repeat' with_reducible (first | assumption | apply State.pathWrite_keeps)

theorem execCellStart_keeps (s : State) (path : Path) (cell : CellId) : KeepsR 1 s (execCellStart path cell s) := by
  unfold execCellStart
  apply KeepsR.done
  repeat' with_reducible (first | apply Keeps.refl | apply State.cellCtrl_keeps)

theorem execCellStop_keeps (s : State) (path : Path) (cell : CellId) : KeepsR 1 s (execCellStop path cell s) := by
  unfold execCellStop
  apply KeepsR.done
  repeat' with_reducible (first | apply Keeps.refl | apply State.cellCtrl_keeps)

theorem execCellBypass_keeps (s : State) (path : Path) (cell : CellId) : KeepsR 1 s (execCellBypass path cell s) := by
  unfold execCellBypass
  apply KeepsR.done
  repeat' with_reducible (first | apply Keeps.refl | apply State.cellCtrl_keeps)

theorem execCellRelease_keeps (s : State) (path : Path) (cell : CellId) : KeepsR 1 s (execCellRelease path cell s) := by
  unfold execCellRelease
  apply KeepsR.done
  repeat' with_reducible (first | apply Keeps.refl | apply State.cellCtrl_keeps)

theorem execGroupStart_keeps (s : State) (path : Path) : KeepsR 1 s (execGroupStart path s) := by
  unfold execGroupStart
  apply KeepsR.done
  repeat' with_reducible (first | apply Keeps.refl | apply State.pathWrite_keeps)

theorem execGroupStop_keeps (s : State) (path : Path) : KeepsR 1 s (execGroupStop path s) := by
  unfold execGroupStop
  apply KeepsR.done
  repeat' with_reducible (first | apply Keeps.refl | apply State.pathWrite_keeps)

theorem State.prechargeFail_keeps {κ : Nat} {ζ s : State} (hk : Keeps κ ζ s) (c : Nat) :
    Keeps κ ζ (State.prechargeFail s c) := by
  unfold State.prechargeFail
  repeat' with_reducible (first | assumption | apply Keeps.ite | apply State.leaveTo_keeps | apply State.pulse_keeps)

theorem execPrechargeTimeout_keeps {κ : Nat} (s : State) (cell : CellId) : KeepsR κ s (execPrechargeTimeout cell s) := by
  unfold execPrechargeTimeout
  apply KeepsR.done
  repeat' with_reducible (first | apply Keeps.refl | apply State.prechargeFail_keeps)

theorem execStagingResendTimeout_keeps {κ : Nat} (s : State) (cell : CellId) : KeepsR κ s (execStagingResendTimeout cell s) := by
  unfold execStagingResendTimeout
  apply KeepsR.done
  repeat' with_reducible (first | apply Keeps.refl | apply State.stageTimeout_keeps)

end Sys2Proof.Machine
end

