-- ==== Sys2Proof/Laws/KeepsCeCmds.lean ====
section
/-! SUPPORT. What each operation of Machine/CeCmds.lean keeps. -/

namespace Sys2Proof.Machine

theorem execCeClrSatlast_keeps (s : State) (path : Path) : KeepsR 1 s (execCeClrSatlast path s) := by
  unfold execCeClrSatlast
  apply KeepsR.done
  repeat' with_reducible (first | apply Keeps.refl | apply State.pathWrite_keeps)

theorem execCeClrMaxfin_keeps (s : State) (path : Path) : KeepsR 1 s (execCeClrMaxfin path s) := by
  unfold execCeClrMaxfin
  apply KeepsR.done
  repeat' with_reducible (first | apply Keeps.refl | apply State.pathWrite_keeps)

theorem execTraceArm_keeps (s : State) (path : Path) (mask : BitVec 16) : KeepsR 1 s (execTraceArm path mask s) := by
  unfold execTraceArm
  apply KeepsR.done
  repeat' with_reducible (first | apply Keeps.refl | apply State.pathWrite_keeps)

theorem execTraceStop_keeps (s : State) (path : Path) (mask : BitVec 16) : KeepsR 1 s (execTraceStop path mask s) := by
  unfold execTraceStop
  apply KeepsR.done
  repeat' with_reducible (first | apply Keeps.refl | apply State.pathWrite_keeps)

theorem execTraceSwTrigger_keeps (s : State) (path : Path) (val : Word) : KeepsR 1 s (execTraceSwTrigger path val s) := by
  unfold execTraceSwTrigger
  apply KeepsR.done
  repeat' with_reducible (first | apply Keeps.refl | apply State.pathWrite_keeps)

theorem execTraceHalfSpill_keeps {κ : Nat} (s : State) (chan : Fin 16) (accepted : Bool) : KeepsR κ s (execTraceHalfSpill chan accepted s) := by
  unfold execTraceHalfSpill
  apply KeepsR.done
  repeat' with_reducible (first | apply Keeps.refl | apply State.halfSpill_keeps)

end Sys2Proof.Machine
end

