-- ==== Sys2Proof/Laws/KeepsLvCmds.lean ====
section
/-! SUPPORT. What each operation of Machine/LvCmds.lean keeps. -/

namespace Sys2Proof.Machine

theorem State.notNow_keeps {κ : Nat} {ζ s : State} (hk : Keeps κ ζ s) (was : List BufWrite) (a : Nat) :
    Keeps κ ζ (State.notNow s was a) := by
  unfold State.notNow
  try dsimp only
  repeat' with_reducible (first | assumption | apply EvKeeps.refl | apply Keeps.ite | apply EvKeeps.ite | apply Keeps.lit)

theorem State.hostCmp_keeps {ζ s : State} (hk : Keeps 1 ζ s) (path n : Nat) (v : Word) (late : Bool) :
    Keeps 1 ζ (State.hostCmp s path n v late) := by
  unfold State.hostCmp
  try dsimp only
  repeat' with_reducible (first | assumption | apply Keeps.ite | apply KeepsP.ite | apply State.busWrite_keeps | apply State.notNow_keeps | apply State.stage_keeps | apply State.put_keeps | apply State.pulse_keeps | refine Keeps.of_fst ?_ (by assumption) | apply KeepsP.fst | split | apply KeepsP.mk)

theorem execLvsCmpHostWrite_keeps (s : State) (path : Path) (chan : ChanId) (val : Word) (atReload : Bool) : KeepsR 1 s (execLvsCmpHostWrite path chan val atReload s) := by
  unfold execLvsCmpHostWrite
  apply KeepsR.done
  repeat' with_reducible (first | apply Keeps.refl | apply State.hostCmp_keeps)

theorem execLvsForceGo_keeps (s : State) (path : Path) : KeepsR 1 s (execLvsForceGo path s) := by
  unfold execLvsForceGo
  apply KeepsR.done
  repeat' with_reducible (first | apply Keeps.refl | apply State.pathWrite_keeps)

theorem execLvsForceRelease_keeps (s : State) (path : Path) : KeepsR 1 s (execLvsForceRelease path s) := by
  unfold execLvsForceRelease
  apply KeepsR.done
  repeat' with_reducible (first | apply Keeps.refl | apply State.pathWrite_keeps)

theorem execPwmPeriodWrap_keeps {κ : Nat} (s : State) (chan : ChanId) : KeepsR κ s (execPwmPeriodWrap chan s) := by
  unfold execPwmPeriodWrap
  apply KeepsR.done
  repeat' with_reducible (first | apply Keeps.refl | apply State.pwmWrap_keeps)

theorem execPwmCompareMatch_keeps {κ : Nat} (s : State) (chan : ChanId) : KeepsR κ s (execPwmCompareMatch chan s) := by
  unfold execPwmCompareMatch
  apply KeepsR.done
  repeat' with_reducible (first | apply Keeps.refl | apply State.compareMatch_keeps)

theorem execDeadTimeExpiry_keeps {κ : Nat} (s : State) (pair : PairId) (high : Bool) : KeepsR κ s (execDeadTimeExpiry pair high s) := by
  unfold execDeadTimeExpiry
  apply KeepsR.done
  repeat' with_reducible (first | apply Keeps.refl | apply State.deadEnd_keeps)

theorem execChopTonminExpiry_keeps {κ : Nat} (s : State) (chop : Fin 2) : KeepsR κ s (execChopTonminExpiry chop s) := by
  unfold execChopTonminExpiry
  apply KeepsR.done
  repeat' with_reducible (first | apply Keeps.refl | apply State.chopHoldEnd_keeps)

theorem State.tripActive_keeps {κ : Nat} {ζ s : State} (hk : Keeps κ ζ s) (t : Nat) :
    Keeps κ ζ (State.tripActive s t) := by
  unfold State.tripActive
  repeat' with_reducible (first | assumption | apply Keeps.ite | apply State.tripLine_keeps)

theorem State.tripInactive_keeps {κ : Nat} {ζ s : State} (hk : Keeps κ ζ s) (t : Nat) :
    Keeps κ ζ (State.tripInactive s t) := by
  unfold State.tripInactive
  repeat' with_reducible (first | assumption | apply Keeps.ite | apply State.putBit_keeps)

theorem execTripLineActive_keeps {κ : Nat} (s : State) (line : Fin 8) : KeepsR κ s (execTripLineActive line s) := by
  unfold execTripLineActive
  apply KeepsR.done
  repeat' with_reducible (first | apply Keeps.refl | apply State.tripActive_keeps)

theorem execTripLineInactive_keeps {κ : Nat} (s : State) (line : Fin 8) : KeepsR κ s (execTripLineInactive line s) := by
  unfold execTripLineInactive
  apply KeepsR.done
  repeat' with_reducible (first | apply Keeps.refl | apply State.tripInactive_keeps)

theorem execTripLineClear_keeps (s : State) (path : Path) (line : Fin 8) : KeepsR 1 s (execTripLineClear path line s) := by
  unfold execTripLineClear
  apply KeepsR.done
  repeat' with_reducible (first | apply Keeps.refl | apply State.pathWrite_keeps)

theorem execShootTripClear_keeps (s : State) (path : Path) (pair : PairId) : KeepsR 1 s (execShootTripClear path pair s) := by
  unfold execShootTripClear
  apply KeepsR.done
  repeat' with_reducible (first | apply Keeps.refl | apply State.pathWrite_keeps)

theorem State.faultOn_keeps {κ : Nat} {ζ s : State} (hk : Keeps κ ζ s) (n : Nat) :
    Keeps κ ζ (State.faultOn s n) := by
  unfold State.faultOn
  try dsimp only
  repeat' with_reducible (first | assumption | apply EvKeeps.refl | apply Keeps.ite | apply State.faultAct_keeps | apply EvKeeps.ite | apply Keeps.lit)

theorem execFaultActive_keeps {κ : Nat} (s : State) (pair : PairId) : KeepsR κ s (execFaultActive pair s) := by
  unfold execFaultActive
  apply KeepsR.done
  repeat' with_reducible (first | apply Keeps.refl | apply State.faultOn_keeps)

theorem execFaultRelease_keeps {κ : Nat} (s : State) (pair : PairId) : KeepsR κ s (execFaultRelease pair s) := by
  unfold execFaultRelease
  apply KeepsR.done
  repeat' with_reducible (first | apply Keeps.refl | apply EvKeeps.refl | apply Keeps.lit)

theorem State.blankEnd_keeps {κ : Nat} {ζ s : State} (hk : Keeps κ ζ s) (n : Nat) :
    Keeps κ ζ (State.blankEnd s n) := by
  unfold State.blankEnd
  try dsimp only
  repeat' with_reducible (first | assumption | apply EvKeeps.refl | apply Keeps.ite | apply State.setChan_keeps | apply State.faultAct_keeps | apply EvKeeps.ite | apply Keeps.lit)

theorem execBlankingEnd_keeps {κ : Nat} (s : State) (pair : PairId) : KeepsR κ s (execBlankingEnd pair s) := by
  unfold execBlankingEnd
  apply KeepsR.done
  repeat' with_reducible (first | apply Keeps.refl | apply State.blankEnd_keeps)

theorem execHoldRelease_keeps {κ : Nat} (s : State) : KeepsR κ s (execHoldRelease s) := by
  unfold execHoldRelease
  apply KeepsR.done
  repeat' with_reducible (first | apply Keeps.refl | apply State.holdEnd_keeps)

theorem execFaultClear_keeps (s : State) (path : Path) (mask : BitVec 16) : KeepsR 1 s (execFaultClear path mask s) := by
  unfold execFaultClear
  apply KeepsR.done
  repeat' with_reducible (first | apply Keeps.refl | apply State.pathWrite_keeps)

theorem State.readyFall_keeps {κ : Nat} {ζ s : State} (hk : Keeps κ ζ s) (n : Nat) :
    Keeps κ ζ (State.readyFall s n) := by
  unfold State.readyFall
  try dsimp only
  repeat' with_reducible (first | assumption | apply Keeps.ite | apply State.putBit_keeps | apply State.pulse_keeps)

theorem execReadyFall_keeps {κ : Nat} (s : State) (pair : PairId) : KeepsR κ s (execReadyFall pair s) := by
  unfold execReadyFall
  apply KeepsR.done
  repeat' with_reducible (first | apply Keeps.refl | apply State.readyFall_keeps)

theorem execReadyRise_keeps {κ : Nat} (s : State) (pair : PairId) : KeepsR κ s (execReadyRise pair s) := by
  unfold execReadyRise
  apply KeepsR.done
  repeat' with_reducible (first | apply Keeps.refl | apply State.putBit_keeps)

end Sys2Proof.Machine
end

