-- ==== Sys2Proof/Laws/KeepsPumpCmds.lean ====
section
/-! SUPPORT. What each operation of Machine/PumpCmds.lean keeps. -/

namespace Sys2Proof.Machine

theorem execPumpStart_keeps (s : State) (path : Path) : KeepsR 1 s (execPumpStart path s) := by
  unfold execPumpStart
  apply KeepsR.done
  repeat' with_reducible (first | apply Keeps.refl | apply State.pathWrite_keeps)

theorem execPumpStop_keeps (s : State) (path : Path) : KeepsR 1 s (execPumpStop path s) := by
  unfold execPumpStop
  apply KeepsR.done
  repeat' with_reducible (first | apply Keeps.refl | apply State.pathWrite_keeps)

theorem execPumpDiagStepEnd_keeps {κ : Nat} (s : State) (low high : BitVec 3) : KeepsR κ s (execPumpDiagStepEnd low high s) := by
  unfold execPumpDiagStepEnd
  apply KeepsR.done
  repeat' with_reducible (first | apply Keeps.refl | apply State.diagStep_keeps)

theorem State.bootDone_keeps {κ : Nat} {ζ s : State} (hk : Keeps κ ζ s) :
    Keeps κ ζ (State.bootDone s) := by
  unfold State.bootDone
  repeat' with_reducible (first | assumption | apply Keeps.ite | apply State.commutate_keeps | apply State.setPump_keeps | apply State.setBoot_keeps | apply State.checkBoot_keeps)

theorem execPumpTbootExpiry_keeps {κ : Nat} (s : State) : KeepsR κ s (execPumpTbootExpiry s) := by
  unfold execPumpTbootExpiry
  apply KeepsR.done
  repeat' with_reducible (first | apply Keeps.refl | apply State.bootDone_keeps)

theorem State.startHeld_keeps {κ : Nat} {ζ s : State} (hk : Keeps κ ζ s) :
    Keeps κ ζ (State.startHeld s) := by
  unfold State.startHeld
  repeat' with_reducible (first | assumption | apply Keeps.ite | apply State.setPump_keeps)

theorem execPumpStartholdReached_keeps {κ : Nat} (s : State) : KeepsR κ s (execPumpStartholdReached s) := by
  unfold execPumpStartholdReached
  apply KeepsR.done
  repeat' with_reducible (first | apply Keeps.refl | apply State.startHeld_keeps)

theorem execPumpStarttoExpiry_keeps {κ : Nat} (s : State) : KeepsR κ s (execPumpStarttoExpiry s) := by
  unfold execPumpStarttoExpiry
  apply KeepsR.done
  repeat' with_reducible (first | apply Keeps.refl | apply Keeps.ite | apply State.pumpFault_keeps)

theorem execHallChange_keeps {κ : Nat} (s : State) (code : BitVec 3) (bootLow : Bool) : KeepsR κ s (execHallChange code bootLow s) := by
  unfold execHallChange
  apply KeepsR.done
  repeat' with_reducible (first | apply Keeps.refl | apply State.hallIn_keeps)

theorem execHallInvalidTimeout_keeps {κ : Nat} (s : State) : KeepsR κ s (execHallInvalidTimeout s) := by
  unfold execHallInvalidTimeout
  apply KeepsR.done
  repeat' with_reducible (first | apply Keeps.refl | apply State.hallTimeout_keeps)

theorem execPumpOvercurrent_keeps {κ : Nat} (s : State) : KeepsR κ s (execPumpOvercurrent s) := by
  unfold execPumpOvercurrent
  apply KeepsR.done
  repeat' with_reducible (first | apply Keeps.refl | apply State.overCurrent_keeps)

theorem execPumpStallTimeout_keeps {κ : Nat} (s : State) : KeepsR κ s (execPumpStallTimeout s) := by
  unfold execPumpStallTimeout
  apply KeepsR.done
  repeat' with_reducible (first | apply Keeps.refl | apply State.pumpStall_keeps)

theorem execPumpPwmWrap_keeps {κ : Nat} (s : State) : KeepsR κ s (execPumpPwmWrap s) := by
  unfold execPumpPwmWrap
  apply KeepsR.done
  repeat' with_reducible (first | apply Keeps.refl | apply State.pumpWrap_keeps)

theorem execPumpVmMeasure_keeps {κ : Nat} (s : State) (vm : PumpSense) : KeepsR κ s (execPumpVmMeasure vm s) := by
  unfold execPumpVmMeasure
  apply KeepsR.done
  repeat' with_reducible (first | apply Keeps.refl | apply Keeps.ite | apply State.setBoot_keeps | apply State.checkBoot_keeps | apply State.vmIn_keeps | apply State.put_keeps | apply Win.put_keeps)

theorem execBrkmaxExpiry_keeps {κ : Nat} (s : State) : KeepsR κ s (execBrkmaxExpiry s) := by
  unfold execBrkmaxExpiry
  apply KeepsR.done
  repeat' with_reducible (first | apply Keeps.refl | apply State.brkTimeout_keeps)

theorem execRetryWaitExpiry_keeps {κ : Nat} (s : State) (chan : Fin 3) : KeepsR κ s (execRetryWaitExpiry chan s) := by
  unfold execRetryWaitExpiry
  apply KeepsR.done
  repeat' with_reducible (first | apply Keeps.refl | apply Keeps.ite | apply State.retryEnd_keeps)

theorem execRetryCleanExpiry_keeps {κ : Nat} (s : State) (chan : Fin 3) : KeepsR κ s (execRetryCleanExpiry chan s) := by
  unfold execRetryCleanExpiry
  apply KeepsR.done
  repeat' with_reducible (first | apply Keeps.refl | apply Keeps.ite | apply State.retryClean_keeps)

theorem execRetryClear_keeps (s : State) (path : Path) (mask : BitVec 3) : KeepsR 1 s (execRetryClear path mask s) := by
  unfold execRetryClear
  apply KeepsR.done
  repeat' with_reducible (first | apply Keeps.refl | apply State.pathWrite_keeps)

end Sys2Proof.Machine
end

