-- ==== Sys2Proof/Laws/KeepsAnalogCmds.lean ====
section
/-! SUPPORT. What each operation of Machine/AnalogCmds.lean keeps. -/

namespace Sys2Proof.Machine

theorem State.sampleAt_keeps {κ : Nat} {ζ s : State} (hk : Keeps κ ζ s) (j : Nat) (codes : List Int) (ready : Nat) :
    Keeps κ ζ (State.sampleAt s j codes ready) := by
  unfold State.sampleAt
  try dsimp only
  repeat' with_reducible (first | assumption | apply Keeps.ite | apply State.fastInstant_keeps | apply State.acqInstant_keeps)

theorem State.fastParity_keeps {κ : Nat} {ζ s : State} (hk : Keeps κ ζ s) (bad : BitVec 24) :
    Keeps κ ζ (State.fastParity s bad) := by
  unfold State.fastParity
  try dsimp only
  repeat' with_reducible (first | assumption | apply Keeps.ite | apply State.xingBad_keeps | refine Keeps.foldl (fun _ _ _ => ?_) ?_)

theorem execFastSample_keeps {κ : Nat} (s : State) (j : BitVec 9) (codes : Vector (BitVec 16) 24) (ready : FastReady) : KeepsR κ s (execFastSample j codes ready s) := by
  unfold execFastSample
  apply KeepsR.done
  repeat' with_reducible (first | apply Keeps.refl | apply State.fastParity_keeps | apply State.sampleAt_keeps)

theorem State.fastDeadline_keeps {κ : Nat} {ζ s : State} (hk : Keeps κ ζ s) :
    Keeps κ ζ (State.fastDeadline s) := by
  unfold State.fastDeadline
  try dsimp only
  repeat' with_reducible (first | assumption | apply Keeps.ite | apply State.fastLate_keeps | refine Keeps.foldl (fun _ _ _ => ?_) ?_)

theorem execFastResultDeadline_keeps {κ : Nat} (s : State) : KeepsR κ s (execFastResultDeadline s) := by
  unfold execFastResultDeadline
  apply KeepsR.done
  repeat' with_reducible (first | apply Keeps.refl | apply State.fastDeadline_keeps)

theorem execHkScanStart_keeps {κ : Nat} (s : State) : KeepsR κ s (execHkScanStart s) := by
  unfold execHkScanStart
  apply KeepsR.done
  repeat' with_reducible (first | apply Keeps.refl | apply Keeps.ite | apply State.hkStart_keeps)

theorem execHkConversionDone_keeps {κ : Nat} (s : State) (entry : Nat) (chan : BitVec 5) (code : HkWord) : KeepsR κ s (execHkConversionDone entry chan code s) := by
  unfold execHkConversionDone
  apply KeepsR.done
  repeat' with_reducible (first | apply Keeps.refl | apply Keeps.ite | apply State.hkLostWord_keeps | apply State.hkConvert_keeps)

theorem execHkScanTimeout_keeps {κ : Nat} (s : State) : KeepsR κ s (execHkScanTimeout s) := by
  unfold execHkScanTimeout
  apply KeepsR.done
  repeat' with_reducible (first | apply Keeps.refl | apply State.hkTimeout_keeps)

theorem execTestDacGo_keeps (s : State) (path : Path) (hk : Bool) (chan : BitVec 5) (code : BitVec 10) : KeepsR 1 s (execTestDacGo path hk chan code s) := by
  unfold execTestDacGo
  apply KeepsR.done
  repeat' with_reducible (first | apply Keeps.refl | apply State.pathWrite_keeps)

theorem execTestDacStop_keeps (s : State) (path : Path) : KeepsR 1 s (execTestDacStop path s) := by
  unfold execTestDacStop
  apply KeepsR.done
  repeat' with_reducible (first | apply Keeps.refl | apply State.pathWrite_keeps)

theorem State.testEnd_keeps {κ : Nat} {ζ s : State} (hk : Keeps κ ζ s) (parity : Bool) :
    Keeps κ ζ (State.testEnd s parity) := by
  unfold State.testEnd
  repeat' with_reducible (first | assumption | apply Keeps.ite | apply State.xingBad_keeps | apply State.testDone_keeps)

theorem execTestDacCheckDone_keeps {κ : Nat} (s : State) (parity : Bool) : KeepsR κ s (execTestDacCheckDone parity s) := by
  unfold execTestDacCheckDone
  apply KeepsR.done
  repeat' with_reducible (first | apply Keeps.refl | apply State.testEnd_keeps)

theorem execComparatorRawChange_keeps (s : State) (win : WinId) (upper : Bool) (input : Int) : KeepsR 1 s (execComparatorRawChange win upper input s) := by
  unfold execComparatorRawChange
  apply KeepsR.done
  repeat' with_reducible (first | apply Keeps.refl | apply State.rawWindow_keeps)

theorem State.windowChange_keeps {κ : Nat} {ζ s : State} (hk : Keeps κ ζ s) (w : Nat) (upper level parity : Bool) :
    Keeps κ ζ (State.windowChange s w upper level parity) := by
  unfold State.windowChange
  repeat' with_reducible (first | assumption | apply Keeps.ite | apply KeepsW.ite | apply State.xingBad_keeps | apply State.filtWindow_keeps | apply KeepsW.s | apply KeepsW.mk)

theorem execWindowOutputChange_keeps {κ : Nat} (s : State) (win : WinId) (upper : Bool) (level : WindowWord) : KeepsR κ s (execWindowOutputChange win upper level s) := by
  unfold execWindowOutputChange
  apply KeepsR.done
  repeat' with_reducible (first | apply Keeps.refl | apply State.windowChange_keeps)

theorem execWindowEnable_keeps {κ : Nat} (s : State) (win : WinId) : KeepsR κ s (execWindowEnable win s) := by
  unfold execWindowEnable
  apply KeepsR.done
  repeat' with_reducible (first | apply Keeps.refl | apply State.settleWindow_keeps)

theorem execWindowLatchClear_keeps (s : State) (path : Path) (win : WinId) (latu latl : Bool) : KeepsR 1 s (execWindowLatchClear path win latu latl s) := by
  unfold execWindowLatchClear
  apply KeepsR.done
  repeat' with_reducible (first | apply Keeps.refl | apply State.pathWrite_keeps)

theorem execAonComparatorChange_keeps {κ : Nat} (s : State) (comp : Fin 4) (strobes : Vector Nat 3) : KeepsR κ s (execAonComparatorChange comp strobes s) := by
  unfold execAonComparatorChange
  apply KeepsR.done
  repeat' with_reducible (first | apply Keeps.refl | apply State.aonChange_keeps)

end Sys2Proof.Machine
end

