-- ==== Sys2Proof/Laws/KeepsClkCmds.lean ====
section
/-! SUPPORT. What each operation of Machine/ClkCmds.lean keeps. -/

namespace Sys2Proof.Machine

theorem execClockAlarm_keeps {κ : Nat} (s : State) (clk : ClockId) (dev : BitVec 16) : KeepsR κ s (execClockAlarm clk dev s) := by
  unfold execClockAlarm
  apply KeepsR.done
  repeat' with_reducible (first | apply Keeps.refl | apply State.clockAlarm_keeps)

theorem execPllRecoveryDone_keeps {κ : Nat} (s : State) (clk : ClockId) : KeepsR κ s (execPllRecoveryDone clk s) := by
  unfold execPllRecoveryDone
  apply KeepsR.done
  repeat' with_reducible (first | apply Keeps.refl | apply State.recoverDone_keeps)

theorem execClkoutConfigApply_keeps {κ : Nat} (s : State) (out : Fin 2) : KeepsR κ s (execClkoutConfigApply out s) := by
  unfold execClkoutConfigApply
  apply KeepsR.done
  repeat' with_reducible (first | apply Keeps.refl | apply State.outApply_keeps)

theorem execDieSensorRead_keeps {κ : Nat} (s : State) (readings : List TempWord) : KeepsR κ s (execDieSensorRead readings s) := by
  unfold execDieSensorRead
  apply KeepsR.done
  repeat' with_reducible (first | apply Keeps.refl | apply State.dieIn_keeps)

theorem execExtDiodeRead_keeps {κ : Nat} (s : State) (readings : List TempWord) : KeepsR κ s (execExtDiodeRead readings s) := by
  unfold execExtDiodeRead
  apply KeepsR.done
  repeat' with_reducible (first | apply Keeps.refl | apply State.extIn_keeps)

end Sys2Proof.Machine
end

