-- ==== Sys2Proof/Laws/KeepsNetCmds.lean ====
section
/-! SUPPORT. What each operation of Machine/NetCmds.lean keeps. -/

namespace Sys2Proof.Machine

theorem execNetLinkChange_keeps {κ : Nat} (s : State) (port : PortId) (link : LinkState) : KeepsR κ s (execNetLinkChange port link s) := by
  unfold execNetLinkChange
  apply KeepsR.done
  repeat' with_reducible (first | apply Keeps.refl | apply State.linkChange_keeps)

theorem execNetFrameReceive_keeps {κ : Nat} (s : State) (port : PortId) (frame : NetFrame) : KeepsR κ s (execNetFrameReceive port frame s) := by
  unfold execNetFrameReceive
  apply KeepsR.done
  repeat' with_reducible (first | apply Keeps.refl | apply State.frameIn_keeps)

theorem execPtpSyncSample_keeps {κ : Nat} (s : State) (domain : Fin 2) (sample : PtpSample) : KeepsR κ s (execPtpSyncSample domain sample s) := by
  unfold execPtpSyncSample
  apply KeepsR.done
  repeat' with_reducible (first | assumption | apply Keeps.refl | refine State.withFrame_keeps ?_ _ _ (fun _ _ => ?_) | apply State.ptpSample_keeps)

theorem execPtpAnnounce_keeps {κ : Nat} (s : State) (domain : Fin 2) (ann : PtpAnnounce) : KeepsR κ s (execPtpAnnounce domain ann s) := by
  unfold execPtpAnnounce
  apply KeepsR.done
  repeat' with_reducible (first | assumption | apply Keeps.refl | refine State.withFrame_keeps ?_ _ _ (fun _ _ => ?_) | apply State.ptpAnnounce_keeps)

theorem execPtpAnnounceTimeout_keeps {κ : Nat} (s : State) (domain : Fin 2) : KeepsR κ s (execPtpAnnounceTimeout domain s) := by
  unfold execPtpAnnounceTimeout
  apply KeepsR.done
  repeat' with_reducible (first | apply Keeps.refl | apply State.annTimeout_keeps)

theorem execPtpPdelayReq_keeps {κ : Nat} (s : State) (port : PortId) (req : PdelayReq) : KeepsR κ s (execPtpPdelayReq port req s) := by
  unfold execPtpPdelayReq
  apply KeepsR.done
  repeat' with_reducible (first | assumption | apply Keeps.refl | refine State.withFrame_keeps ?_ _ _ (fun _ _ => ?_) | apply State.pdelayReq_keeps)

theorem execPtpSelect_keeps (s : State) (path : Path) (sel : BitVec 2) : KeepsR 1 s (execPtpSelect path sel s) := by
  unfold execPtpSelect
  apply KeepsR.done
  repeat' with_reducible (first | apply Keeps.refl | apply State.pathWrite_keeps)

theorem execPtpArmstep_keeps (s : State) (path : Path) : KeepsR 1 s (execPtpArmstep path s) := by
  unfold execPtpArmstep
  apply KeepsR.done
  repeat' with_reducible (first | apply Keeps.refl | apply State.pathWrite_keeps)

theorem execPeriodLockSettled_keeps {κ : Nat} (s : State) : KeepsR κ s (execPeriodLockSettled s) := by
  unfold execPeriodLockSettled
  apply KeepsR.done
  repeat' with_reducible (first | apply Keeps.refl | apply State.lockSettled_keeps)

theorem execToutArm_keeps (s : State) (path : Path) (out : Fin 8) : KeepsR 1 s (execToutArm path out s) := by
  unfold execToutArm
  apply KeepsR.done
  repeat' with_reducible (first | apply Keeps.refl | apply State.pathWrite_keeps)

theorem execToutStop_keeps (s : State) (path : Path) (out : Fin 8) : KeepsR 1 s (execToutStop path out s) := by
  unfold execToutStop
  apply KeepsR.done
  repeat' with_reducible (first | apply Keeps.refl | apply State.pathWrite_keeps)

theorem execToutTargetReached_keeps {κ : Nat} (s : State) (out : Fin 8) : KeepsR κ s (execToutTargetReached out s) := by
  unfold execToutTargetReached
  apply KeepsR.done
  repeat' with_reducible (first | apply Keeps.refl | apply State.toutReached_keeps)

theorem execToutPulseEnd_keeps {κ : Nat} (s : State) (out : Fin 8) : KeepsR κ s (execToutPulseEnd out s) := by
  unfold execToutPulseEnd
  apply KeepsR.done
  repeat' with_reducible (first | apply Keeps.refl | apply State.pulseEnd_keeps)

theorem execGooseReceive_keeps {κ : Nat} (s : State) (msg : GooseMsg) : KeepsR κ s (execGooseReceive msg s) := by
  unfold execGooseReceive
  apply KeepsR.done
  repeat' with_reducible (first | assumption | apply Keeps.refl | apply Keeps.ite | refine State.withFrame_keeps ?_ _ _ (fun _ _ => ?_) | apply State.xingBad_keeps | apply State.gooseIn_keeps)

theorem execGooseTalExpiry_keeps {κ : Nat} (s : State) (sub : Fin 64) : KeepsR κ s (execGooseTalExpiry sub s) := by
  unfold execGooseTalExpiry
  apply KeepsR.done
  repeat' with_reducible (first | apply Keeps.refl | apply State.gooseTimeout_keeps)

theorem execSvReceive_keeps {κ : Nat} (s : State) (msg : SvMsg) : KeepsR κ s (execSvReceive msg s) := by
  unfold execSvReceive
  apply KeepsR.done
  repeat' with_reducible (first | assumption | apply Keeps.refl | apply Keeps.ite | refine State.withFrame_keeps ?_ _ _ (fun _ _ => ?_) | apply State.xingBad_keeps | apply State.svIn_keeps)

theorem execGooseRetransmit_keeps {κ : Nat} (s : State) (pub : Fin 8) : KeepsR κ s (execGooseRetransmit pub s) := by
  unfold execGooseRetransmit
  apply KeepsR.done
  repeat' with_reducible (first | apply Keeps.refl | apply State.republish_keeps)

end Sys2Proof.Machine
end

