-- ==== Sys2Proof/Laws/KeepsRapCmds.lean ====
section
/-! SUPPORT. What each operation of Machine/RapCmds.lean keeps. -/

namespace Sys2Proof.Machine

theorem State.rapOpen_keeps {κ : Nat} {ζ s : State} (hk : Keeps κ ζ s) (q : RapOpenReq) :
    Keeps κ ζ (State.rapOpen s q) := by
  unfold State.rapOpen
  try dsimp only
  repeat' with_reducible (first | assumption | apply EvKeeps.refl | apply Keeps.ite | apply KeepsP.ite | apply State.rapAuth_keeps | apply State.setSession_keeps | apply State.putBit_keeps | apply State.sendRap_keeps | apply EvKeeps.ite | refine Keeps.of_fst ?_ (by assumption) | apply KeepsP.fst | split | apply KeepsP.mk | apply Keeps.lit)

theorem execRapOpen_keeps {κ : Nat} (s : State) (req : RapOpenReq) : KeepsR κ s (execRapOpen req s) := by
  unfold execRapOpen
  apply KeepsR.done
  repeat' with_reducible (first | assumption | apply Keeps.refl | refine State.withFrame_keeps ?_ _ _ (fun _ _ => ?_) | apply State.rapOpen_keeps)

theorem State.rapEnd_keeps {κ : Nat} {ζ s : State} (hk : Keeps κ ζ s) (n : Nat) :
    Keeps κ ζ (State.rapEnd s n) := by
  unfold State.rapEnd
  try dsimp only
  repeat' with_reducible (first | assumption | apply EvKeeps.refl | apply Keeps.ite | apply State.setSession_keeps | apply State.putBit_keeps | apply State.txIdleEnd_keeps | apply State.pulse_keeps | apply EvKeeps.ite | apply Keeps.lit)

theorem execRapIdleTimeout_keeps {κ : Nat} (s : State) (session : Fin 4) : KeepsR κ s (execRapIdleTimeout session s) := by
  unfold execRapIdleTimeout
  apply KeepsR.done
  repeat' with_reducible (first | apply Keeps.refl | apply State.rapEnd_keeps)

theorem State.rapReads_keeps {κ : Nat} {ζ s : State} (hk : Keeps κ ζ s) (m : RapMsg) (step : Nat) :
    KeepsP κ ζ (State.rapReads s m step) := by
  unfold State.rapReads
  try dsimp only
  repeat' with_reducible (first | assumption | apply EvKeeps.refl | apply State.busRead_keeps | refine Keeps.foldl (fun _ _ _ => ?_) ?_ | refine Keeps.foldlP (fun _ _ _ => ?_) ?_ | refine Keeps.of_fst ?_ (by assumption) | apply KeepsP.fst | split | apply KeepsP.mk | apply Keeps.lit)

theorem State.rapWrites_keeps {ζ s : State} (hk : Keeps 1 ζ s) (m : RapMsg) (step : Nat) :
    KeepsP 1 ζ (State.rapWrites s m step) := by
  unfold State.rapWrites
  try dsimp only
  repeat' with_reducible (first | assumption | apply EvKeeps.refl | apply Keeps.ite | apply KeepsP.ite | apply State.busWrite_keeps | apply EvKeeps.ite | refine Keeps.foldl (fun _ _ _ => ?_) ?_ | refine Keeps.foldlP (fun _ _ _ => ?_) ?_ | refine Keeps.of_fst ?_ (by assumption) | apply KeepsP.fst | split | apply KeepsP.mk | apply Keeps.lit1)

theorem State.rapRun_keeps {ζ s : State} (hk : Keeps 1 ζ s) (op : RapOp) (m : RapMsg) :
    KeepsP 1 ζ (State.rapRun s op m) := by
  unfold State.rapRun
  repeat' with_reducible (first | assumption | apply EvKeeps.refl | apply State.rapReads_keeps | apply State.rapWrites_keeps | apply State.rapEnd_keeps | refine Keeps.of_fst ?_ (by assumption) | apply KeepsP.fst | split | apply KeepsP.mk | apply Keeps.lit1)

theorem State.rapAnswer_keeps {κ : Nat} {ζ s : State} (hk : Keeps κ ζ s) (op : RapOp) (m : RapMsg) :
    Keeps κ ζ (State.rapAnswer s op m) := by
  unfold State.rapAnswer
  try dsimp only
  repeat' with_reducible (first | assumption | apply EvKeeps.refl | apply Keeps.ite | apply State.sendRap_keeps | apply EvKeeps.ite | apply Keeps.lit)

theorem State.rapDo_keeps {ζ s : State} (hk : Keeps 1 ζ s) (held : Bool) (op : RapOp) (m : RapMsg) :
    Keeps 1 ζ (State.rapDo s held op m) := by
  unfold State.rapDo
  try dsimp only
  repeat' with_reducible (first | assumption | apply EvKeeps.refl | apply Keeps.ite | apply KeepsP.ite | apply State.rapAuth_keeps | apply State.rapAnswer_keeps | apply State.errInc_keeps | apply State.rapRun_keeps | apply State.setSession_keeps | apply EvKeeps.ite | refine Keeps.of_fst ?_ (by assumption) | apply KeepsP.fst | split | apply KeepsP.mk | apply Keeps.lit1)

theorem State.takeRequests_keeps {ζ s : State} (hk : Keeps 1 ζ s) :
    Keeps 1 ζ (State.takeRequests s) := by
  unfold State.takeRequests
  try dsimp only
  repeat' with_reducible (first | assumption | apply EvKeeps.refl | apply State.rapDo_keeps | refine Keeps.foldl (fun _ _ _ => ?_) ?_ | refine Keeps.foldlP (fun _ _ _ => ?_) ?_ | apply KeepsP.fst | apply KeepsP.mk | apply Keeps.lit1)

theorem State.rapIn_keeps {ζ s : State} (hk : Keeps 1 ζ s) (op : RapOp) (m : RapMsg) :
    Keeps 1 ζ (State.rapIn s op m) := by
  unfold State.rapIn
  try dsimp only
  repeat' with_reducible (first | assumption | apply Keeps.ite | refine State.withFrame_keeps ?_ _ _ (fun _ _ => ?_) | apply State.xingBad_keeps | apply State.rapDo_keeps)

theorem execRapRead_keeps (s : State) (msg : RapMsg) : KeepsR 1 s (execRapRead msg s) := by
  unfold execRapRead
  apply KeepsR.done
  repeat' with_reducible (first | apply Keeps.refl | apply State.rapIn_keeps)

theorem execRapReadFixed_keeps (s : State) (msg : RapMsg) : KeepsR 1 s (execRapReadFixed msg s) := by
  unfold execRapReadFixed
  apply KeepsR.done
  repeat' with_reducible (first | apply Keeps.refl | apply State.rapIn_keeps)

theorem execRapWrite_keeps (s : State) (msg : RapMsg) : KeepsR 1 s (execRapWrite msg s) := by
  unfold execRapWrite
  apply KeepsR.done
  repeat' with_reducible (first | apply Keeps.refl | apply State.rapIn_keeps)

theorem execRapWriteFixed_keeps (s : State) (msg : RapMsg) : KeepsR 1 s (execRapWriteFixed msg s) := by
  unfold execRapWriteFixed
  apply KeepsR.done
  repeat' with_reducible (first | apply Keeps.refl | apply State.rapIn_keeps)

theorem execRapKeepalive_keeps (s : State) (msg : RapMsg) : KeepsR 1 s (execRapKeepalive msg s) := by
  unfold execRapKeepalive
  apply KeepsR.done
  repeat' with_reducible (first | apply Keeps.refl | apply State.rapIn_keeps)

theorem execRapClose_keeps (s : State) (msg : RapMsg) : KeepsR 1 s (execRapClose msg s) := by
  unfold execRapClose
  apply KeepsR.done
  repeat' with_reducible (first | apply Keeps.refl | apply State.rapIn_keeps)

end Sys2Proof.Machine
end

