-- ==== Sys2Proof/Laws/KeepsAcqCmds.lean ====
section
/-! SUPPORT. What each operation of Machine/AcqCmds.lean keeps. -/

namespace Sys2Proof.Machine

theorem State.rctl_keeps {ζ s : State} (hk : Keeps 1 ζ s) (path k : Nat) (v : Word) :
    Keeps 1 ζ (State.rctl s path k v) := by
  unfold State.rctl
  repeat' with_reducible (first | assumption | apply State.pathWrite_keeps)

theorem execRecorderArm_keeps (s : State) (path : Path) (rec : RecId) : KeepsR 1 s (execRecorderArm path rec s) := by
  unfold execRecorderArm
  apply KeepsR.done
  repeat' with_reducible (first | apply Keeps.refl | apply State.rctl_keeps)

theorem execRecorderStop_keeps (s : State) (path : Path) (rec : RecId) : KeepsR 1 s (execRecorderStop path rec s) := by
  unfold execRecorderStop
  apply KeepsR.done
  repeat' with_reducible (first | apply Keeps.refl | apply State.rctl_keeps)

theorem execRecorderForce_keeps (s : State) (path : Path) (rec : RecId) : KeepsR 1 s (execRecorderForce path rec s) := by
  unfold execRecorderForce
  apply KeepsR.done
  repeat' with_reducible (first | apply Keeps.refl | apply State.rctl_keeps)

theorem execRecorderTrigger_keeps {κ : Nat} (s : State) (rec : RecId) (tofs : BitVec 12) : KeepsR κ s (execRecorderTrigger rec tofs s) := by
  unfold execRecorderTrigger
  apply KeepsR.done
  repeat' with_reducible (first | apply Keeps.refl | apply State.recTrigger_keeps)

theorem execRecorderHoldoffExpiry_keeps {κ : Nat} (s : State) (rec : RecId) : KeepsR κ s (execRecorderHoldoffExpiry rec s) := by
  unfold execRecorderHoldoffExpiry
  apply KeepsR.done
  repeat' with_reducible (first | apply Keeps.refl | apply State.holdPassed_keeps)

theorem execRecorderPostComplete_keeps {κ : Nat} (s : State) (rec : RecId) : KeepsR κ s (execRecorderPostComplete rec s) := by
  unfold execRecorderPostComplete
  apply KeepsR.done
  repeat' with_reducible (first | apply Keeps.refl | apply State.recComplete_keeps)

theorem execMaskViolation_keeps {κ : Nat} (s : State) (mask : Fin 8) (row : Word) : KeepsR κ s (execMaskViolation mask row s) := by
  unfold execMaskViolation
  apply KeepsR.done
  repeat' with_reducible (first | apply Keeps.refl | apply State.maskHit_keeps)

theorem execPageEviction_keeps {κ : Nat} (s : State) (rec : RecId) : KeepsR κ s (execPageEviction rec s) := by
  unfold execPageEviction
  apply KeepsR.done
  repeat' with_reducible (first | apply Keeps.refl | apply State.needPage_keeps)

theorem execAcqOverrun_keeps {κ : Nat} (s : State) : KeepsR κ s (execAcqOverrun s) := by
  unfold execAcqOverrun
  apply KeepsR.done
  repeat' with_reducible (first | apply Keeps.refl | apply State.overrun_keeps)

theorem execCalGo_keeps (s : State) (path : Path) : KeepsR 1 s (execCalGo path s) := by
  unfold execCalGo
  apply KeepsR.done
  repeat' with_reducible (first | apply Keeps.refl | apply State.pathWrite_keeps)

theorem execCalComplete_keeps {κ : Nat} (s : State) (skews : List Int) : KeepsR κ s (execCalComplete skews s) := by
  unfold execCalComplete
  apply KeepsR.done
  repeat' with_reducible (first | apply Keeps.refl | apply State.calDone_keeps)

theorem execWmapClaim_keeps (s : State) (path : Path) (slot : Fin 32) (page : BitVec 12) : KeepsR 1 s (execWmapClaim path slot page s) := by
  unfold execWmapClaim
  apply KeepsR.done
  repeat' with_reducible (first | apply Keeps.refl | apply State.pathWrite_keeps)

theorem execWmapRelease_keeps (s : State) (path : Path) (slot : Fin 32) : KeepsR 1 s (execWmapRelease path slot s) := by
  unfold execWmapRelease
  apply KeepsR.done
  repeat' with_reducible (first | apply Keeps.refl | apply State.pathWrite_keeps)

theorem execDirProtect_keeps (s : State) (path : Path) : KeepsR 1 s (execDirProtect path s) := by
  unfold execDirProtect
  apply KeepsR.done
  repeat' with_reducible (first | apply Keeps.refl | apply State.pathWrite_keeps)

theorem execDirUnprotect_keeps (s : State) (path : Path) : KeepsR 1 s (execDirUnprotect path s) := by
  unfold execDirUnprotect
  apply KeepsR.done
  repeat' with_reducible (first | apply Keeps.refl | apply State.pathWrite_keeps)

theorem execDirDelete_keeps (s : State) (path : Path) : KeepsR 1 s (execDirDelete path s) := by
  unfold execDirDelete
  apply KeepsR.done
  repeat' with_reducible (first | apply Keeps.refl | apply State.pathWrite_keeps)

theorem execMapSnap_keeps (s : State) (path : Path) : KeepsR 1 s (execMapSnap path s) := by
  unfold execMapSnap
  apply KeepsR.done
  repeat' with_reducible (first | apply Keeps.refl | apply State.pathWrite_keeps)

theorem execMapSnapDone_keeps {κ : Nat} (s : State) : KeepsR κ s (execMapSnapDone s) := by
  unfold execMapSnapDone
  apply KeepsR.done
  repeat' with_reducible (first | apply Keeps.refl | apply State.mapSnapDone_keeps)

theorem execMapClr_keeps (s : State) (path : Path) : KeepsR 1 s (execMapClr path s) := by
  unfold execMapClr
  apply KeepsR.done
  repeat' with_reducible (first | apply Keeps.refl | apply State.pathWrite_keeps)

end Sys2Proof.Machine
end

