-- ==== Sys2Proof/Laws/KeepsSafCmds.lean ====
section
/-! SUPPORT. What each operation of Machine/SafCmds.lean keeps. -/

namespace Sys2Proof.Machine

theorem execWhiteout_keeps {κ : Nat} (s : State) (cause : WhiteoutCause) : KeepsR κ s (execWhiteout cause s) := by
  unfold execWhiteout
  apply KeepsR.done
  repeat' with_reducible (first | apply Keeps.refl | apply Keeps.ite | apply State.setWhiteout_keeps)

theorem execSafWoreq_keeps (s : State) (path : Path) : KeepsR 1 s (execSafWoreq path s) := by
  unfold execSafWoreq
  apply KeepsR.done
  repeat' with_reducible (first | apply Keeps.refl | apply State.pathWrite_keeps)

theorem execSafReset_keeps (s : State) (path : Path) : KeepsR 1 s (execSafReset path s) := by
  unfold execSafReset
  apply KeepsR.done
  repeat' with_reducible (first | apply Keeps.refl | apply State.pathWrite_keeps)

theorem execTestPulse_keeps {κ : Nat} (s : State) (src : Fin 4) (low : Bool) : KeepsR κ s (execTestPulse src low s) := by
  unfold execTestPulse
  apply KeepsR.done
  repeat' with_reducible (first | apply Keeps.refl | apply EvKeeps.refl | apply Keeps.ite | apply Keeps.lit)

theorem State.pulseCheck_keeps {κ : Nat} {ζ s : State} (hk : Keeps κ ζ s) (n : Nat) (b pass : Bool) :
    Keeps κ ζ (State.pulseCheck s n b pass) := by
  unfold State.pulseCheck
  try dsimp only
  repeat' with_reducible (first | assumption | apply EvKeeps.refl | apply Keeps.ite | apply KeepsP.ite | apply State.setSafeIn_keeps | apply State.putBit_keeps | apply State.pulse_keeps | apply State.safeFollow_keeps | apply EvKeeps.ite | refine Keeps.of_fst ?_ (by assumption) | apply KeepsP.fst | split | apply KeepsP.mk | apply Keeps.lit)

theorem execTestPulseCheck_keeps {κ : Nat} (s : State) (input : Fin 8) (chanB pass : Bool) : KeepsR κ s (execTestPulseCheck input chanB pass s) := by
  unfold execTestPulseCheck
  apply KeepsR.done
  repeat' with_reducible (first | apply Keeps.refl | apply State.pulseCheck_keeps)

theorem State.safeChange_keeps {κ : Nat} {ζ s : State} (hk : Keeps κ ζ s) (n : Nat) (b high : Bool) :
    Keeps κ ζ (State.safeChange s n b high) := by
  unfold State.safeChange
  try dsimp only
  repeat' with_reducible (first | assumption | apply EvKeeps.refl | apply Keeps.ite | apply State.putBit_keeps | apply State.setSafeIn_keeps | apply State.safeFollow_keeps | apply EvKeeps.ite | apply Keeps.lit)

theorem execSafeInputChange_keeps {κ : Nat} (s : State) (input : Fin 8) (chanB high : Bool) : KeepsR κ s (execSafeInputChange input chanB high s) := by
  unfold execSafeInputChange
  apply KeepsR.done
  repeat' with_reducible (first | apply Keeps.refl | apply State.safeChange_keeps)

theorem State.discLatch_keeps {κ : Nat} {ζ s : State} (hk : Keeps κ ζ s) (n : Nat) :
    Keeps κ ζ (State.discLatch s n) := by
  unfold State.discLatch
  try dsimp only
  repeat' with_reducible (first | assumption | apply EvKeeps.refl | apply Keeps.ite | apply State.setSafeIn_keeps | apply State.putBit_keeps | apply State.pulse_keeps | apply State.safeFollow_keeps | apply EvKeeps.ite | apply Keeps.lit)

theorem execDiscrepancyTimeout_keeps {κ : Nat} (s : State) (input : Fin 8) : KeepsR κ s (execDiscrepancyTimeout input s) := by
  unfold execDiscrepancyTimeout
  apply KeepsR.done
  repeat' with_reducible (first | apply Keeps.refl | apply State.discLatch_keeps)

theorem State.tgPend_keeps {κ : Nat} {ζ s : State} (hk : Keeps κ ζ s) (t : Nat) (p : Option (Telegram × Nat)) :
    Keeps κ ζ (State.tgPend s t p) := by
  unfold State.tgPend
  repeat' with_reducible (first | assumption | apply EvKeeps.refl | apply State.setTgConn_keeps | apply State.putB_keeps | apply Keeps.lit)

theorem State.tgAccept_keeps {κ : Nat} {ζ s : State} (hk : Keeps κ ζ s) (t : Nat) (x : Telegram) :
    Keeps κ ζ (State.tgAccept s t x) := by
  unfold State.tgAccept
  try dsimp only
  repeat' with_reducible (first | assumption | apply EvKeeps.refl | apply State.tgPend_keeps | apply State.put_keeps | apply State.setTgConn_keeps | apply Keeps.lit)

theorem State.tgSingle_keeps {κ : Nat} {ζ s : State} (hk : Keeps κ ζ s) (t : Nat) (y : Telegram) :
    Keeps κ ζ (State.tgSingle s t y) := by
  unfold State.tgSingle
  try dsimp only
  repeat' with_reducible (first | assumption | apply Keeps.ite | apply State.errInc_keeps | apply State.pulse_keeps | apply State.put_keeps | apply State.tgPend_keeps | apply State.tgAccept_keeps)

theorem State.tgCopy_keeps {κ : Nat} {ζ s : State} (hk : Keeps κ ζ s) (t port : Nat) (x : Telegram) :
    Keeps κ ζ (State.tgCopy s t port x) := by
  unfold State.tgCopy
  try dsimp only
  repeat' with_reducible (first | assumption | apply Keeps.ite | apply KeepsP.ite | apply State.pulse_keeps | apply State.setWhiteout_keeps | apply State.errInc_keeps | apply State.tgAccept_keeps | apply State.put_keeps | apply State.tgPend_keeps | apply State.tgSingle_keeps | refine Keeps.of_fst ?_ (by assumption) | apply KeepsP.fst | split | apply KeepsP.mk)

theorem State.tgIn_keeps {κ : Nat} {ζ s : State} (hk : Keeps κ ζ s) (port : Nat) (x : Telegram) :
    Keeps κ ζ (State.tgIn s port x) := by
  unfold State.tgIn
  repeat' with_reducible (first | assumption | apply Keeps.ite | apply KeepsP.ite | apply State.xingBad_keeps | apply State.tgCopy_keeps | apply State.errInc_keeps | apply State.pulse_keeps | refine Keeps.of_fst ?_ (by assumption) | apply KeepsP.fst | split | apply KeepsP.mk)

theorem execTelegramCopy_keeps {κ : Nat} (s : State) (port : Fin 2) (copy : Telegram) : KeepsR κ s (execTelegramCopy port copy s) := by
  unfold execTelegramCopy
  apply KeepsR.done
  repeat' with_reducible (first | apply Keeps.refl | apply State.tgIn_keeps | apply State.setRx_keeps)

theorem State.tgWindow_keeps {κ : Nat} {ζ s : State} (hk : Keeps κ ζ s) (t : Nat) :
    Keeps κ ζ (State.tgWindow s t) := by
  unfold State.tgWindow
  repeat' with_reducible (first | assumption | apply State.tgSingle_keeps | refine Keeps.of_fst ?_ (by assumption) | apply KeepsP.fst | split | apply KeepsP.mk)

theorem execTelegramWindowExpiry_keeps {κ : Nat} (s : State) (conn : Fin 4) : KeepsR κ s (execTelegramWindowExpiry conn s) := by
  unfold execTelegramWindowExpiry
  apply KeepsR.done
  repeat' with_reducible (first | apply Keeps.refl | apply State.tgWindow_keeps)

theorem State.tgExpire_keeps {κ : Nat} {ζ s : State} (hk : Keeps κ ζ s) (t : Nat) :
    Keeps κ ζ (State.tgExpire s t) := by
  unfold State.tgExpire
  repeat' with_reducible (first | assumption | apply Keeps.ite | apply State.put_keeps | apply State.pulse_keeps | apply State.setWhiteout_keeps)

theorem execTelegramWatchdogExpiry_keeps {κ : Nat} (s : State) (conn : Fin 4) : KeepsR κ s (execTelegramWatchdogExpiry conn s) := by
  unfold execTelegramWatchdogExpiry
  apply KeepsR.done
  repeat' with_reducible (first | apply Keeps.refl | apply State.tgExpire_keeps)

theorem execLogicCopyDisagree_keeps {κ : Nat} (s : State) : KeepsR κ s (execLogicCopyDisagree s) := by
  unfold execLogicCopyDisagree
  apply KeepsR.done
  repeat' with_reducible (first | apply Keeps.refl | apply State.put_keeps | apply Win.put_keeps | apply State.setWhiteout_keeps | apply State.pulse_keeps)

end Sys2Proof.Machine
end

