-- ==== Sys2Proof/Laws/KeepsXlCmds.lean ====
section
/-! SUPPORT. What each operation of Machine/XlCmds.lean keeps. -/

namespace Sys2Proof.Machine

theorem State.xlRecv_keeps {κ : Nat} {ζ s : State} (hk : Keeps κ ζ s) (x : XlSeg) {f : State → State}
    (hf : ∀ t, Keeps κ ζ t → Keeps κ ζ (f t)) : Keeps κ ζ (State.xlRecv s x f) := by
  unfold State.xlRecv
  repeat' with_reducible (first | assumption | apply Keeps.ite | apply State.xingBad_keeps | apply hf)

theorem State.xlAlignOn_keeps {ζ s : State} (hk : Keeps 1 ζ s) (x : Nat) (h : XlHead) (m16 : Int) (role : Nat) :
    Keeps 1 ζ (State.xlAlignOn s x h m16 role) := by
  unfold State.xlAlignOn
  try dsimp only
  repeat' with_reducible (first | assumption | apply EvKeeps.refl | apply Keeps.ite | apply State.setLane_keeps | apply State.xlAlign_keeps | apply State.peerShows_keeps | apply EvKeeps.ite | apply Keeps.lit1)

theorem execXlAlignFrame_keeps (s : State) (lane : Fin 2) (head : XlHead) (m16 : Int) (role : BitVec 4) : KeepsR 1 s (execXlAlignFrame lane head m16 role s) := by
  unfold execXlAlignFrame
  apply KeepsR.done
  repeat' with_reducible (first | assumption | apply Keeps.refl | refine State.xlRecv_keeps ?_ _ (fun _ _ => ?_) | apply State.xlAlignOn_keeps)

theorem execXlInputFrame_keeps {κ : Nat} (s : State) (frame : XlInput) : KeepsR κ s (execXlInputFrame frame s) := by
  unfold execXlInputFrame
  apply KeepsR.done
  repeat' with_reducible (first | assumption | apply Keeps.refl | refine State.xlRecv_keeps ?_ _ (fun _ _ => ?_) | apply State.xlInput_keeps)

theorem execXlStateFrame_keeps (s : State) (frame : XlState) : KeepsR 1 s (execXlStateFrame frame s) := by
  unfold execXlStateFrame
  apply KeepsR.done
  repeat' with_reducible (first | assumption | apply Keeps.refl | refine State.xlRecv_keeps ?_ _ (fun _ _ => ?_) | apply State.xlState_keeps)

theorem execXlCopyFrame_keeps {κ : Nat} (s : State) (seg : XlSeg) (entries : List (Nat × Int)) (last : Bool) : KeepsR κ s (execXlCopyFrame seg entries last s) := by
  unfold execXlCopyFrame
  apply KeepsR.done
  repeat' with_reducible (first | assumption | apply Keeps.refl | refine State.xlRecv_keeps ?_ _ (fun _ _ => ?_) | apply State.xlCopy_keeps)

theorem State.regWrite_keeps {ζ s : State} (hk : Keeps 1 ζ s) (e : RegEntry) :
    Keeps 1 ζ (State.regWrite s e) := by
  unfold State.regWrite
  try dsimp only
  repeat' with_reducible (first | assumption | apply Keeps.ite | apply KeepsP.ite | apply State.offerBuf_keeps | apply State.immediate_keeps | refine Keeps.of_fst ?_ (by assumption) | apply KeepsP.fst | split | apply KeepsP.mk)

theorem State.regStaged_keeps {κ : Nat} {ζ s : State} (hk : Keeps κ ζ s) (e : RegEntry) :
    Keeps κ ζ (State.regStaged s e) := by
  unfold State.regStaged
  try dsimp only
  repeat' with_reducible (first | assumption | apply EvKeeps.refl | apply Keeps.ite | apply State.put_keeps | apply State.setTxn_keeps | apply EvKeeps.ite | apply Keeps.lit)

theorem State.regCommit_keeps {κ : Nat} {ζ s : State} (hk : Keeps κ ζ s) (e : RegEntry) :
    Keeps κ ζ (State.regCommit s e) := by
  unfold State.regCommit
  try dsimp only
  repeat' with_reducible (first | assumption | apply EvKeeps.refl | apply Keeps.ite | apply State.setTxn_keeps | apply State.put_keeps | apply EvKeeps.ite | apply Keeps.lit)

theorem State.regActivation_keeps {κ : Nat} {ζ s : State} (hk : Keeps κ ζ s) (e : RegEntry) :
    Keeps κ ζ (State.regActivation s e) := by
  unfold State.regActivation
  try dsimp only
  repeat' with_reducible (first | assumption | apply EvKeeps.refl | apply Keeps.ite | apply State.put_keeps | apply State.txActivate_keeps | apply State.setTxn_keeps | apply EvKeeps.ite | apply Keeps.lit)

theorem State.regRollback_keeps {κ : Nat} {ζ s : State} (hk : Keeps κ ζ s) :
    Keeps κ ζ (State.regRollback s) := by
  unfold State.regRollback
  repeat' with_reducible (first | assumption | apply EvKeeps.refl | apply Keeps.ite | apply State.setTxn_keeps | apply State.txAbort_keeps | apply EvKeeps.ite | apply Keeps.lit)

theorem State.regEntry_keeps {ζ s : State} (hk : Keeps 1 ζ s) (e : RegEntry) :
    Keeps 1 ζ (State.regEntry s e) := by
  unfold State.regEntry
  repeat' with_reducible (first | assumption | apply State.regWrite_keeps | apply State.regStaged_keeps | apply State.regCommit_keeps | apply State.regActivation_keeps | apply State.regRollback_keeps | refine Keeps.of_fst ?_ (by assumption) | apply KeepsP.fst | split | apply KeepsP.mk)

theorem State.xlReg_keeps {ζ s : State} (hk : Keeps 1 ζ s) (h : XlHead) (entries : List RegEntry) :
    Keeps 1 ζ (State.xlReg s h entries) := by
  unfold State.xlReg
  try dsimp only
  repeat' with_reducible (first | assumption | apply Keeps.ite | refine State.firstCopy_keeps ?_ _ (fun _ _ => ?_) | apply State.regEntry_keeps | refine Keeps.foldl (fun _ _ _ => ?_) ?_)

theorem execXlRegFrame_keeps (s : State) (seg : XlSeg) (entries : List RegEntry) : KeepsR 1 s (execXlRegFrame seg entries s) := by
  unfold execXlRegFrame
  apply KeepsR.done
  repeat' with_reducible (first | assumption | apply Keeps.refl | refine State.xlRecv_keeps ?_ _ (fun _ _ => ?_) | apply State.xlReg_keeps)

theorem execXlCtrlResign_keeps {κ : Nat} (s : State) (seg : XlSeg) : KeepsR κ s (execXlCtrlResign seg s) := by
  unfold execXlCtrlResign
  apply KeepsR.done
  repeat' with_reducible (first | assumption | apply Keeps.refl | apply Keeps.ite | refine State.xlRecv_keeps ?_ _ (fun _ _ => ?_) | refine State.firstCopy_keeps ?_ _ (fun _ _ => ?_) | apply State.peerResigned_keeps)

theorem State.ctrlSwap_keeps {κ : Nat} {ζ s : State} (hk : Keeps κ ζ s) (h : Nat) :
    Keeps κ ζ (State.ctrlSwap s h) := by
  unfold State.ctrlSwap
  repeat' with_reducible (first | assumption | apply EvKeeps.refl | apply Keeps.ite | apply EvKeeps.ite | apply Keeps.lit)

theorem execXlCtrlSwap_keeps {κ : Nat} (s : State) (seg : XlSeg) (boundary : Nat) : KeepsR κ s (execXlCtrlSwap seg boundary s) := by
  unfold execXlCtrlSwap
  apply KeepsR.done
  repeat' with_reducible (first | assumption | apply Keeps.refl | apply Keeps.ite | refine State.xlRecv_keeps ?_ _ (fun _ _ => ?_) | refine State.firstCopy_keeps ?_ _ (fun _ _ => ?_) | apply State.ctrlSwap_keeps)

theorem execXlBothLost_keeps {κ : Nat} (s : State) : KeepsR κ s (execXlBothLost s) := by
  unfold execXlBothLost
  apply KeepsR.done
  repeat' with_reducible (first | apply Keeps.refl | apply State.xlBothLost_keeps)

theorem State.noteStage_keeps {κ : Nat} {ζ s : State} (hk : Keeps κ ζ s) (c styp : Nat) (w : Word) :
    Keeps κ ζ (State.noteStage s c styp w) := by
  unfold State.noteStage
  try dsimp only
  repeat' with_reducible (first | assumption | apply EvKeeps.refl | apply Keeps.ite | apply State.setCell_keeps | apply EvKeeps.ite | apply Keeps.lit)

theorem State.noteCommand_keeps {κ : Nat} {ζ s : State} (hk : Keeps κ ζ s) (c : Nat) (ws : List Word) :
    Keeps κ ζ (State.noteCommand s c ws) := by
  unfold State.noteCommand
  try dsimp only
  repeat' with_reducible (first | assumption | apply EvKeeps.refl | apply Keeps.ite | apply State.setCell_keeps | apply State.put_keeps | apply State.noteStage_keeps | apply State.setTxn_keeps | apply EvKeeps.ite | apply Keeps.lit)

theorem State.commandRec_keeps {κ : Nat} {ζ s : State} (hk : Keeps κ ζ s) (l c : Nat) (recs : List GatherRec) :
    Keeps κ ζ (State.commandRec s l c recs) := by
  unfold State.commandRec
  repeat' with_reducible (first | assumption | apply Keeps.ite | apply KeepsP.ite | apply State.xingBad_keeps | apply State.noteCommand_keeps | apply State.errInc_keeps | refine Keeps.of_fst ?_ (by assumption) | apply KeepsP.fst | split | apply KeepsP.mk)

theorem State.commandIn_keeps {κ : Nat} {ζ s : State} (hk : Keeps κ ζ s) (l : Nat) (recs : List GatherRec) :
    Keeps κ ζ (State.commandIn s l recs) := by
  unfold State.commandIn
  try dsimp only
  repeat' with_reducible (first | assumption | apply EvKeeps.refl | apply Keeps.ite | apply State.commandRec_keeps | apply EvKeeps.ite | refine Keeps.foldl (fun _ _ _ => ?_) ?_ | apply Keeps.lit)

theorem execCommandFrameTerminate_keeps {κ : Nat} (s : State) (lane : LaneId) (recs : List GatherRec) : KeepsR κ s (execCommandFrameTerminate lane recs s) := by
  unfold execCommandFrameTerminate
  apply KeepsR.done
  repeat' with_reducible (first | apply Keeps.refl | apply State.commandIn_keeps)

end Sys2Proof.Machine
end

