-- ==== Sys2Proof/Laws/KeepsRedCmds.lean ====
section
/-! SUPPORT. What each operation of Machine/RedCmds.lean keeps. -/

namespace Sys2Proof.Machine

theorem execResignIChange_keeps {κ : Nat} (s : State) (level : Bool) : KeepsR κ s (execResignIChange level s) := by
  unfold execResignIChange
  apply KeepsR.done
  repeat' with_reducible (first | apply Keeps.refl | apply State.resignInput_keeps)

theorem execElectTimeout_keeps {κ : Nat} (s : State) : KeepsR κ s (execElectTimeout s) := by
  unfold execElectTimeout
  apply KeepsR.done
  repeat' with_reducible (first | apply Keeps.refl | apply State.electDone_keeps)

theorem execConflictTimeout_keeps {κ : Nat} (s : State) : KeepsR κ s (execConflictTimeout s) := by
  unfold execConflictTimeout
  apply KeepsR.done
  repeat' with_reducible (first | apply Keeps.refl | apply Keeps.ite | apply State.doResign_keeps)

theorem State.padDrop_keeps {κ : Nat} {ζ s : State} (hk : Keeps κ ζ s) :
    Keeps κ ζ (State.padDrop s) := by
  unfold State.padDrop
  repeat' with_reducible (first | assumption | apply EvKeeps.refl | apply Keeps.lit)

theorem execPadStrobeTimeout_keeps {κ : Nat} (s : State) : KeepsR κ s (execPadStrobeTimeout s) := by
  unfold execPadStrobeTimeout
  apply KeepsR.done
  repeat' with_reducible (first | apply Keeps.refl | apply State.padDrop_keeps)

theorem execResign_keeps {κ : Nat} (s : State) (cond : ResignCond) : KeepsR κ s (execResign cond s) := by
  unfold execResign
  apply KeepsR.done
  repeat' with_reducible (first | apply Keeps.refl | apply Keeps.ite | apply State.doResign_keeps | apply KeepsP.fst)

theorem State.launchGather_keeps {κ : Nat} {ζ s : State} (hk : Keeps κ ζ s) (l : Nat) :
    Keeps κ ζ (State.launchGather s l) := by
  unfold State.launchGather
  repeat' with_reducible (first | assumption | apply EvKeeps.refl | apply State.setLane_keeps | apply Keeps.lit)

theorem State.restartLv_keeps {κ : Nat} {ζ s : State} (hk : Keeps κ ζ s) :
    Keeps κ ζ (State.restartLv s) := by
  unfold State.restartLv
  repeat' with_reducible (first | assumption | apply State.dropScope_keeps | apply State.refreshAll_keeps)

theorem State.takeOver_keeps {κ : Nat} {ζ s : State} (hk : Keeps κ ζ s) :
    Keeps κ ζ (State.takeOver s) := by
  unfold State.takeOver
  try dsimp only
  repeat' with_reducible (first | assumption | apply Keeps.ite | apply State.txSwitch_keeps | apply State.startDriving_keeps | apply State.put_keeps | apply State.errInc_keeps | apply State.setWhiteout_keeps | apply State.restartLv_keeps | apply State.reloadAll_keeps | apply State.launchGather_keeps | apply State.pulse_keeps | refine Keeps.foldl (fun _ _ _ => ?_) ?_)

theorem execTakeover_keeps {κ : Nat} (s : State) : KeepsR κ s (execTakeover s) := by
  unfold execTakeover
  apply KeepsR.done
  repeat' with_reducible (first | apply Keeps.refl | apply State.takeOver_keeps)

theorem execRedModeWrite_keeps (s : State) (path : Path) (val compl : Word) : KeepsR 1 s (execRedModeWrite path val compl s) := by
  unfold execRedModeWrite
  apply KeepsR.done
  repeat' with_reducible (first | apply Keeps.refl | apply State.pairWrite_keeps)

theorem execRedResync_keeps (s : State) (path : Path) : KeepsR 1 s (execRedResync path s) := by
  unfold execRedResync
  apply KeepsR.done
  repeat' with_reducible (first | apply Keeps.refl | apply State.pathWrite_keeps)

theorem execRedSwap_keeps (s : State) (path : Path) : KeepsR 1 s (execRedSwap path s) := by
  unfold execRedSwap
  apply KeepsR.done
  repeat' with_reducible (first | apply Keeps.refl | apply State.pathWrite_keeps)

theorem State.swapDue_keeps {κ : Nat} {ζ s : State} (hk : Keeps κ ζ s) :
    Keeps κ ζ (State.swapDue s) := by
  unfold State.swapDue
  repeat' with_reducible (first | assumption | apply Keeps.ite | apply State.pulse_keeps)

theorem execSwapageDue_keeps {κ : Nat} (s : State) : KeepsR κ s (execSwapageDue s) := by
  unfold execSwapageDue
  apply KeepsR.done
  repeat' with_reducible (first | apply Keeps.refl | apply State.swapDue_keeps)

theorem execSliceReintegrated_keeps {κ : Nat} (s : State) (slice : Fin 3) : KeepsR κ s (execSliceReintegrated slice s) := by
  unfold execSliceReintegrated
  apply KeepsR.done
  repeat' with_reducible (first | apply Keeps.refl | apply State.sliceBack_keeps)

end Sys2Proof.Machine
end

