-- ==== Sys2Proof/Laws/KeepsBoundaryOps.lean ====
section
/-! SUPPORT. What each operation of Machine/BoundaryOps.lean keeps. -/

namespace Sys2Proof.Machine

theorem State.cellApply_keeps {κ : Nat} {ζ s : State} (hk : Keeps κ ζ s) (c : Nat) :
    Keeps κ ζ (State.cellApply s c) := by
  unfold State.cellApply
  try dsimp only
  repeat' with_reducible (first | assumption | apply EvKeeps.refl | apply Keeps.ite | apply State.setCell_keeps | apply EvKeeps.ite | apply Keeps.lit | apply EvKeeps.lit)

theorem State.loseCell_keeps {κ : Nat} {ζ s : State} (hk : Keeps κ ζ s) (c : Nat) :
    Keeps κ ζ (State.loseCell s c) := by
  unfold State.loseCell
  try dsimp only
  repeat' with_reducible (first | assumption | apply EvKeeps.refl | apply State.leaveTo_keeps | apply State.setCell_keeps | apply Keeps.lit)

theorem State.absentCell_keeps {κ : Nat} {ζ s : State} (hk : Keeps κ ζ s) (c : Nat) :
    Keeps κ ζ (State.absentCell s c) := by
  unfold State.absentCell
  repeat' with_reducible (first | assumption | apply State.setCState_keeps)

theorem State.readyCell_keeps {κ : Nat} {ζ s : State} (hk : Keeps κ ζ s) (c : Nat) :
    Keeps κ ζ (State.readyCell s c) := by
  unfold State.readyCell
  try dsimp only
  repeat' with_reducible (first | assumption | apply EvKeeps.refl | apply Keeps.ite | apply State.setCell_keeps | apply State.setCState_keeps | apply EvKeeps.ite | apply Keeps.lit)

theorem State.lossBoundary_keeps {κ : Nat} {ζ s : State} (hk : Keeps κ ζ s) (c : Nat) :
    Keeps κ ζ (State.lossBoundary s c) := by
  unfold State.lossBoundary
  try dsimp only
  repeat' with_reducible (first | assumption | apply Keeps.ite | apply State.absentCell_keeps | apply State.loseCell_keeps)

theorem State.losses_keeps {κ : Nat} {ζ s : State} (hk : Keeps κ ζ s) :
    Keeps κ ζ (State.losses s) := by
  unfold State.losses
  repeat' with_reducible (first | assumption | apply Keeps.ite | apply State.lossBoundary_keeps | refine Keeps.foldl (fun _ _ _ => ?_) ?_)

theorem State.cellBoundary_keeps {κ : Nat} {ζ s : State} (hk : Keeps κ ζ s) (c : Nat) :
    Keeps κ ζ (State.cellBoundary s c) := by
  unfold State.cellBoundary
  try dsimp only
  repeat' with_reducible (first | assumption | apply Keeps.ite | apply State.removeCell_keeps | apply State.readyCell_keeps)

theorem State.whiteoutBoundary_keeps {κ : Nat} {ζ s : State} (hk : Keeps κ ζ s) :
    Keeps κ ζ (State.whiteoutBoundary s) := by
  unfold State.whiteoutBoundary
  try dsimp only
  repeat' with_reducible (first | assumption | apply Keeps.ite | apply State.cellStopNow_keeps | apply State.put_keeps | refine Keeps.foldl (fun _ _ _ => ?_) ?_)

theorem State.alignCell_keeps {κ : Nat} {ζ s : State} (hk : Keeps κ ζ s) (l c : Nat) :
    Keeps κ ζ (State.alignCell s l c) := by
  unfold State.alignCell
  try dsimp only
  repeat' with_reducible (first | assumption | apply EvKeeps.refl | apply State.setCell_keeps | apply State.put_keeps | apply Keeps.lit)

theorem State.laneAlign_keeps {κ : Nat} {ζ s : State} (hk : Keeps κ ζ s) (l : Nat) :
    Keeps κ ζ (State.laneAlign s l) := by
  unfold State.laneAlign
  try dsimp only
  repeat' with_reducible (first | assumption | apply EvKeeps.refl | apply Keeps.ite | apply State.setLn_keeps | apply State.setLane_keeps | apply State.alignCell_keeps | apply EvKeeps.ite | refine Keeps.foldl (fun _ _ _ => ?_) ?_ | apply Keeps.lit)

theorem State.serveCell_keeps {κ : Nat} {ζ s : State} (hk : Keeps κ ζ s) (c : Nat) :
    Keeps κ ζ (State.serveCell s c) := by
  unfold State.serveCell
  try dsimp only
  repeat' with_reducible (first | assumption | apply Keeps.ite | apply State.enterBlocked_keeps)

theorem State.laneServe_keeps {κ : Nat} {ζ s : State} (hk : Keeps κ ζ s) (l : Nat) :
    Keeps κ ζ (State.laneServe s l) := by
  unfold State.laneServe
  try dsimp only
  repeat' with_reducible (first | assumption | apply EvKeeps.refl | apply Keeps.ite | apply State.setLn_keeps | apply State.setLane_keeps | apply State.serveCell_keeps | apply State.setCell_keeps | apply EvKeeps.ite | refine Keeps.foldl (fun _ _ _ => ?_) ?_ | apply Keeps.lit)

theorem State.laneBoundary_keeps {κ : Nat} {ζ s : State} (hk : Keeps κ ζ s) (l : Nat) :
    Keeps κ ζ (State.laneBoundary s l) := by
  unfold State.laneBoundary
  repeat' with_reducible (first | assumption | apply Keeps.ite | apply State.laneAlign_keeps | apply State.laneServe_keeps)

theorem State.launchAll_keeps {κ : Nat} {ζ s : State} (hk : Keeps κ ζ s) :
    Keeps κ ζ (State.launchAll s) := by
  unfold State.launchAll
  try dsimp only
  repeat' with_reducible (first | assumption | apply EvKeeps.refl | apply Keeps.ite | apply State.launchGather_keeps | apply State.setLane_keeps | apply EvKeeps.ite | refine Keeps.foldl (fun _ _ _ => ?_) ?_ | apply Keeps.lit)

theorem State.chopRestarts_keeps {κ : Nat} {ζ s : State} (hk : Keeps κ ζ s) :
    Keeps κ ζ (State.chopRestarts s) := by
  unfold State.chopRestarts
  try dsimp only
  repeat' with_reducible (first | assumption | apply Keeps.ite | apply State.reloadChan_keeps | refine Keeps.foldl (fun _ _ _ => ?_) ?_)

theorem State.holdCount_keeps {κ : Nat} {ζ s : State} (hk : Keeps κ ζ s) :
    Keeps κ ζ (State.holdCount s) := by
  unfold State.holdCount
  repeat' with_reducible (first | assumption | apply EvKeeps.refl | apply State.enterResigned_keeps | refine Keeps.of_fst ?_ (by assumption) | apply KeepsP.fst | split | apply KeepsP.mk | apply Keeps.lit)

theorem State.newPeriod_keeps {ζ s : State} (hk : Keeps 1 ζ s) :
    Keeps 1 ζ (State.newPeriod s) := by
  unfold State.newPeriod
  repeat' with_reducible (first | assumption | apply EvKeeps.refl | apply Keeps.lit1 | apply EvKeeps.lit)

theorem State.strobePad_keeps {κ : Nat} {ζ s : State} (hk : Keeps κ ζ s) :
    Keeps κ ζ (State.strobePad s) := by
  unfold State.strobePad
  repeat' with_reducible (first | assumption | apply EvKeeps.refl | apply Keeps.lit)

theorem State.swapBoundary_keeps {κ : Nat} {ζ s : State} (hk : Keeps κ ζ s) :
    Keeps κ ζ (State.swapBoundary s) := by
  unfold State.swapBoundary
  repeat' with_reducible (first | assumption | apply Keeps.ite | apply State.txSwitch_keeps | apply State.swapNow_keeps | apply State.restartLv_keeps)

theorem State.frameDrain_keeps {κ : Nat} {ζ s : State} (hk : Keeps κ ζ s) (on : State → Nat → Bool) :
    Keeps κ ζ (State.frameDrain s on) := by
  unfold State.frameDrain
  try dsimp only
  repeat' with_reducible (first | assumption | apply Keeps.ite | apply State.drain_keeps | refine Keeps.foldl (fun _ _ _ => ?_) ?_)

theorem State.boundaryDrain_keeps {κ : Nat} {ζ s : State} (hk : Keeps κ ζ s) (rl : List Nat) :
    Keeps κ ζ (State.boundaryDrain s rl) := by
  unfold State.boundaryDrain
  try dsimp only
  repeat' with_reducible (first | assumption | apply Keeps.ite | apply State.drain_keeps | apply State.frameDrain_keeps | refine Keeps.foldl (fun _ _ _ => ?_) ?_)

theorem State.plantBoundary_keeps {κ : Nat} {ζ s : State} (hk : Keeps κ ζ s) :
    Keeps κ ζ (State.plantBoundary s) := by
  unfold State.plantBoundary
  try dsimp only
  repeat' with_reducible (first | assumption | apply Keeps.ite | apply State.cellApply_keeps | apply State.stopBoundary_keeps | apply State.whiteoutBoundary_keeps | apply State.cellBoundary_keeps | apply State.laneBoundary_keeps | apply State.grantStarts_keeps | apply State.armGroups_keeps | refine Keeps.foldl (fun _ _ _ => ?_) ?_)

theorem State.runBoundary_keeps {κ : Nat} {ζ s : State} (hk : Keeps κ ζ s) :
    Keeps κ ζ (State.runBoundary s) := by
  unfold State.runBoundary
  try dsimp only
  repeat' with_reducible (first | assumption | apply EvKeeps.refl | apply State.chopPeriod_keeps | apply State.swapBoundary_keeps | apply State.losses_keeps | apply State.unitsBack_keeps | apply State.boundaryDrain_keeps | apply State.txBoundary_keeps | apply State.plantBoundary_keeps | apply State.chopResumes_keeps | apply State.reloadAll_keeps | apply State.chopRestarts_keeps | apply State.launchAll_keeps | apply State.lockStamp_keeps | apply State.sliceBoundary_keeps | apply State.windowBoundary_keeps | apply State.resetBoundary_keeps | apply State.strobePad_keeps | apply Keeps.lit | apply EvKeeps.lit)

theorem State.boundary_keeps {ζ s : State} (hk : Keeps 1 ζ s) :
    Keeps 1 ζ (State.boundary s) := by
  unfold State.boundary
  try dsimp only
  repeat' with_reducible (first | assumption | apply Keeps.ite | apply State.holdCount_keeps | apply State.breakRuns_keeps | apply State.newPeriod_keeps | apply State.runBoundary_keeps | apply State.lockStamp_keeps | apply State.windowBoundary_keeps)

end Sys2Proof.Machine
end

