-- ==== Sys2Proof/Laws/KeepsPeriodCmds.lean ====
section
/-! SUPPORT. What each operation of Machine/PeriodCmds.lean keeps. -/

namespace Sys2Proof.Machine

theorem execPeriodBoundary_keeps (s : State) : KeepsR 1 s (execPeriodBoundary s) := by
  unfold execPeriodBoundary
  apply KeepsR.done
  repeat' with_reducible (first | apply Keeps.refl | apply State.boundary_keeps)

theorem State.takeOwn_keeps {κ : Nat} {ζ s : State} (hk : Keeps κ ζ s) : Keeps κ ζ s.takeOwn.2 := by
  unfold State.takeOwn
  dsimp only
  split
  · exact hk
  · exact State.mapSnapshot_keeps hk

theorem State.noteInput_keeps {κ : Nat} {ζ s : State} (hk : Keeps κ ζ s) (b : Bool) :
    Keeps κ ζ (State.noteInput s b) := by
  unfold State.noteInput
  repeat' with_reducible (first | assumption | apply EvKeeps.refl | apply Keeps.lit)

theorem State.inputsNow_keeps {κ : Nat} {ζ s : State} (hk : Keeps κ ζ s) : Keeps κ ζ s.inputsNow.2 := by
  unfold State.inputsNow
  split
  · split <;> exact State.noteInput_keeps hk _
  · exact State.takeOwn_keeps hk

theorem State.inputCut_keeps {κ : Nat} {ζ s : State} (hk : Keeps κ ζ s) :
    Keeps κ ζ (State.inputCut s) := by
  unfold State.inputCut
  try dsimp only
  repeat' with_reducible (first | assumption | apply EvKeeps.refl | apply Keeps.ite | apply State.mapSnapshot_keeps | apply EvKeeps.ite | apply Keeps.lit | apply EvKeeps.lit)

theorem execStandbyInputCut_keeps {κ : Nat} (s : State) : KeepsR κ s (execStandbyInputCut s) := by
  unfold execStandbyInputCut
  apply KeepsR.done
  repeat' with_reducible (first | apply Keeps.refl | apply State.inputCut_keeps)

theorem State.eccReport_keeps {κ : Nat} {ζ s : State} (hk : Keeps κ ζ s) (r : EccReport) :
    Keeps κ ζ (State.eccReport s r) := by
  unfold State.eccReport
  try dsimp only
  repeat' with_reducible (first | assumption | apply Keeps.ite | apply State.errInc_keeps | apply State.pulse_keeps | apply State.minority_keeps)

theorem State.takeSnapshot_keeps {κ : Nat} {ζ s : State} (hk : Keeps κ ζ s) : Keeps κ ζ s.takeSnapshot := by
  have h := State.inputsNow_keeps hk
  unfold State.takeSnapshot
  dsimp only
  exact Keeps.lit h (EvKeeps.refl _)

theorem State.sendReg_keeps {ζ s : State} (hk : Keeps 1 ζ s) :
    Keeps 1 ζ (State.sendReg s) := by
  unfold State.sendReg
  try dsimp only
  repeat' with_reducible (first | assumption | apply EvKeeps.refl | apply Keeps.ite | apply State.takeHeld_keeps | apply State.takeWaiting_keeps | apply State.takeRequests_keeps | apply EvKeeps.ite | apply Keeps.lit1)

theorem State.stopCheck_keeps {κ : Nat} {ζ s : State} (hk : Keeps κ ζ s) :
    Keeps κ ζ (State.stopCheck s) := by
  unfold State.stopCheck
  repeat' with_reducible (first | assumption | apply Keeps.ite | apply State.stopBlock_keeps)

theorem State.snapshot_keeps {ζ s : State} (hk : Keeps 1 ζ s) (ecc : List EccReport) :
    Keeps 1 ζ (State.snapshot s ecc) := by
  unfold State.snapshot
  try dsimp only
  repeat' with_reducible (first | assumption | apply Keeps.ite | apply KeepsW.ite | apply State.frameDrain_keeps | apply State.openCells_keeps | apply State.eqStep_keeps | apply State.thmCells_keeps | apply State.thmLevel_keeps | apply State.takeSnapshot_keeps | apply State.chopEnergy_keeps | apply State.eccReport_keeps | apply State.computeWindow_keeps | apply State.stopCheck_keeps | apply State.txOpenCheck_keeps | apply State.sendReg_keeps | apply KeepsW.s | refine Keeps.foldl (fun _ _ _ => ?_) ?_ | refine KeepsW.foldl (fun _ _ _ => ?_) ?_ | apply KeepsW.mk)

theorem execInputSnapshot_keeps (s : State) (ecc : List EccReport) : KeepsR 1 s (execInputSnapshot ecc s) := by
  unfold execInputSnapshot
  apply KeepsR.done
  repeat' with_reducible (first | apply Keeps.refl | apply State.snapshot_keeps)

theorem State.stopTimeout_keeps {κ : Nat} {ζ s : State} (hk : Keeps κ ζ s) :
    Keeps κ ζ (State.stopTimeout s) := by
  unfold State.stopTimeout
  repeat' with_reducible (first | assumption | apply EvKeeps.refl | apply Keeps.ite | apply State.stopBlock_keeps | apply State.pulse_keeps | apply EvKeeps.ite | apply Keeps.lit | apply EvKeeps.lit)

theorem execGroupStopTimeout_keeps {κ : Nat} (s : State) : KeepsR κ s (execGroupStopTimeout s) := by
  unfold execGroupStopTimeout
  apply KeepsR.done
  repeat' with_reducible (first | apply Keeps.refl | apply State.stopTimeout_keeps)

theorem State.windowEnd_keeps {κ : Nat} {ζ s : State} (hk : Keeps κ ζ s) :
    Keeps κ ζ (State.windowEnd s) := by
  unfold State.windowEnd
  try dsimp only
  repeat' with_reducible (first | assumption | apply EvKeeps.refl | apply Keeps.ite | apply KeepsW.ite | apply State.publish_keeps | apply State.traceWindow_keeps | apply State.acqWindow_keeps | apply State.copyWrite_keeps | apply EvKeeps.ite | apply KeepsW.s | refine Keeps.foldl (fun _ _ _ => ?_) ?_ | refine KeepsW.foldl (fun _ _ _ => ?_) ?_ | apply KeepsW.mk | apply Keeps.lit)

theorem execWindowEnd_keeps {κ : Nat} (s : State) : KeepsR κ s (execWindowEnd s) := by
  unfold execWindowEnd
  apply KeepsR.done
  repeat' with_reducible (first | apply Keeps.refl | apply State.windowEnd_keeps)

theorem State.noteFinish_keeps {κ : Nat} {ζ s : State} (hk : Keeps κ ζ s) (v : SliceVote) :
    Keeps κ ζ (State.noteFinish s v) := by
  unfold State.noteFinish
  try dsimp only
  repeat' with_reducible (first | assumption | apply State.put_keeps)

theorem State.slackCheck_keeps {κ : Nat} {ζ s : State} (hk : Keeps κ ζ s) (votes : List SliceVote) :
    Keeps κ ζ (State.slackCheck s votes) := by
  unfold State.slackCheck
  try dsimp only
  repeat' with_reducible (first | assumption | apply EvKeeps.refl | apply Keeps.ite | apply State.follow_keeps | apply EvKeeps.ite | apply Keeps.lit | apply EvKeeps.lit)

theorem State.withhold_keeps {κ : Nat} {ζ s : State} (hk : Keeps κ ζ s) :
    Keeps κ ζ (State.withhold s) := by
  unfold State.withhold
  repeat' with_reducible (first | assumption | apply EvKeeps.refl | apply Keeps.lit | apply EvKeeps.lit)

theorem State.deadlineMiss_keeps {κ : Nat} {ζ s : State} (hk : Keeps κ ζ s) :
    Keeps κ ζ (State.deadlineMiss s) := by
  unfold State.deadlineMiss
  repeat' with_reducible (first | assumption | apply State.errInc_keeps | apply State.pulse_keeps | apply State.withhold_keeps)

theorem State.majorityLost_keeps {κ : Nat} {ζ s : State} (hk : Keeps κ ζ s) :
    Keeps κ ζ (State.majorityLost s) := by
  unfold State.majorityLost
  try dsimp only
  repeat' with_reducible (first | assumption | apply EvKeeps.refl | apply State.withhold_keeps | apply Keeps.lit | apply EvKeeps.lit)

theorem State.dirSlice0_keeps {κ : Nat} {ζ s : State} (hk : Keeps κ ζ s) (pstar : Int) :
    Keeps κ ζ (State.dirSlice0 s pstar) := by
  unfold State.dirSlice0
  repeat' with_reducible (first | assumption | apply Keeps.ite | apply KeepsP.ite | apply State.put_keeps | apply State.dirReport_keeps | apply KeepsP.fst)

theorem State.dabMean_keeps {κ : Nat} {ζ s : State} (hk : Keeps κ ζ s) (n g : Nat) :
    Keeps κ ζ (State.dabMean s n g) := by
  unfold State.dabMean
  try dsimp only
  repeat' with_reducible (first | assumption | apply State.wr_keeps)

theorem State.useSlice0_keeps {κ : Nat} {ζ s : State} (hk : Keeps κ ζ s) (votes : List SliceVote) :
    Keeps κ ζ (State.useSlice0 s votes) := by
  unfold State.useSlice0
  try dsimp only
  repeat' with_reducible (first | assumption | apply Keeps.ite | apply KeepsP.ite | apply State.wr_keeps | apply State.put_keeps | apply State.dirSlice0_keeps | apply State.dabGroup_keeps | apply State.dabMean_keeps | apply State.isoSum_keeps | refine Keeps.foldl (fun _ _ _ => ?_) ?_ | refine Keeps.foldlP (fun _ _ _ => ?_) ?_ | refine Keeps.of_fst ?_ (by assumption) | apply KeepsP.fst | split | apply KeepsP.mk)

theorem State.perfCheck_keeps {κ : Nat} {ζ s : State} (hk : Keeps κ ζ s) (votes : List SliceVote) :
    Keeps κ ζ (State.perfCheck s votes) := by
  unfold State.perfCheck
  try dsimp only
  repeat' with_reducible (first | assumption | apply Keeps.ite | apply State.useSlice0_keeps | apply State.pulse_keeps | apply State.deadlineMiss_keeps)

theorem State.sliceLate_keeps {κ : Nat} {ζ s : State} (hk : Keeps κ ζ s) (n : Nat) :
    Keeps κ ζ (State.sliceLate s n) := by
  unfold State.sliceLate
  repeat' with_reducible (first | assumption | apply State.pulse_keeps | apply State.minority_keeps)

theorem State.voteItems_keeps {κ : Nat} {ζ s : State} (hk : Keeps κ ζ s) (votes : List SliceVote) :
    Keeps κ ζ (State.voteItems s votes) := by
  unfold State.voteItems
  try dsimp only
  repeat' with_reducible (first | assumption | apply Keeps.ite | apply KeepsP.ite | apply State.majorityLost_keeps | apply State.minority_keeps | refine Keeps.of_fst ?_ (by assumption) | apply KeepsP.fst | split | apply KeepsP.mk)

theorem State.triplexVote_keeps {κ : Nat} {ζ s : State} (hk : Keeps κ ζ s) (votes : List SliceVote) :
    Keeps κ ζ (State.triplexVote s votes) := by
  unfold State.triplexVote
  try dsimp only
  repeat' with_reducible (first | assumption | apply Keeps.ite | apply State.deadlineMiss_keeps | apply State.sliceLate_keeps | apply State.voteItems_keeps | refine Keeps.foldl (fun _ _ _ => ?_) ?_)

theorem State.allocatorStart_keeps {κ : Nat} {ζ s : State} (hk : Keeps κ ζ s) (votes : List SliceVote) :
    Keeps κ ζ (State.allocatorStart s votes) := by
  unfold State.allocatorStart
  try dsimp only
  repeat' with_reducible (first | assumption | apply EvKeeps.refl | apply Keeps.ite | apply State.noteFinish_keeps | apply State.slackCheck_keeps | apply State.perfCheck_keeps | apply State.triplexVote_keeps | apply State.allocate_keeps | apply EvKeeps.ite | refine Keeps.foldl (fun _ _ _ => ?_) ?_ | apply Keeps.lit | apply EvKeeps.lit)

theorem execAllocatorStart_keeps {κ : Nat} (s : State) (votes : List SliceVote) : KeepsR κ s (execAllocatorStart votes s) := by
  unfold execAllocatorStart
  apply KeepsR.done
  repeat' with_reducible (first | apply Keeps.refl | apply State.allocatorStart_keeps)

theorem State.launchFrames_keeps {κ : Nat} {ζ s : State} (hk : Keeps κ ζ s) :
    Keeps κ ζ (State.launchFrames s) := by
  unfold State.launchFrames
  try dsimp only
  repeat' with_reducible (first | assumption | apply EvKeeps.refl | apply Keeps.ite | apply State.sendRecord_keeps | apply EvKeeps.ite | refine Keeps.foldl (fun _ _ _ => ?_) ?_ | apply Keeps.lit)

theorem State.sendState_keeps {κ : Nat} {ζ s : State} (hk : Keeps κ ζ s) :
    Keeps κ ζ (State.sendState s) := by
  unfold State.sendState
  repeat' with_reducible (first | assumption | apply EvKeeps.refl | apply Keeps.ite | apply EvKeeps.ite | apply Keeps.lit)

theorem State.launch_keeps {κ : Nat} {ζ s : State} (hk : Keeps κ ζ s) :
    Keeps κ ζ (State.launch s) := by
  unfold State.launch
  try dsimp only
  repeat' with_reducible (first | assumption | apply EvKeeps.refl | apply Keeps.ite | apply State.launchFrames_keeps | apply State.txLaunched_keeps | apply State.lvCommit_keeps | apply State.pumpCommit_keeps | apply State.sendState_keeps | apply EvKeeps.ite | apply Keeps.lit | apply EvKeeps.lit)

theorem execCommandLaunch_keeps {κ : Nat} (s : State) : KeepsR κ s (execCommandLaunch s) := by
  unfold execCommandLaunch
  apply KeepsR.done
  repeat' with_reducible (first | apply Keeps.refl | apply State.launch_keeps)

end Sys2Proof.Machine
end

