-- ==== Sys2Proof/Laws/Lv.lean ====
section
/-! SUPPORT. What forming the LV outputs writes, and that a channel that something drives low is low. -/

namespace Sys2Proof.Machine

/-- Outside the LVS registers, the engine states of the channels and the occurrences noted, two states agree. -/
structure LvSame (s t : State) : Prop where
  rd : ∀ a, a < 0x80000 ∨ 0x88000 ≤ a → t.rd a = s.rd a
  rest : ∃ r e c, t = { s with regs := r, evt := { s.evt with raised := e }, chans := c }

theorem LvSame.refl (s : State) : LvSame s s := ⟨fun _ _ => rfl, s.regs, s.evt.raised, s.chans, rfl⟩

theorem LvSame.trans {s t u : State} (h : LvSame s t) (g : LvSame t u) : LvSame s u := by
  refine ⟨fun a ha => (g.rd a ha).trans (h.rd a ha), ?_⟩
  obtain ⟨r, e, c, rfl⟩ := h.rest
  obtain ⟨r', e', c', rfl⟩ := g.rest
  exact ⟨r', e', c', rfl⟩

theorem LvSame.get {s t : State} (h : LvSame s t) (f : Fld) (i j : Nat) (ha : f.addr i j < 0x80000 ∨ 0x88000 ≤ f.addr i j) :
    t.get f i j = s.get f i j := by simp only [State.get, h.rd _ ha]

theorem LvSame.foldl {α : Type} {f : State → α → State} (l : List α) (hf : ∀ t, ∀ x ∈ l, LvSame t (f t x)) (s : State) :
    LvSame s (l.foldl f s) := by
  induction l generalizing s with
  | nil => exact .refl s
  | cons x l ih =>
    exact (hf s x List.mem_cons_self).trans (ih (fun t y hy => hf t y (List.mem_cons_of_mem _ hy)) _)

theorem LvSame.setChan (s : State) (n : Nat) (x : Chan) : LvSame s (s.setChan n x) := ⟨fun _ _ => rfl, s.regs, s.evt.raised, _, rfl⟩

theorem LvSame.put (s : State) (f : Fld) (v i j : Nat) (h : 0x80000 ≤ f.addr i j ∧ f.addr i j < 0x88000) :
    LvSame s (s.put f v i j) :=
  ⟨fun a ha => State.rd_put_ne _ _ _ (by omega), _, s.evt.raised, s.chans, rfl⟩

theorem LvSame.pulse (s : State) (ev c0 c1 : Nat) : LvSame s (s.pulse ev c0 c1) := ⟨fun _ _ => rfl, s.regs, _, s.chans, rfl⟩

theorem LvSame.ite {s x y : State} {c : Prop} [Decidable c] (hx : LvSame s x) (hy : LvSame s y) : LvSame s (if c then x else y) := by
  split <;> assumption

theorem LvSame.errInc (s : State) (f : Fld) (e i j : Nat) (h : 0x80000 ≤ f.addr i j ∧ f.addr i j < 0x88000) :
    LvSame s (s.errInc f e i j) := by
  unfold State.errInc
  dsimp only
  exact .ite (.refl s) (.ite ((LvSame.put s f _ i j h).trans (.pulse _ _ _ _)) (.put s f _ i j h))

theorem LvSame.rejectCt (s : State) (n : Nat) (h : n < 18) : LvSame s (s.rejectCt n) := by
  unfold State.rejectCt
  dsimp only
  exact (((LvSame.put _ _ _ _ _ (by simp only [Fld.addr, F.LVS_PWM_STAT_SHOOT_REJ]; omega)).trans
    (.errInc _ _ _ _ _ (by simp only [Fld.addr, F.LVS_REJCNT_COUNT]; omega))).trans (.setChan _ _ _)).trans (.pulse _ _ _ _)

theorem LvSame.setPins (s : State) (n : Nat) (x y : Bool) (h : n < 18) : LvSame s (s.setPins n x y) := by
  unfold State.setPins
  dsimp only
  exact (LvSame.setChan _ _ _).trans (.put _ _ _ _ _ (by simp only [Fld.addr, F.LVS_PWM_STAT_HIGHNOW]; omega))

theorem LvSame.refresh (s : State) (n : Nat) (h : n < 18) : LvSame s (s.refresh n) := by
  unfold State.refresh
  dsimp only
  refine LvSame.trans ?_ (.put _ _ _ _ _ (by simp only [Fld.addr, F.LVS_STAT_LOW]; omega))
  refine LvSame.trans ?_ (.put _ _ _ _ _ (by simp only [Fld.addr, F.LVS_PWM_STAT_TRIPPED]; omega))
  refine LvSame.trans ?_ (.setPins _ _ _ _ h)
  exact .ite (.ite (.refl s) (.rejectCt s n h)) (.setChan _ _ _)

/-- Forming every output touches the LVS registers and the channels alone. -/
theorem LvSame.refreshAll (s : State) : LvSame s s.refreshAll :=
  LvSame.foldl _ (fun t n hn => .refresh t n (List.mem_range.mp hn)) s

theorem LvSame.dropChan (s : State) (n : Nat) : LvSame s (s.dropChan n) := .setChan _ _ _

theorem LvSame.dropScope (s : State) (m : Nat) : LvSame s (s.dropScope m) :=
  LvSame.foldl _ (fun t n _ => .dropChan t n) s

/-! ### A channel that is held low -/

/-- Something outside the channel's pins holds it low: whiteout, a head that does not drive, or a restart still to come outside a hold. -/
def State.mustLow (s : State) (n : Nat) : Bool := s.whiteout || !s.driving || ((s.chan n).restart && !s.frozen n)

theorem LvSame.whiteout {s t : State} (h : LvSame s t) : t.whiteout = s.whiteout := by
  simp only [State.whiteout, State.flag]
  rw [h.get _ _ _ (by decide)]

theorem LvSame.driving {s t : State} (h : LvSame s t) : t.driving = s.driving := by
  have p : t.pins = s.pins := by obtain ⟨r, e, c, rfl⟩ := h.rest; rfl
  simp only [State.driving, p]
  rw [h.get F.SEC_STATE_HSTATE _ _ (by decide), h.get F.RED_STAT_ROLE _ _ (by decide)]

theorem LvSame.frozen {s t : State} (h : LvSame s t) (n : Nat) : t.frozen n = s.frozen n := by
  have p : t.gdi = s.gdi := by obtain ⟨r, e, c, rfl⟩ := h.rest; rfl
  simp only [State.frozen, State.flag, p]
  rw [h.get _ _ _ (by decide)]

theorem State.mustLow_heldLow {s : State} {n : Nat} (h : s.mustLow n = true) : s.heldLow n = true := by
  simp only [State.mustLow, Bool.or_eq_true, Bool.and_eq_true] at h
  simp only [State.heldLow, State.hardLow, State.softLow, Bool.or_eq_true, Bool.and_eq_true]
  rcases h with (h | h) | ⟨h, f⟩
  · exact .inl (.inl (.inl (.inr h)))
  · exact .inl (.inl (.inr h))
  · exact .inr ⟨.inl (.inr h), f⟩

theorem State.putBit_chan' (s : State) (f : Fld) (b : Nat) (v : Bool) (i j n : Nat) : (s.putBit f b v i j).chan n = s.chan n := rfl

theorem State.errInc_chan (s : State) (f : Fld) (e i j n : Nat) : (s.errInc f e i j).chan n = s.chan n := by
  unfold State.errInc
  dsimp only
  split
  · rfl
  · split <;> rfl

theorem State.rejectCt_chan (s : State) (m n : Nat) : (s.rejectCt m).chan n =
    if n = m then { s.chan m with rejecting := true, rejNow := true } else s.chan n := by
  unfold State.rejectCt
  simp only [State.pulse_chan]
  split
  · next h => subst h; rw [State.chan_setChan_same, State.errInc_chan, State.put_chan]
  · next h => rw [State.chan_setChan_ne _ _ h, State.errInc_chan, State.put_chan]

/-- Forming one channel's outputs leaves the other channels. -/
theorem State.refresh_chan_ne (s : State) {m n : Nat} (h : n ≠ m) : (s.refresh m).chan n = s.chan n := by
  unfold State.refresh
  dsimp only
  simp only [State.putBit_chan, State.putB_chan, State.setPins, State.chan_setChan_ne _ _ h]
  split
  · split
    · rfl
    · rw [State.rejectCt_chan, if_neg h]
  · exact State.chan_setChan_ne _ _ h

/-- The two pins of a channel that must be low are low once its outputs are formed, and a restart stays due. -/
theorem State.refresh_low (s : State) {n : Nat} (hn : n < 18) (h : s.mustLow n = true) :
    ((s.refresh n).chan n).outH = false ∧ ((s.refresh n).chan n).outL = false ∧
      ((s.refresh n).chan n).restart = (s.chan n).restart := by
  unfold State.refresh
  dsimp only
  generalize ht : (if (isPair n && (s.drives n).1 && (s.drives n).2) = true then if (s.chan n).rejNow = true then s else s.rejectCt n
    else s.setChan n { s.chan n with rejNow := false }) = t
  have hs : LvSame s t := by
    rw [← ht]; exact .ite (.ite (.refl s) (.rejectCt s n hn)) (.setChan _ _ _)
  have hr : (t.chan n).restart = (s.chan n).restart := by
    rw [← ht]
    split
    · split
      · rfl
      · rw [State.rejectCt_chan, if_pos rfl]
    · rw [State.chan_setChan_same]
  have hl : t.heldLow n = true := by
    apply State.mustLow_heldLow
    simp only [State.mustLow, hs.whiteout, hs.driving, hs.frozen, hr]
    exact h
  simp only [State.putBit_chan, State.putB_chan, State.setPins, State.chan_setChan_same, hl, Bool.true_or, Bool.not_true,
    Bool.false_and, hr, and_self]

/-- Every channel that must be low is low once all outputs are formed. -/
theorem State.refreshAll_low (s : State) {n : Nat} (hn : n < 18) (h : s.mustLow n = true) :
    (s.refreshAll.chan n).outH = false ∧ (s.refreshAll.chan n).outL = false := by
  have key : ∀ (l : List Nat) (t : State), (∀ m ∈ l, m < 18) → l.Nodup → t.mustLow n = true →
      (n ∈ l ∨ ((t.chan n).outH = false ∧ (t.chan n).outL = false)) →
      ((l.foldl State.refresh t).chan n).outH = false ∧ ((l.foldl State.refresh t).chan n).outL = false := by
    intro l
    induction l with
    | nil => intro t _ _ _ h; simpa using h
    | cons m l ih =>
      intro t hb hd ht ho
      have hm := hb m List.mem_cons_self
      have ls := LvSame.refresh t m hm
      rw [List.foldl_cons]
      refine ih _ (fun k hk => hb k (List.mem_cons_of_mem _ hk)) (List.nodup_cons.mp hd).2 ?_ ?_
      · simp only [State.mustLow, ls.whiteout, ls.driving, ls.frozen] at ht ⊢
        by_cases e : n = m
        · subst e
          rw [(State.refresh_low t hn (by simpa only [State.mustLow] using ht)).2.2]; exact ht
        · rw [State.refresh_chan_ne t e]; exact ht
      · by_cases e : n = m
        · subst e
          have := State.refresh_low t hn ht
          exact .inr ⟨this.1, this.2.1⟩
        · rcases ho with ho | ho
          · exact .inl ((List.mem_cons.mp ho).resolve_left e)
          · exact .inr (by rw [State.refresh_chan_ne t e]; exact ho)
  exact key _ s (fun m hm => List.mem_range.mp hm) List.nodup_range h (.inl (List.mem_range.mpr hn))

end Sys2Proof.Machine
end

