-- ==== Sys2Proof/Laws/Out.lean ====
section
/-! SUPPORT. What driving every output low writes (R333, R431): registers of the LVS and GDI blocks, the channels, the pump and its
place in the start budget. -/

namespace Sys2Proof.Machine

/-- Outside the LVS and GDI registers, the channels, the start budget, the pump and the occurrences noted, two states agree. -/
structure OutSame (s t : State) : Prop where
  rd : ∀ a, a < 0x80000 ∨ 0x90000 ≤ a → t.rd a = s.rd a
  rest : ∃ r e c b p, t = { s with regs := r, evt := { s.evt with raised := e }, chans := c, budget := b, pump := p }

theorem LvSame.out {s t : State} (h : LvSame s t) : OutSame s t := by
  refine ⟨fun a ha => h.rd a (by omega), ?_⟩
  obtain ⟨r, e, c, rfl⟩ := h.rest
  exact ⟨r, e, c, s.budget, s.pump, rfl⟩

theorem OutSame.trans {s t u : State} (h : OutSame s t) (g : OutSame t u) : OutSame s u := by
  refine ⟨fun a ha => (g.rd a ha).trans (h.rd a ha), ?_⟩
  obtain ⟨r, e, c, b, p, rfl⟩ := h.rest
  obtain ⟨r', e', c', b', p', rfl⟩ := g.rest
  exact ⟨r', e', c', b', p', rfl⟩

theorem OutSame.put (s : State) (f : Fld) (v i j : Nat) (h : 0x80000 ≤ f.addr i j ∧ f.addr i j < 0x90000) :
    OutSame s (s.put f v i j) :=
  ⟨fun a ha => State.rd_wr_ne _ _ (by omega), _, s.evt.raised, s.chans, s.budget, s.pump, rfl⟩

theorem OutSame.withPump (s : State) (p : Pump) : OutSame s { s with pump := p } :=
  ⟨fun _ _ => rfl, s.regs, s.evt.raised, s.chans, s.budget, p, rfl⟩

theorem OutSame.pulse (s : State) (ev c0 c1 : Nat) : OutSame s (s.pulse ev c0 c1) :=
  ⟨fun _ _ => rfl, s.regs, _, s.chans, s.budget, s.pump, rfl⟩

theorem OutSame.setPump (s : State) (st : Nat) : OutSame s (s.setPump st) := by
  unfold State.setPump
  dsimp only
  exact (OutSame.put s F.GDI_PUSTAT_STATE st 0 0 (by decide)).trans (.withPump _ _)

theorem OutSame.setBrk (s : State) (b : Bool) : OutSame s (s.setBrk b) := by
  unfold State.setBrk
  dsimp only
  have h := OutSame.put s F.GDI_PUSTAT_BRK b.toNat 0 0 (by decide)
  split
  · exact h.trans (.pulse _ _ _ _)
  · exact h

theorem OutSame.pumpUnqueue (s : State) : OutSame s s.pumpUnqueue :=
  ⟨fun _ _ => rfl, s.regs, s.evt.raised, s.chans, _, s.pump, rfl⟩

/-- The last stage of `resignOutputs`: every channel is dropped. -/
theorem LvSame.dropAll (s : State) : LvSame s (s.dropScope (2 ^ 18 - 1)).refreshAll :=
  (LvSame.dropScope s _).trans (LvSame.refreshAll _)

theorem State.dropChan_chan (s : State) (m n : Nat) : (s.dropChan m).chan n =
    if n = m then { s.chan n with restart := true, dH := false, dL := false } else s.chan n := by
  unfold State.dropChan
  split
  · next h => subst h; rw [State.chan_setChan_same]
  · next h => rw [State.chan_setChan_ne _ _ h]

/-- A channel of the scope restarts at its next reload; the others stay. -/
theorem State.dropScope_chan (s : State) (m n : Nat) : (s.dropScope m).chan n =
    if n < 18 ∧ m.testBit n = true then { s.chan n with restart := true, dH := false, dL := false } else s.chan n := by
  have key : ∀ (l : List Nat) (t : State), l.Nodup → (l.foldl State.dropChan t).chan n =
      if n ∈ l then { t.chan n with restart := true, dH := false, dL := false } else t.chan n := by
    intro l
    induction l with
    | nil => intro t _; simp
    | cons k l ih =>
      intro t hd
      obtain ⟨h1, h2⟩ := List.nodup_cons.mp hd
      rw [List.foldl_cons, ih _ h2, State.dropChan_chan]
      by_cases e : n = k
      · subst e; simp [h1]
      · simp [e]
  unfold State.dropScope
  rw [key _ _ (List.nodup_range.filter _)]
  simp [List.mem_filter, List.mem_range]

/-- Every channel dropped: a pin that no hold keeps, or that whiteout or a head that does not drive overrides, is low. -/
theorem State.dropAll_low (s : State) {n : Nat} (hn : n < 18) (h : s.whiteout = true ∨ s.driving = false ∨ s.frozen n = false) :
    ((s.dropScope (2 ^ 18 - 1)).refreshAll.chan n).outH = false ∧ ((s.dropScope (2 ^ 18 - 1)).refreshAll.chan n).outL = false := by
  apply State.refreshAll_low _ hn
  have ls := LvSame.dropScope s (2 ^ 18 - 1)
  simp only [State.mustLow, ls.whiteout, ls.driving, ls.frozen, State.dropScope_chan, Bool.or_eq_true, Bool.and_eq_true,
    Bool.not_eq_true']
  have : (2 ^ 18 - 1).testBit n = true := by
    have : ∀ k : Fin 18, (2 ^ 18 - 1).testBit k.val = true := by decide
    exact this ⟨n, hn⟩
  rw [if_pos ⟨hn, this⟩]
  rcases h with h | h | h
  · exact .inl (.inl h)
  · exact .inl (.inr h)
  · exact .inr ⟨rfl, h⟩

/-- What every output driven low keeps. -/
theorem OutSame.resignOutputs (s : State) : OutSame s s.resignOutputs := by
  unfold State.resignOutputs
  dsimp only
  have h0 : LvSame s ((List.range 18).foldl (fun (t : State) n => t.put F.LVS_PWM_STAT_FORCE 0 n) (s.put F.LVS_STAT_FORCED 0)) :=
    (LvSame.put s _ _ _ _ (by decide)).trans (LvSame.foldl _ (fun t x hx => LvSame.put t _ _ _ _ (by
      have := List.mem_range.mp hx
      simp only [Fld.addr, F.LVS_PWM_STAT_FORCE]
      omega)) _)
  have h1 := (((h0.out.trans (.pumpUnqueue _)).trans (.setPump _ (if s.puState = pumpLatched then pumpLatched else pumpOff))).trans
    (.setBrk _ false)).trans (.put _ F.GDI_RETRYSTAT_WAITING 0 0 0 (by decide))
  exact h1.trans ((OutSame.withPump _ _).trans (LvSame.dropAll _).out)

theorem OutSame.driving {s t : State} (h : OutSame s t) : t.driving = s.driving := by
  have p : t.pins = s.pins := by obtain ⟨r, e, c, b, q, rfl⟩ := h.rest; rfl
  simp only [State.driving, State.get, p]
  rw [h.rd _ (by decide), h.rd _ (by decide)]

/-- After `resignOutputs` of a head that does not drive every LV pin is low. -/
theorem State.resignOutputs_low (s : State) (h : s.driving = false) {n : Nat} (hn : n < 18) :
    (s.resignOutputs.chan n).outH = false ∧ (s.resignOutputs.chan n).outL = false := by
  have d := (OutSame.resignOutputs s).driving
  unfold State.resignOutputs at d ⊢
  dsimp only at d ⊢
  rw [((LvSame.dropAll _).driving), h] at d
  exact State.dropAll_low _ hn (.inr (.inl d))

theorem State.setBrk_state (s : State) (b : Bool) : (s.setBrk b).get F.GDI_PUSTAT_STATE = s.get F.GDI_PUSTAT_STATE := by
  have h : (s.putB F.GDI_PUSTAT_BRK b).get F.GDI_PUSTAT_STATE = s.get F.GDI_PUSTAT_STATE :=
    State.get_put_bits _ _ _ _ _ _ _ _ (by decide) (by decide) (by decide)
  unfold State.setBrk
  dsimp only
  split
  · unfold State.pulse
    rw [State.get_mk, h]
  · exact h

theorem State.setPump_state (s : State) (st : Nat) (h : st < 8) : (s.setPump st).get F.GDI_PUSTAT_STATE = st := by
  unfold State.setPump
  dsimp only
  rw [State.get_mk, State.get_put_same _ _ _ _ _ (by decide)]
  exact Nat.mod_eq_of_lt (Nat.lt_of_lt_of_le h (by decide))

/-- The pump is off or LATCHED with no brake on: its gates are off. -/
theorem State.gates_off (s : State) (h : s.get F.GDI_PUSTAT_STATE = pumpOff ∨ s.get F.GDI_PUSTAT_STATE = pumpLatched)
    (hb : s.pump.ovBrake = false) : s.pumpGates = (0, 0) := by
  have d : s.pumpDrives = false := by rcases h with h | h <;> rw [State.pumpDrives, h] <;> rfl
  have r : s.pumpRoles = (0, 0) := by
    rw [State.pumpRoles, d, hb]
    rcases h with h | h <;> rw [h] <;> rfl
  rw [State.pumpGates, r, d]
  rfl

/-- After `resignOutputs` the gates of the pump are off, LATCHED or not. -/
theorem State.resignOutputs_gates (s : State) : s.resignOutputs.pumpGates = (0, 0) := by
  unfold State.resignOutputs
  dsimp only
  generalize hx : ((List.range 18).foldl (fun (t : State) n => t.put F.LVS_PWM_STAT_FORCE 0 n)
    (s.put F.LVS_STAT_FORCED 0)).pumpUnqueue = x
  generalize hp : (if s.puState = pumpLatched then pumpLatched else pumpOff) = st
  have hst : st = pumpOff ∨ st = pumpLatched := by rw [← hp]; split <;> simp
  have h0 : (((x.setPump st).setBrk false).put F.GDI_RETRYSTAT_WAITING 0 0).get F.GDI_PUSTAT_STATE = st := by
    have e : (((x.setPump st).setBrk false).put F.GDI_RETRYSTAT_WAITING 0 0).get F.GDI_PUSTAT_STATE =
        ((x.setPump st).setBrk false).get F.GDI_PUSTAT_STATE := State.get_put_addr _ _ _ _ _ _ _ _ (by decide)
    rw [e, State.setBrk_state, State.setPump_state _ _ (by rcases hst with h | h <;> rw [h] <;> decide)]
  generalize ((x.setPump st).setBrk false).put F.GDI_RETRYSTAT_WAITING 0 0 = z at h0
  apply State.gates_off
  · rw [(LvSame.dropAll _).get _ _ _ (by decide), State.get_mk, h0]; exact hst
  · obtain ⟨_, _, _, e⟩ := (LvSame.dropAll _).rest
    rw [e]

end Sys2Proof.Machine
end

