-- ==== Sys2Proof/Laws/Reset.lean ====
section
/-! SUPPORT. What a reset leaves. -/

namespace Sys2Proof.Machine

set_option maxRecDepth 100000 in
theorem resetWord_count : ∀ e : Fin 1024, resetWord (F.EVT_CNT_CNT.addr e.val) = 0 := by decide +kernel

theorem leValue_lt (l : List Byte) : leValue l < 256 ^ l.length := by
  induction l with
  | nil => simp [leValue]
  | cons b l ih =>
    simp only [leValue, List.length_cons, Nat.pow_succ]
    have := b.isLt
    omega

/-- The counts that a reset brings back from MRAM, and what else of the event block it leaves alone. -/
theorem mramCounts_fold (s : State) (l : List Nat) (e : Evt) :
    let e' := l.foldl (fun (e : Evt) n => if s.mramCount n = 0 then e else e.wr (F.EVT_CNT_CNT.addr n) (s.mramCount n)) e
    e'.queue = e.queue ∧ e'.raised = e.raised ∧ e'.woReq = e.woReq ∧ e'.resignReq = e.resignReq ∧
      e'.notifies = e.notifies ∧ ∀ n, e'.rd (F.EVT_CNT_CNT.addr n) =
        if n ∈ l ∧ s.mramCount n ≠ 0 then s.mramCount n else e.rd (F.EVT_CNT_CNT.addr n) := by
  induction l generalizing e with
  | nil => simp
  | cons x l ih =>
    simp only [List.foldl_cons]
    split
    · next h =>
      obtain ⟨a, b, c, d, z, r⟩ := ih e
      refine ⟨a, b, c, d, z, fun n => (r n).trans ?_⟩
      by_cases hn : n = x
      · subst hn; simp [h]
      · simp [hn]
    · next h =>
      obtain ⟨a, b, c, d, z, r⟩ := ih (e.wr (F.EVT_CNT_CNT.addr x) (s.mramCount x))
      refine ⟨a, b, c, d, z, fun n => (r n).trans ?_⟩
      by_cases hn : n = x
      · subst hn
        rw [Evt.rd_wr, if_pos rfl, if_pos (⟨List.mem_cons_self, h⟩ : n ∈ n :: l ∧ _)]
        split <;> rfl
      · have : F.EVT_CNT_CNT.addr n ≠ F.EVT_CNT_CNT.addr x := by simp [Fld.addr, F.EVT_CNT_CNT]; omega
        simp [hn, Evt.rd_wr, this]

variable (s : State) (cause : Nat)

theorem State.bootEvt_quiet (boot : Nat) :
    (s.bootEvt cause boot).raised = [] ∧ (s.bootEvt cause boot).woReq = none ∧ (s.bootEvt cause boot).resignReq = none ∧
      (s.bootEvt cause boot).notifies = [] ∧ ∃ m : LogEntry, (s.bootEvt cause boot).queue = [m] ∧ m.ev = 0x3FF ∧ m.typ = 2 ∧ m.ctx0 = BitVec.ofNat 32 cause := by
  unfold State.bootEvt
  obtain ⟨a, b, c, d, z, -⟩ := mramCounts_fold s (List.range 1024) ((({ queue :=
    [⟨0, 0, 0x3FF, 0, 2, false, 0, s.nv.logSeq, BitVec.ofNat 32 cause, BitVec.ofNat 32 boot⟩] } : Evt).put F.EVT_LOGWP_IDX
    s.nv.logWp).put F.EVT_LOGSEQ_SEQ (s.nv.logSeq + 1))
  exact ⟨b, c, d, z, _, a, rfl, rfl, rfl⟩

/-- The counts after a reset are those of MRAM (R46, R47). -/
theorem State.bootEvt_count (boot e : Nat) (h : e < 1024) :
    (s.bootEvt cause boot).get F.EVT_CNT_CNT e = leValue (s.mramGet (0x1000 + 4 * e) 4) := by
  unfold State.bootEvt
  obtain ⟨-, -, -, -, -, r⟩ := mramCounts_fold s (List.range 1024) ((({ queue :=
    [⟨0, 0, 0x3FF, 0, 2, false, 0, s.nv.logSeq, BitVec.ofNat 32 cause, BitVec.ofNat 32 boot⟩] } : Evt).put F.EVT_LOGWP_IDX
    s.nv.logWp).put F.EVT_LOGSEQ_SEQ (s.nv.logSeq + 1))
  have r := r e
  have hl : leValue (s.mramGet (0x1000 + 4 * e) 4) < 2 ^ 32 := by
    have := leValue_lt (s.mramGet (0x1000 + 4 * e) 4)
    simp only [State.mramGet, Sparse.getRun, List.length_map, List.length_range] at this ⊢
    omega
  have hm : (s.mramCount e).toNat = leValue (s.mramGet (0x1000 + 4 * e) 4) := by
    rw [State.mramCount, BitVec.toNat_ofNat]
    exact Nat.mod_eq_of_lt hl
  have w : ∀ x : Word, fieldGet x 31 0 = x.toNat := fun x => by
    simp [fieldGet, BitVec.extractLsb'_eq_self]
  have z : ((({ queue := [⟨0, 0, 0x3FF, 0, 2, false, 0, s.nv.logSeq, BitVec.ofNat 32 cause, BitVec.ofNat 32 boot⟩] } : Evt).put
      F.EVT_LOGWP_IDX s.nv.logWp).put F.EVT_LOGSEQ_SEQ (s.nv.logSeq + 1)).rd (F.EVT_CNT_CNT.addr e) = 0 := by
    have h1 : F.EVT_CNT_CNT.addr e ≠ F.EVT_LOGSEQ_SEQ.addr := by
      simp only [Fld.addr, F.EVT_CNT_CNT, F.EVT_LOGSEQ_SEQ]; omega
    have h2 : F.EVT_CNT_CNT.addr e ≠ F.EVT_LOGWP_IDX.addr := by
      simp only [Fld.addr, F.EVT_CNT_CNT, F.EVT_LOGWP_IDX]; omega
    simp only [Evt.put, Evt.rd_wr, if_neg h1, if_neg h2]
    have k := resetWord_count ⟨e, h⟩
    generalize F.EVT_CNT_CNT.addr e = a at k ⊢
    exact k
  rw [z] at r
  rw [Evt.get, r]
  refine (w _).trans ?_
  simp only [List.mem_range, h, true_and]
  split
  · exact hm
  · next k => simp only [ne_eq, Decidable.not_not] at k; rw [← hm, k]

/-- A reset in its fields. -/
theorem State.hardReset_cases : ∃ r : Sparse Word, s.hardReset cause = { s.cleared cause with regs := r } := by
  unfold State.hardReset
  generalize s.cleared cause = c
  dsimp only
  split
  · exact ⟨_, rfl⟩
  · exact ⟨_, rfl⟩

theorem State.hardReset_evt : (s.hardReset cause).evt = s.bootEvt cause (satInc 0xFFFFFFFF s.nv.bootCnt) := by
  obtain ⟨r, e⟩ := s.hardReset_cases cause
  rw [e]
  unfold State.cleared
  generalize s.bootEvt cause = g
  rfl

/-- A reset leaves nothing of a command. -/
theorem State.hardReset_quiet : (s.hardReset cause).Quiet := by
  obtain ⟨a, b, c, d, -⟩ := s.bootEvt_quiet cause (satInc 0xFFFFFFFF s.nv.bootCnt)
  rw [State.Quiet, s.hardReset_evt cause]
  exact ⟨a, b, c, d⟩

/-- The registers that a reset writes. -/
theorem State.hardReset_rd (a : Nat) (h : a ≠ R.SEC_RSTCAUSE.base ∧ a ≠ R.SEC_STATE.base ∧ a ≠ R.RED_STAT.base ∧ a ≠ R.SYS_TXNSTAT.base) :
    (s.hardReset cause).rd a = resetWord a := by
  have k : (s.cleared cause).rd a = resetWord a := by
    unfold State.cleared
    generalize s.bootEvt cause = g
    rfl
  obtain ⟨h1, h2, h3, h4⟩ := h
  have t1 : ((((s.cleared cause).put F.SEC_RSTCAUSE_CAUSE cause).put F.SEC_STATE_LCS s.otp.lcs).putB F.RED_STAT_HEADID
      s.pins.headsel).rd a = resetWord a := by
    rw [State.putB, State.rd_put_ne, State.rd_put_ne, State.rd_put_ne, k]
    · exact h1
    · exact h2
    · exact h3
  unfold State.hardReset
  dsimp only
  split
  · rw [State.rd_put_ne, State.rd_put_ne, t1]
    · exact h4
    · exact h4
  · exact t1

/-- What a reset leaves (R93, R116). -/
theorem State.hardReset_from (hc : cause < 256) : s.ResetFrom (s.hardReset cause) cause := by
  have q := s.bootEvt_quiet cause (satInc 0xFFFFFFFF s.nv.bootCnt)
  have e := s.hardReset_evt cause
  have k : ∀ a, (s.cleared cause).rd a = resetWord a := by
    intro a
    unfold State.cleared
    generalize s.bootEvt cause = g
    rfl
  have g : ∀ (f : Fld) (i j : Nat), f.addr i j ≠ R.SYS_TXNSTAT.base → (s.hardReset cause).get f i j =
      ((((s.cleared cause).put F.SEC_RSTCAUSE_CAUSE cause).put F.SEC_STATE_LCS s.otp.lcs).putB F.RED_STAT_HEADID
        s.pins.headsel).get f i j := by
    intro f i j hf
    unfold State.hardReset
    generalize s.cleared cause = c
    dsimp only
    split
    · rw [State.get_put_addr _ _ _ _ _ _ _ _ hf, State.get_put_addr _ _ _ _ _ _ _ _ hf]
    · rfl
  obtain ⟨r, x⟩ := s.hardReset_cases cause
  have c : ∀ a b c : Nat, (s.cleared cause).get ⟨a, 0, 0, b, c⟩ = fieldGet (resetWord a) b c := by
    intro a b c
    rw [State.get, k]
    rfl
  constructor
  · rw [g _ _ _ (by decide), State.putB, State.get_put_addr _ _ _ _ _ _ _ _ (by decide),
      State.get_put_addr _ _ _ _ _ _ _ _ (by decide), State.get_put_same _ _ _ _ _ (by decide)]
    exact Nat.mod_eq_of_lt hc
  · rw [g _ _ _ (by decide), State.putB, State.get_put_addr _ _ _ _ _ _ _ _ (by decide),
      State.get_put_bits _ _ _ _ _ _ _ _ (by decide) (by decide) (by decide), State.get_put_addr _ _ _ _ _ _ _ _ (by decide)]
    exact (c _ _ _).trans (by decide)
  · intro h
    rw [g _ _ _ (by decide), State.putB, State.get_put_addr _ _ _ _ _ _ _ _ (by decide),
      State.get_put_same _ _ _ _ _ (by decide)]
    exact Nat.mod_eq_of_lt h
  · have p : (s.hardReset cause).pins = s.pins := by
      rw [x]; unfold State.cleared; generalize s.bootEvt cause = g; rfl
    rw [State.flag, g _ _ _ (by decide), State.putB, State.get_put_same _ _ _ _ _ (by decide), p]
    cases s.pins.headsel <;> rfl
  · intro a h
    simp only [List.mem_cons, List.not_mem_nil, not_or, or_false] at h
    exact s.hardReset_rd cause a ⟨h.1, h.2.1, h.2.2.1, h.2.2.2.1⟩
  · intro n hn; rw [e]; exact s.bootEvt_count cause _ n hn
  · rw [e]; exact q.2.2.2.2
  all_goals rw [x]; unfold State.cleared; generalize s.bootEvt cause = g
  · rfl
  · exact ⟨rfl, rfl, rfl⟩
  · rfl
  · exact ⟨rfl, rfl, rfl, rfl, rfl, rfl, rfl, rfl, rfl⟩
  · rfl

/-- The kept parts alone say what a reset leaves. -/
theorem State.ResetFrom.of {s s' t : State} {c : Nat} (h : s'.ResetFrom t c) (h1 : s'.otp = s.otp) (h2 : s'.mram = s.mram)
    (h3 : s'.flash = s.flash) (h4 : s'.aon = s.aon) (h5 : s'.nv = s.nv) (h6 : s'.pending = s.pending) : s.ResetFrom t c := by
  obtain ⟨a1, a2, a3, a4, a5, a6, a7, a8, a9, a10, a11, a12⟩ := h
  refine ⟨a1, a2, by rw [← h1]; exact a3, a4, a5, ?_, a7, by rw [← h5]; exact a8, by rw [← h1, ← h2, ← h3]; exact a9,
    by rw [← h4]; exact a10, a11, by rw [← h6]; exact a12⟩
  intro e he
  rw [a6 e he]
  simp only [State.mramGet, h2]

theorem State.hardReset_pins : (s.hardReset cause).pins = s.pins := by
  obtain ⟨r, x⟩ := s.hardReset_cases cause
  rw [x]; unfold State.cleared; generalize s.bootEvt cause = g; rfl

/-- The engine states that a reset starts afresh, and the record that it keeps. -/
theorem State.hardReset_fresh : (s.hardReset cause).sec = {} ∧ (s.hardReset cause).bus = {} ∧
    (s.hardReset cause).nv = { s.nv with bootCnt := satInc 0xFFFFFFFF s.nv.bootCnt } := by
  obtain ⟨r, x⟩ := s.hardReset_cases cause
  rw [x]; unfold State.cleared; generalize s.bootEvt cause = g; exact ⟨rfl, rfl, rfl⟩

/-- No path is thawed after a reset. -/
theorem State.hardReset_refreeze (p : Nat) : (s.hardReset cause).refreeze p = s.hardReset cause := by
  have := (s.hardReset_fresh cause).2.1
  generalize s.hardReset cause = t at this
  cases t; simp at this; subst this; rfl

end Sys2Proof.Machine
end

