-- ==== Sys2Proof/Laws/Sec.lean ====
section
/-! SUPPORT. What the end of a key operation writes. -/

namespace Sys2Proof.Machine

/-- SEC_KEYBUF reads zero after it is cleared, and every other register as before. -/
theorem State.clearKeybuf_rd (s : State) : (∀ i < 32, s.clearKeybuf.rd (F.SEC_KEYBUF_WORD.addr i) = 0) ∧
    ∀ b, (∀ i < 32, b ≠ F.SEC_KEYBUF_WORD.addr i) → s.clearKeybuf.rd b = s.rd b := by
  have : ∀ (l : List Nat) (u : State),
      (∀ i ∈ l, (l.foldl (fun (t : State) i => t.wr (F.SEC_KEYBUF_WORD.addr i) 0) u).rd (F.SEC_KEYBUF_WORD.addr i) = 0) ∧
      ∀ b, (∀ i ∈ l, b ≠ F.SEC_KEYBUF_WORD.addr i) →
        (l.foldl (fun (t : State) i => t.wr (F.SEC_KEYBUF_WORD.addr i) 0) u).rd b = u.rd b := by
    intro l
    induction l with
    | nil => simp
    | cons x l ih =>
      intro u
      simp only [List.foldl_cons]
      obtain ⟨h1, h2⟩ := ih (u.wr (F.SEC_KEYBUF_WORD.addr x) 0)
      refine ⟨fun i hi => ?_, fun b hb => ?_⟩
      · by_cases hm : i ∈ l
        · exact h1 i hm
        · have : i = x := by
            rcases List.mem_cons.mp hi with e | e
            · exact e
            · exact absurd e hm
          subst this
          rw [h2 _ fun j hj => by
            simp only [Fld.addr, F.SEC_KEYBUF_WORD]
            intro e
            have : i = j := by omega
            exact hm (by rw [this]; exact hj)]
          simp
      · rw [h2 b fun i hi => hb i (List.mem_cons_of_mem _ hi), State.rd_wr_ne _ _ (hb x List.mem_cons_self)]
  obtain ⟨a, b⟩ := this (List.range 32) s
  exact ⟨fun i hi => a i (List.mem_range.mpr hi), fun c hc => b c fun i hi => hc i (List.mem_range.mp hi)⟩

/-- Clearing SEC_KEYBUF touches the register file alone. -/
theorem State.clearKeybuf_eq (s : State) : ∃ r, s.clearKeybuf = { s with regs := r } := by
  have : ∀ (l : List Nat) (u : State),
      ∃ r, l.foldl (fun (t : State) i => t.wr (F.SEC_KEYBUF_WORD.addr i) 0) u = { u with regs := r } := by
    intro l
    induction l with
    | nil => intro u; exact ⟨u.regs, rfl⟩
    | cons x l ih => intro u; obtain ⟨r, e⟩ := ih (u.wr (F.SEC_KEYBUF_WORD.addr x) 0); exact ⟨r, e⟩
  exact this _ s

/-- A key operation touches the fuses and the network key area alone. -/
theorem State.keyopDo_eq (s : State) (op n : Nat) : ∃ o v, s.keyopDo op n = { s with otp := o, nv := v } := by
  unfold State.keyopDo
  dsimp only
  repeat' split
  all_goals exact ⟨_, _, rfl⟩

end Sys2Proof.Machine
end

