-- ==== Sys2Proof/Laws/Step.lean ====
section
/-! SUPPORT. What a command and a tick keep, whichever they are. -/

namespace Sys2Proof.Machine

theorem KeepsR.mono {n m : Nat} {a : State} {o : Host.Outcome State Fault Refusal} (hm : m ≤ n) (h : KeepsR n a o) :
    KeepsR m a o :=
  let ⟨t, e, k⟩ := h
  ⟨t, e, k.mono hm⟩

/-- Every command keeps the canonical form and the queue. -/
theorem exec_keeps (c : Instr) (s : State) : KeepsR 0 s (exec c s) := by
  cases c
  case powerOn => exact KeepsR.mono (Nat.zero_le 1) (execPowerOn_keeps ..)
  case resetNLow => exact KeepsR.mono (Nat.zero_le 1) (execResetNLow_keeps ..)
  case secResetGo => exact KeepsR.mono (Nat.zero_le 1) (execSecResetGo_keeps ..)
  case bootWatchdogExpiry => exact KeepsR.mono (Nat.zero_le 1) (execBootWatchdogExpiry_keeps ..)
  case tamperDetect => exact KeepsR.mono (Nat.zero_le 1) (execTamperDetect_keeps ..)
  case corePowerGoodLoss => exact KeepsR.mono (Nat.zero_le 1) (execCorePowerGoodLoss_keeps ..)
  case wipeComplete => exact KeepsR.mono (Nat.zero_le 1) (execWipeComplete_keeps ..)
  case pllLockExpiry => exact execPllLockExpiry_keeps ..
  case slotVerify => exact execSlotVerify_keeps ..
  case imageReadComplete => exact execImageReadComplete_keeps ..
  case imageCheckPass => exact KeepsR.mono (Nat.zero_le 1) (execImageCheckPass_keeps ..)
  case firstBoundary => exact KeepsR.mono (Nat.zero_le 1) (execFirstBoundary_keeps ..)
  case quadPowerUp => exact execQuadPowerUp_keeps ..
  case periodBoundary => exact KeepsR.mono (Nat.zero_le 1) (execPeriodBoundary_keeps ..)
  case inputSnapshot => exact KeepsR.mono (Nat.zero_le 1) (execInputSnapshot_keeps ..)
  case groupStopTimeout => exact execGroupStopTimeout_keeps ..
  case windowEnd => exact execWindowEnd_keeps ..
  case allocatorStart => exact execAllocatorStart_keeps ..
  case commandLaunch => exact execCommandLaunch_keeps ..
  case standbyInputCut => exact execStandbyInputCut_keeps ..
  case countWriteback => exact execCountWriteback_keeps ..
  case logEntryWrite => exact execLogEntryWrite_keeps ..
  case squallSummaryTick => exact execSquallSummaryTick_keeps ..
  case derateHoldExpiry => exact execDerateHoldExpiry_keeps ..
  case evtCntclrAll => exact KeepsR.mono (Nat.zero_le 1) (execEvtCntclrAll_keeps ..)
  case evtCntclrSrc => exact KeepsR.mono (Nat.zero_le 1) (execEvtCntclrSrc_keeps ..)
  case registerWrite => exact KeepsR.mono (Nat.zero_le 1) (execRegisterWrite_keeps ..)
  case bufferedWriteApply => exact execBufferedWriteApply_keeps ..
  case sysThaw => exact KeepsR.mono (Nat.zero_le 1) (execSysThaw_keeps ..)
  case thawTimeout => exact execThawTimeout_keeps ..
  case g2FirstWrite => exact KeepsR.mono (Nat.zero_le 1) (execG2FirstWrite_keeps ..)
  case g2ComplementWrite => exact KeepsR.mono (Nat.zero_le 1) (execG2ComplementWrite_keeps ..)
  case g2Timeout => exact execG2Timeout_keeps ..
  case txnBegin => exact KeepsR.mono (Nat.zero_le 1) (execTxnBegin_keeps ..)
  case txnCommit => exact KeepsR.mono (Nat.zero_le 1) (execTxnCommit_keeps ..)
  case txnRollback => exact KeepsR.mono (Nat.zero_le 1) (execTxnRollback_keeps ..)
  case txnIdleTimeout => exact execTxnIdleTimeout_keeps ..
  case txnAckTimeout => exact execTxnAckTimeout_keeps ..
  case cfgCrcPassStart => exact execCfgCrcPassStart_keeps ..
  case cfgCrcPassEnd => exact execCfgCrcPassEnd_keeps ..
  case sysFreezeGo => exact KeepsR.mono (Nat.zero_le 1) (execSysFreezeGo_keeps ..)
  case periodloRead => exact execPeriodloRead_keeps ..
  case lcRequest => exact KeepsR.mono (Nat.zero_le 1) (execLcRequest_keeps ..)
  case lcChangeReset => exact execLcChangeReset_keeps ..
  case keyopProvisionOwner => exact KeepsR.mono (Nat.zero_le 1) (execKeyopProvisionOwner_keeps ..)
  case keyopProvisionImage => exact KeepsR.mono (Nat.zero_le 1) (execKeyopProvisionImage_keeps ..)
  case keyopProvisionNetwork => exact KeepsR.mono (Nat.zero_le 1) (execKeyopProvisionNetwork_keeps ..)
  case keyopRevokeOwner => exact KeepsR.mono (Nat.zero_le 1) (execKeyopRevokeOwner_keeps ..)
  case keyopRevokeImage => exact KeepsR.mono (Nat.zero_le 1) (execKeyopRevokeImage_keeps ..)
  case keyopRaiseSvn => exact KeepsR.mono (Nat.zero_le 1) (execKeyopRaiseSvn_keeps ..)
  case keyopClearKeybuf => exact KeepsR.mono (Nat.zero_le 1) (execKeyopClearKeybuf_keeps ..)
  case attestGo => exact KeepsR.mono (Nat.zero_le 1) (execAttestGo_keeps ..)
  case attestDone => exact execAttestDone_keeps ..
  case nvmErase => exact KeepsR.mono (Nat.zero_le 1) (execNvmErase_keeps ..)
  case nvmProgram => exact KeepsR.mono (Nat.zero_le 1) (execNvmProgram_keeps ..)
  case nvmRead => exact KeepsR.mono (Nat.zero_le 1) (execNvmRead_keeps ..)
  case nvmOperationDone => exact execNvmOperationDone_keeps ..
  case secReleaseGo => exact KeepsR.mono (Nat.zero_le 1) (execSecReleaseGo_keeps ..)
  case resignHoldTimeout => exact KeepsR.mono (Nat.zero_le 1) (execResignHoldTimeout_keeps ..)
  case dmlEnWrite => exact KeepsR.mono (Nat.zero_le 1) (execDmlEnWrite_keeps ..)
  case dmlRestart => exact KeepsR.mono (Nat.zero_le 1) (execDmlRestart_keeps ..)
  case laneWaitExpiry => exact execLaneWaitExpiry_keeps ..
  case blockLockAcquired => exact execBlockLockAcquired_keeps ..
  case blockLockLost => exact execBlockLockLost_keeps ..
  case ownIdleReturn => exact execOwnIdleReturn_keeps ..
  case laneLinktoExpiry => exact execLaneLinktoExpiry_keeps ..
  case laneRetryWaitExpiry => exact execLaneRetryWaitExpiry_keeps ..
  case retryClearExpiry => exact execRetryClearExpiry_keeps ..
  case gatherFrameReceive => exact execGatherFrameReceive_keeps ..
  case haloGo => exact KeepsR.mono (Nat.zero_le 1) (execHaloGo_keeps ..)
  case haloStop => exact KeepsR.mono (Nat.zero_le 1) (execHaloStop_keeps ..)
  case haloComplete => exact execHaloComplete_keeps ..
  case xlAlignFrame => exact KeepsR.mono (Nat.zero_le 1) (execXlAlignFrame_keeps ..)
  case xlInputFrame => exact execXlInputFrame_keeps ..
  case xlStateFrame => exact KeepsR.mono (Nat.zero_le 1) (execXlStateFrame_keeps ..)
  case xlCopyFrame => exact execXlCopyFrame_keeps ..
  case xlRegFrame => exact KeepsR.mono (Nat.zero_le 1) (execXlRegFrame_keeps ..)
  case xlCtrlResign => exact execXlCtrlResign_keeps ..
  case xlCtrlSwap => exact execXlCtrlSwap_keeps ..
  case xlBothLost => exact execXlBothLost_keeps ..
  case cellStart => exact KeepsR.mono (Nat.zero_le 1) (execCellStart_keeps ..)
  case cellStop => exact KeepsR.mono (Nat.zero_le 1) (execCellStop_keeps ..)
  case cellBypass => exact KeepsR.mono (Nat.zero_le 1) (execCellBypass_keeps ..)
  case cellRelease => exact KeepsR.mono (Nat.zero_le 1) (execCellRelease_keeps ..)
  case groupStart => exact KeepsR.mono (Nat.zero_le 1) (execGroupStart_keeps ..)
  case groupStop => exact KeepsR.mono (Nat.zero_le 1) (execGroupStop_keeps ..)
  case prechargeTimeout => exact execPrechargeTimeout_keeps ..
  case stagingResendTimeout => exact execStagingResendTimeout_keeps ..
  case ceClrSatlast => exact KeepsR.mono (Nat.zero_le 1) (execCeClrSatlast_keeps ..)
  case ceClrMaxfin => exact KeepsR.mono (Nat.zero_le 1) (execCeClrMaxfin_keeps ..)
  case traceArm => exact KeepsR.mono (Nat.zero_le 1) (execTraceArm_keeps ..)
  case traceStop => exact KeepsR.mono (Nat.zero_le 1) (execTraceStop_keeps ..)
  case traceSwTrigger => exact KeepsR.mono (Nat.zero_le 1) (execTraceSwTrigger_keeps ..)
  case traceHalfSpill => exact execTraceHalfSpill_keeps ..
  case lvsCmpHostWrite => exact KeepsR.mono (Nat.zero_le 1) (execLvsCmpHostWrite_keeps ..)
  case lvsForceGo => exact KeepsR.mono (Nat.zero_le 1) (execLvsForceGo_keeps ..)
  case lvsForceRelease => exact KeepsR.mono (Nat.zero_le 1) (execLvsForceRelease_keeps ..)
  case pwmPeriodWrap => exact execPwmPeriodWrap_keeps ..
  case tripLineActive => exact execTripLineActive_keeps ..
  case tripLineClear => exact KeepsR.mono (Nat.zero_le 1) (execTripLineClear_keeps ..)
  case shootTripClear => exact KeepsR.mono (Nat.zero_le 1) (execShootTripClear_keeps ..)
  case faultActive => exact execFaultActive_keeps ..
  case blankingEnd => exact execBlankingEnd_keeps ..
  case holdRelease => exact execHoldRelease_keeps ..
  case faultClear => exact KeepsR.mono (Nat.zero_le 1) (execFaultClear_keeps ..)
  case readyFall => exact execReadyFall_keeps ..
  case pumpStart => exact KeepsR.mono (Nat.zero_le 1) (execPumpStart_keeps ..)
  case pumpStop => exact KeepsR.mono (Nat.zero_le 1) (execPumpStop_keeps ..)
  case pumpDiagStepEnd => exact execPumpDiagStepEnd_keeps ..
  case pumpTbootExpiry => exact execPumpTbootExpiry_keeps ..
  case pumpStartholdReached => exact execPumpStartholdReached_keeps ..
  case pumpStarttoExpiry => exact execPumpStarttoExpiry_keeps ..
  case hallChange => exact execHallChange_keeps ..
  case hallInvalidTimeout => exact execHallInvalidTimeout_keeps ..
  case pumpOvercurrent => exact execPumpOvercurrent_keeps ..
  case pumpStallTimeout => exact execPumpStallTimeout_keeps ..
  case pumpVmMeasure => exact execPumpVmMeasure_keeps ..
  case brkmaxExpiry => exact execBrkmaxExpiry_keeps ..
  case retryWaitExpiry => exact execRetryWaitExpiry_keeps ..
  case retryCleanExpiry => exact execRetryCleanExpiry_keeps ..
  case retryClear => exact KeepsR.mono (Nat.zero_le 1) (execRetryClear_keeps ..)
  case fastSample => exact execFastSample_keeps ..
  case fastResultDeadline => exact execFastResultDeadline_keeps ..
  case hkScanStart => exact execHkScanStart_keeps ..
  case hkConversionDone => exact execHkConversionDone_keeps ..
  case hkScanTimeout => exact execHkScanTimeout_keeps ..
  case testDacGo => exact KeepsR.mono (Nat.zero_le 1) (execTestDacGo_keeps ..)
  case testDacStop => exact KeepsR.mono (Nat.zero_le 1) (execTestDacStop_keeps ..)
  case testDacCheckDone => exact execTestDacCheckDone_keeps ..
  case comparatorRawChange => exact KeepsR.mono (Nat.zero_le 1) (execComparatorRawChange_keeps ..)
  case windowOutputChange => exact execWindowOutputChange_keeps ..
  case windowEnable => exact execWindowEnable_keeps ..
  case windowLatchClear => exact KeepsR.mono (Nat.zero_le 1) (execWindowLatchClear_keeps ..)
  case aonComparatorChange => exact execAonComparatorChange_keeps ..
  case resignIChange => exact execResignIChange_keeps ..
  case electTimeout => exact execElectTimeout_keeps ..
  case conflictTimeout => exact execConflictTimeout_keeps ..
  case padStrobeTimeout => exact execPadStrobeTimeout_keeps ..
  case resign => exact execResign_keeps ..
  case takeover => exact execTakeover_keeps ..
  case redModeWrite => exact KeepsR.mono (Nat.zero_le 1) (execRedModeWrite_keeps ..)
  case redResync => exact KeepsR.mono (Nat.zero_le 1) (execRedResync_keeps ..)
  case redSwap => exact KeepsR.mono (Nat.zero_le 1) (execRedSwap_keeps ..)
  case swapageDue => exact execSwapageDue_keeps ..
  case sliceReintegrated => exact execSliceReintegrated_keeps ..
  case whiteout => exact execWhiteout_keeps ..
  case safWoreq => exact KeepsR.mono (Nat.zero_le 1) (execSafWoreq_keeps ..)
  case safReset => exact KeepsR.mono (Nat.zero_le 1) (execSafReset_keeps ..)
  case testPulse => exact execTestPulse_keeps ..
  case testPulseCheck => exact execTestPulseCheck_keeps ..
  case safeInputChange => exact execSafeInputChange_keeps ..
  case discrepancyTimeout => exact execDiscrepancyTimeout_keeps ..
  case telegramCopy => exact execTelegramCopy_keeps ..
  case telegramWindowExpiry => exact execTelegramWindowExpiry_keeps ..
  case telegramWatchdogExpiry => exact execTelegramWatchdogExpiry_keeps ..
  case logicCopyDisagree => exact execLogicCopyDisagree_keeps ..
  case netLinkChange => exact execNetLinkChange_keeps ..
  case netFrameReceive => exact execNetFrameReceive_keeps ..
  case ptpSyncSample => exact execPtpSyncSample_keeps ..
  case ptpAnnounce => exact execPtpAnnounce_keeps ..
  case ptpAnnounceTimeout => exact execPtpAnnounceTimeout_keeps ..
  case ptpPdelayReq => exact execPtpPdelayReq_keeps ..
  case ptpSelect => exact KeepsR.mono (Nat.zero_le 1) (execPtpSelect_keeps ..)
  case ptpArmstep => exact KeepsR.mono (Nat.zero_le 1) (execPtpArmstep_keeps ..)
  case periodLockSettled => exact execPeriodLockSettled_keeps ..
  case toutArm => exact KeepsR.mono (Nat.zero_le 1) (execToutArm_keeps ..)
  case toutStop => exact KeepsR.mono (Nat.zero_le 1) (execToutStop_keeps ..)
  case toutTargetReached => exact execToutTargetReached_keeps ..
  case gooseReceive => exact execGooseReceive_keeps ..
  case gooseTalExpiry => exact execGooseTalExpiry_keeps ..
  case svReceive => exact execSvReceive_keeps ..
  case gooseRetransmit => exact execGooseRetransmit_keeps ..
  case rapOpen => exact execRapOpen_keeps ..
  case rapRead => exact KeepsR.mono (Nat.zero_le 1) (execRapRead_keeps ..)
  case rapReadFixed => exact KeepsR.mono (Nat.zero_le 1) (execRapReadFixed_keeps ..)
  case rapWrite => exact KeepsR.mono (Nat.zero_le 1) (execRapWrite_keeps ..)
  case rapWriteFixed => exact KeepsR.mono (Nat.zero_le 1) (execRapWriteFixed_keeps ..)
  case rapKeepalive => exact KeepsR.mono (Nat.zero_le 1) (execRapKeepalive_keeps ..)
  case rapClose => exact KeepsR.mono (Nat.zero_le 1) (execRapClose_keeps ..)
  case rapIdleTimeout => exact execRapIdleTimeout_keeps ..
  case recorderArm => exact KeepsR.mono (Nat.zero_le 1) (execRecorderArm_keeps ..)
  case recorderStop => exact KeepsR.mono (Nat.zero_le 1) (execRecorderStop_keeps ..)
  case recorderForce => exact KeepsR.mono (Nat.zero_le 1) (execRecorderForce_keeps ..)
  case recorderTrigger => exact execRecorderTrigger_keeps ..
  case recorderHoldoffExpiry => exact execRecorderHoldoffExpiry_keeps ..
  case recorderPostComplete => exact execRecorderPostComplete_keeps ..
  case maskViolation => exact execMaskViolation_keeps ..
  case pageEviction => exact execPageEviction_keeps ..
  case acqOverrun => exact execAcqOverrun_keeps ..
  case calGo => exact KeepsR.mono (Nat.zero_le 1) (execCalGo_keeps ..)
  case calComplete => exact execCalComplete_keeps ..
  case wmapClaim => exact KeepsR.mono (Nat.zero_le 1) (execWmapClaim_keeps ..)
  case wmapRelease => exact KeepsR.mono (Nat.zero_le 1) (execWmapRelease_keeps ..)
  case dirProtect => exact KeepsR.mono (Nat.zero_le 1) (execDirProtect_keeps ..)
  case dirUnprotect => exact KeepsR.mono (Nat.zero_le 1) (execDirUnprotect_keeps ..)
  case dirDelete => exact KeepsR.mono (Nat.zero_le 1) (execDirDelete_keeps ..)
  case mapSnap => exact KeepsR.mono (Nat.zero_le 1) (execMapSnap_keeps ..)
  case mapSnapDone => exact execMapSnapDone_keeps ..
  case mapClr => exact KeepsR.mono (Nat.zero_le 1) (execMapClr_keeps ..)
  case clockAlarm => exact execClockAlarm_keeps ..
  case pllRecoveryDone => exact execPllRecoveryDone_keeps ..
  case clkoutConfigApply => exact execClkoutConfigApply_keeps ..
  case dieSensorRead => exact execDieSensorRead_keeps ..
  case extDiodeRead => exact execExtDiodeRead_keeps ..
  case netTimeloRead => exact execNetTimeloRead_keeps ..
  case clkRtcloRead => exact execClkRtcloRead_keeps ..
  case commandFrameTerminate => exact execCommandFrameTerminate_keeps ..
  case pwmCompareMatch => exact execPwmCompareMatch_keeps ..
  case deadTimeExpiry => exact execDeadTimeExpiry_keeps ..
  case pumpPwmWrap => exact execPumpPwmWrap_keeps ..
  case chopTonminExpiry => exact execChopTonminExpiry_keeps ..
  case faultRelease => exact execFaultRelease_keeps ..
  case readyRise => exact execReadyRise_keeps ..
  case tripLineInactive => exact execTripLineInactive_keeps ..
  case toutPulseEnd => exact execToutPulseEnd_keeps ..
  case keyopComplete => exact execKeyopComplete_keeps ..
  case hspiReset => exact execHspiReset_keeps ..

/-- SLOT_VERIFY with no life-cycle change to repeat. -/
theorem execSlotVerify_keeps1 (s : State) (h : s.nv.wipePending = none) : KeepsR 1 s (execSlotVerify s) := by
  unfold execSlotVerify
  apply KeepsR.done
  have e : s.lcResume = s := by unfold State.lcResume; rw [h]
  exact State.slotVerify_keeps1 (Keeps.refl 1 s) (e.symm ▸ Keeps.refl 1 s)

/-- The commands that keep the flash and the fuses too. -/
theorem exec_keeps1 (c : Instr) (s : State) (h1 : c ≠ .keyopComplete) (h2 : c ≠ .lcChangeReset)
    (h3 : ∀ ok, c ≠ .nvmOperationDone ok) (h4 : c = .slotVerify → s.nv.wipePending = none) : KeepsR 1 s (exec c s) := by
  cases c
  case powerOn => exact execPowerOn_keeps ..
  case resetNLow => exact execResetNLow_keeps ..
  case secResetGo => exact execSecResetGo_keeps ..
  case bootWatchdogExpiry => exact execBootWatchdogExpiry_keeps ..
  case tamperDetect => exact execTamperDetect_keeps ..
  case corePowerGoodLoss => exact execCorePowerGoodLoss_keeps ..
  case wipeComplete => exact execWipeComplete_keeps ..
  case pllLockExpiry => exact execPllLockExpiry_keeps ..
  case slotVerify => exact execSlotVerify_keeps1 s (h4 rfl)
  case imageReadComplete => exact execImageReadComplete_keeps ..
  case imageCheckPass => exact execImageCheckPass_keeps ..
  case firstBoundary => exact execFirstBoundary_keeps ..
  case quadPowerUp => exact execQuadPowerUp_keeps ..
  case periodBoundary => exact execPeriodBoundary_keeps ..
  case inputSnapshot => exact execInputSnapshot_keeps ..
  case groupStopTimeout => exact execGroupStopTimeout_keeps ..
  case windowEnd => exact execWindowEnd_keeps ..
  case allocatorStart => exact execAllocatorStart_keeps ..
  case commandLaunch => exact execCommandLaunch_keeps ..
  case standbyInputCut => exact execStandbyInputCut_keeps ..
  case countWriteback => exact execCountWriteback_keeps ..
  case logEntryWrite => exact execLogEntryWrite_keeps ..
  case squallSummaryTick => exact execSquallSummaryTick_keeps ..
  case derateHoldExpiry => exact execDerateHoldExpiry_keeps ..
  case evtCntclrAll => exact execEvtCntclrAll_keeps ..
  case evtCntclrSrc => exact execEvtCntclrSrc_keeps ..
  case registerWrite => exact execRegisterWrite_keeps ..
  case bufferedWriteApply => exact execBufferedWriteApply_keeps ..
  case sysThaw => exact execSysThaw_keeps ..
  case thawTimeout => exact execThawTimeout_keeps ..
  case g2FirstWrite => exact execG2FirstWrite_keeps ..
  case g2ComplementWrite => exact execG2ComplementWrite_keeps ..
  case g2Timeout => exact execG2Timeout_keeps ..
  case txnBegin => exact execTxnBegin_keeps ..
  case txnCommit => exact execTxnCommit_keeps ..
  case txnRollback => exact execTxnRollback_keeps ..
  case txnIdleTimeout => exact execTxnIdleTimeout_keeps ..
  case txnAckTimeout => exact execTxnAckTimeout_keeps ..
  case cfgCrcPassStart => exact execCfgCrcPassStart_keeps ..
  case cfgCrcPassEnd => exact execCfgCrcPassEnd_keeps ..
  case sysFreezeGo => exact execSysFreezeGo_keeps ..
  case periodloRead => exact execPeriodloRead_keeps ..
  case lcRequest => exact execLcRequest_keeps ..
  case lcChangeReset => first | exact absurd rfl h1 | exact absurd rfl h2 | exact absurd rfl (h3 _)
  case keyopProvisionOwner => exact execKeyopProvisionOwner_keeps ..
  case keyopProvisionImage => exact execKeyopProvisionImage_keeps ..
  case keyopProvisionNetwork => exact execKeyopProvisionNetwork_keeps ..
  case keyopRevokeOwner => exact execKeyopRevokeOwner_keeps ..
  case keyopRevokeImage => exact execKeyopRevokeImage_keeps ..
  case keyopRaiseSvn => exact execKeyopRaiseSvn_keeps ..
  case keyopClearKeybuf => exact execKeyopClearKeybuf_keeps ..
  case attestGo => exact execAttestGo_keeps ..
  case attestDone => exact execAttestDone_keeps ..
  case nvmErase => exact execNvmErase_keeps ..
  case nvmProgram => exact execNvmProgram_keeps ..
  case nvmRead => exact execNvmRead_keeps ..
  case nvmOperationDone => first | exact absurd rfl h1 | exact absurd rfl h2 | exact absurd rfl (h3 _)
  case secReleaseGo => exact execSecReleaseGo_keeps ..
  case resignHoldTimeout => exact execResignHoldTimeout_keeps ..
  case dmlEnWrite => exact execDmlEnWrite_keeps ..
  case dmlRestart => exact execDmlRestart_keeps ..
  case laneWaitExpiry => exact execLaneWaitExpiry_keeps ..
  case blockLockAcquired => exact execBlockLockAcquired_keeps ..
  case blockLockLost => exact execBlockLockLost_keeps ..
  case ownIdleReturn => exact execOwnIdleReturn_keeps ..
  case laneLinktoExpiry => exact execLaneLinktoExpiry_keeps ..
  case laneRetryWaitExpiry => exact execLaneRetryWaitExpiry_keeps ..
  case retryClearExpiry => exact execRetryClearExpiry_keeps ..
  case gatherFrameReceive => exact execGatherFrameReceive_keeps ..
  case haloGo => exact execHaloGo_keeps ..
  case haloStop => exact execHaloStop_keeps ..
  case haloComplete => exact execHaloComplete_keeps ..
  case xlAlignFrame => exact execXlAlignFrame_keeps ..
  case xlInputFrame => exact execXlInputFrame_keeps ..
  case xlStateFrame => exact execXlStateFrame_keeps ..
  case xlCopyFrame => exact execXlCopyFrame_keeps ..
  case xlRegFrame => exact execXlRegFrame_keeps ..
  case xlCtrlResign => exact execXlCtrlResign_keeps ..
  case xlCtrlSwap => exact execXlCtrlSwap_keeps ..
  case xlBothLost => exact execXlBothLost_keeps ..
  case cellStart => exact execCellStart_keeps ..
  case cellStop => exact execCellStop_keeps ..
  case cellBypass => exact execCellBypass_keeps ..
  case cellRelease => exact execCellRelease_keeps ..
  case groupStart => exact execGroupStart_keeps ..
  case groupStop => exact execGroupStop_keeps ..
  case prechargeTimeout => exact execPrechargeTimeout_keeps ..
  case stagingResendTimeout => exact execStagingResendTimeout_keeps ..
  case ceClrSatlast => exact execCeClrSatlast_keeps ..
  case ceClrMaxfin => exact execCeClrMaxfin_keeps ..
  case traceArm => exact execTraceArm_keeps ..
  case traceStop => exact execTraceStop_keeps ..
  case traceSwTrigger => exact execTraceSwTrigger_keeps ..
  case traceHalfSpill => exact execTraceHalfSpill_keeps ..
  case lvsCmpHostWrite => exact execLvsCmpHostWrite_keeps ..
  case lvsForceGo => exact execLvsForceGo_keeps ..
  case lvsForceRelease => exact execLvsForceRelease_keeps ..
  case pwmPeriodWrap => exact execPwmPeriodWrap_keeps ..
  case tripLineActive => exact execTripLineActive_keeps ..
  case tripLineClear => exact execTripLineClear_keeps ..
  case shootTripClear => exact execShootTripClear_keeps ..
  case faultActive => exact execFaultActive_keeps ..
  case blankingEnd => exact execBlankingEnd_keeps ..
  case holdRelease => exact execHoldRelease_keeps ..
  case faultClear => exact execFaultClear_keeps ..
  case readyFall => exact execReadyFall_keeps ..
  case pumpStart => exact execPumpStart_keeps ..
  case pumpStop => exact execPumpStop_keeps ..
  case pumpDiagStepEnd => exact execPumpDiagStepEnd_keeps ..
  case pumpTbootExpiry => exact execPumpTbootExpiry_keeps ..
  case pumpStartholdReached => exact execPumpStartholdReached_keeps ..
  case pumpStarttoExpiry => exact execPumpStarttoExpiry_keeps ..
  case hallChange => exact execHallChange_keeps ..
  case hallInvalidTimeout => exact execHallInvalidTimeout_keeps ..
  case pumpOvercurrent => exact execPumpOvercurrent_keeps ..
  case pumpStallTimeout => exact execPumpStallTimeout_keeps ..
  case pumpVmMeasure => exact execPumpVmMeasure_keeps ..
  case brkmaxExpiry => exact execBrkmaxExpiry_keeps ..
  case retryWaitExpiry => exact execRetryWaitExpiry_keeps ..
  case retryCleanExpiry => exact execRetryCleanExpiry_keeps ..
  case retryClear => exact execRetryClear_keeps ..
  case fastSample => exact execFastSample_keeps ..
  case fastResultDeadline => exact execFastResultDeadline_keeps ..
  case hkScanStart => exact execHkScanStart_keeps ..
  case hkConversionDone => exact execHkConversionDone_keeps ..
  case hkScanTimeout => exact execHkScanTimeout_keeps ..
  case testDacGo => exact execTestDacGo_keeps ..
  case testDacStop => exact execTestDacStop_keeps ..
  case testDacCheckDone => exact execTestDacCheckDone_keeps ..
  case comparatorRawChange => exact execComparatorRawChange_keeps ..
  case windowOutputChange => exact execWindowOutputChange_keeps ..
  case windowEnable => exact execWindowEnable_keeps ..
  case windowLatchClear => exact execWindowLatchClear_keeps ..
  case aonComparatorChange => exact execAonComparatorChange_keeps ..
  case resignIChange => exact execResignIChange_keeps ..
  case electTimeout => exact execElectTimeout_keeps ..
  case conflictTimeout => exact execConflictTimeout_keeps ..
  case padStrobeTimeout => exact execPadStrobeTimeout_keeps ..
  case resign => exact execResign_keeps ..
  case takeover => exact execTakeover_keeps ..
  case redModeWrite => exact execRedModeWrite_keeps ..
  case redResync => exact execRedResync_keeps ..
  case redSwap => exact execRedSwap_keeps ..
  case swapageDue => exact execSwapageDue_keeps ..
  case sliceReintegrated => exact execSliceReintegrated_keeps ..
  case whiteout => exact execWhiteout_keeps ..
  case safWoreq => exact execSafWoreq_keeps ..
  case safReset => exact execSafReset_keeps ..
  case testPulse => exact execTestPulse_keeps ..
  case testPulseCheck => exact execTestPulseCheck_keeps ..
  case safeInputChange => exact execSafeInputChange_keeps ..
  case discrepancyTimeout => exact execDiscrepancyTimeout_keeps ..
  case telegramCopy => exact execTelegramCopy_keeps ..
  case telegramWindowExpiry => exact execTelegramWindowExpiry_keeps ..
  case telegramWatchdogExpiry => exact execTelegramWatchdogExpiry_keeps ..
  case logicCopyDisagree => exact execLogicCopyDisagree_keeps ..
  case netLinkChange => exact execNetLinkChange_keeps ..
  case netFrameReceive => exact execNetFrameReceive_keeps ..
  case ptpSyncSample => exact execPtpSyncSample_keeps ..
  case ptpAnnounce => exact execPtpAnnounce_keeps ..
  case ptpAnnounceTimeout => exact execPtpAnnounceTimeout_keeps ..
  case ptpPdelayReq => exact execPtpPdelayReq_keeps ..
  case ptpSelect => exact execPtpSelect_keeps ..
  case ptpArmstep => exact execPtpArmstep_keeps ..
  case periodLockSettled => exact execPeriodLockSettled_keeps ..
  case toutArm => exact execToutArm_keeps ..
  case toutStop => exact execToutStop_keeps ..
  case toutTargetReached => exact execToutTargetReached_keeps ..
  case gooseReceive => exact execGooseReceive_keeps ..
  case gooseTalExpiry => exact execGooseTalExpiry_keeps ..
  case svReceive => exact execSvReceive_keeps ..
  case gooseRetransmit => exact execGooseRetransmit_keeps ..
  case rapOpen => exact execRapOpen_keeps ..
  case rapRead => exact execRapRead_keeps ..
  case rapReadFixed => exact execRapReadFixed_keeps ..
  case rapWrite => exact execRapWrite_keeps ..
  case rapWriteFixed => exact execRapWriteFixed_keeps ..
  case rapKeepalive => exact execRapKeepalive_keeps ..
  case rapClose => exact execRapClose_keeps ..
  case rapIdleTimeout => exact execRapIdleTimeout_keeps ..
  case recorderArm => exact execRecorderArm_keeps ..
  case recorderStop => exact execRecorderStop_keeps ..
  case recorderForce => exact execRecorderForce_keeps ..
  case recorderTrigger => exact execRecorderTrigger_keeps ..
  case recorderHoldoffExpiry => exact execRecorderHoldoffExpiry_keeps ..
  case recorderPostComplete => exact execRecorderPostComplete_keeps ..
  case maskViolation => exact execMaskViolation_keeps ..
  case pageEviction => exact execPageEviction_keeps ..
  case acqOverrun => exact execAcqOverrun_keeps ..
  case calGo => exact execCalGo_keeps ..
  case calComplete => exact execCalComplete_keeps ..
  case wmapClaim => exact execWmapClaim_keeps ..
  case wmapRelease => exact execWmapRelease_keeps ..
  case dirProtect => exact execDirProtect_keeps ..
  case dirUnprotect => exact execDirUnprotect_keeps ..
  case dirDelete => exact execDirDelete_keeps ..
  case mapSnap => exact execMapSnap_keeps ..
  case mapSnapDone => exact execMapSnapDone_keeps ..
  case mapClr => exact execMapClr_keeps ..
  case clockAlarm => exact execClockAlarm_keeps ..
  case pllRecoveryDone => exact execPllRecoveryDone_keeps ..
  case clkoutConfigApply => exact execClkoutConfigApply_keeps ..
  case dieSensorRead => exact execDieSensorRead_keeps ..
  case extDiodeRead => exact execExtDiodeRead_keeps ..
  case netTimeloRead => exact execNetTimeloRead_keeps ..
  case clkRtcloRead => exact execClkRtcloRead_keeps ..
  case commandFrameTerminate => exact execCommandFrameTerminate_keeps ..
  case pwmCompareMatch => exact execPwmCompareMatch_keeps ..
  case deadTimeExpiry => exact execDeadTimeExpiry_keeps ..
  case pumpPwmWrap => exact execPumpPwmWrap_keeps ..
  case chopTonminExpiry => exact execChopTonminExpiry_keeps ..
  case faultRelease => exact execFaultRelease_keeps ..
  case readyRise => exact execReadyRise_keeps ..
  case tripLineInactive => exact execTripLineInactive_keeps ..
  case toutPulseEnd => exact execToutPulseEnd_keeps ..
  case keyopComplete => first | exact absurd rfl h1 | exact absurd rfl h2 | exact absurd rfl (h3 _)
  case hspiReset => exact execHspiReset_keeps ..

/-- A control tick keeps the memories, the fuses and the queue. -/
theorem State.tick_keeps (s : State) : Keeps 1 s s.tick := by
  unfold State.tick
  apply State.settle_keeps
  apply Keeps.foldl
  · intro t n h
    exact Keeps.ite (State.rejectCt_keeps h _) h
  · exact Keeps.lit1 (Keeps.refl _ _) (EvKeeps.refl _)

end Sys2Proof.Machine
end

