-- ==== Sys2Proof/WellFormed.lean ====
section
/-! DEFINITION. Which commands are well formed: operands whose type is wider than what the spec lets arrive. Operands not named here are
bounded by their type, or any value of them can arrive. -/

namespace Sys2Proof

/-- A returned gather frame: at most 16 records (R136, R167), each of eight words (R165). -/
def wfGather (f : GatherRx) : Bool := f.recs.length ≤ 16 && f.recs.all fun r => r.words.length == 8

/-- An INPUT segment carries 24 fast, 32 housekeeping and 128 dataset values (R325). -/
def wfInput (f : XlInput) : Bool := f.fast.length == 24 && f.hk.length == 32 && f.net.length == 128

/-- A STATE segment carries 288 cell states of four bits and 288 validity bits (R325). -/
def wfState (f : XlState) : Bool := f.cells.length == 288 && f.valid.length == 288 && f.cells.all (· < 16)

/-- A slice votes once (R339). -/
def wfVotes (l : List SliceVote) : Bool := (l.map (·.slice)).Nodup

/-- The fields of a telegram fit their bytes (R357). -/
def wfTelegram (t : Telegram) : Bool :=
  t.tgid < 2 ^ 16 && t.ver < 2 ^ 8 && t.flags < 2 ^ 8 && t.seq < 2 ^ 32 && t.zero < 2 ^ 32 && t.scrc < 2 ^ 32

/-- A command is well formed. -/
def WellFormed : Instr → Bool
  | .gatherFrameReceive _ f => wfGather f
  | .haloComplete _ errors => errors.length == 2048
  | .xlInputFrame f => wfInput f
  | .xlStateFrame f => wfState f
  | .xlCopyFrame _ entries _ => entries.length ≤ 128
  | .xlRegFrame _ entries => entries.length ≤ 64
  | .commandFrameTerminate _ recs => recs.length ≤ 16
  | .allocatorStart votes => wfVotes votes
  | .telegramCopy _ t => wfTelegram t
  | _ => true

end Sys2Proof
end

