-- ==== Sys2Proof/Tests/Slice0.lean ====
section
/-! SUPPORT. Tests: the checks of WellFormed on ill-formed commands, small values worked by hand from the spec, and for every
statement with hypotheses a state and operands that meet them, clause by clause. -/

namespace Sys2Proof.Tests

set_option Elab.async false

open Sys2Proof.Machine

/-! ### Well-formed commands -/

theorem test_gather_of_17_records : WellFormed (.gatherFrameReceive 0 ⟨0, 17, 0, 0, [], 0, 0, none, [], List.replicate 17 ⟨List.replicate 8 0, false, false, false⟩⟩) = false := by decide
theorem test_gather_record_of_7_words : WellFormed (.gatherFrameReceive 0 ⟨0, 1, 0, 0, [], 0, 0, none, [], [⟨List.replicate 7 0, false, false, false⟩]⟩) = false := by decide
theorem test_gather_of_16_records : WellFormed (.gatherFrameReceive 0 ⟨0, 16, 0, 0, [], 0, 0, none, [], List.replicate 16 ⟨List.replicate 8 0, false, false, false⟩⟩) = true := by decide
theorem test_halo_of_2047_points : WellFormed (.haloComplete 0 (List.replicate 2047 0)) = false := by decide +kernel
theorem test_input_of_23_fast : WellFormed (.xlInputFrame ⟨⟨0, { period := 0 }⟩, List.replicate 23 (0, true), List.replicate 32 (0, true), List.replicate 128 (0, true), 0, 0⟩) = false := by decide +kernel
theorem test_state_of_287_cells : WellFormed (.xlStateFrame ⟨⟨0, { period := 0 }⟩, List.replicate 287 0, List.replicate 288 true, [], [], 0, 0, 0, 0, 0⟩) = false := by decide +kernel
theorem test_state_with_cell_state_16 : WellFormed (.xlStateFrame ⟨⟨0, { period := 0 }⟩, 16 :: List.replicate 287 0, List.replicate 288 true, [], [], 0, 0, 0, 0, 0⟩) = false := by decide +kernel
theorem test_copy_of_129_entries : WellFormed (.xlCopyFrame ⟨0, { period := 0 }⟩ (List.replicate 129 (0, 0)) true) = false := by decide +kernel
theorem test_reg_of_65_entries : WellFormed (.xlRegFrame ⟨0, { period := 0 }⟩ (List.replicate 65 ⟨0, 0, 0, .write⟩)) = false := by decide +kernel
theorem test_command_of_17_records : WellFormed (.commandFrameTerminate 0 (List.replicate 17 ⟨[], false, false, false⟩)) = false := by decide
theorem test_slice_votes_twice : WellFormed (.allocatorStart [⟨1, 0, false, 0, 0, true, 0⟩, ⟨1, 9, false, 0, 0, true, 0⟩]) = false := by decide
theorem test_telegram_version_of_9_bits : WellFormed (.telegramCopy 0 ⟨0, 256, 0, 0, 0, 0, true, true, 0, false⟩) = false := by decide

/-! ### Values worked by hand -/

/-- CRC-32C of "123456789" is its published check value 0xE3069283. -/
theorem test_crc32c_check_value : crc32c [0x31, 0x32, 0x33, 0x34, 0x35, 0x36, 0x37, 0x38, 0x39] = 0xE3069283 := by decide +kernel
/-- R169: the CRC-16 of "123456789" with this polynomial and initial value is its published check value 0x29B1. -/
theorem test_crc16_check_value :
    [0x31, 0x32, 0x33, 0x34, 0x35, 0x36, 0x37, 0x38, 0x39].foldl crc16Byte 0xFFFF = 0x29B1 := by decide +kernel
/-- R36 and R37, the worked example of 02_control_period.md: a gen 2 string of 12 cells with 3 m of fibre on every segment. -/
theorem test_schedule_of_example_B :
    let x : LaneCfg := { used := true, farHead := true, fibre := (List.range 12).map fun i => 300 * (i + 1), fsb := 3900 }
    ceilCT (x.gather 12 false) = 863 ∧ ceilCT (x.command 12 false) = 336 := by decide +kernel
/-- R258, the worked example of 10_lv_pwm.md: 0.5 + 0.375 / 0.99 of 14,400 CT. -/
theorem test_compare_of_phase_U : cmpOf (1 / 2 + (375 / 1000) / (99 / 100)) 14400 = 12655 := by decide +kernel
/-- R427, the worked example of 17_clocks_thermal_power.md: 96.0 °C between 90.0 °C and 110.0 °C. -/
theorem test_derating_at_96_degrees : (pu32 (derateAt 1460 1400 1600)).1 = 0x2CCCCCCD := by decide +kernel
/-- R226, the worked period of 08_mv_modulation_balancing.md: cells 17 and 40 are full, cell 62 is the PWM cell with CMPA 1,178 and
OFFA 589. -/
theorem test_levels_of_phase_A :
    let v := fun c : Nat => if c = 17 then 8061 / 10 else if c = 40 then 8075 / 10 else if c = 62 then 8079 / 10 else (8042 / 10 : Rat)
    (pickLevels v 41400 true [17, 40, 62, 88] 39390).1 = [17, 40] ∧
      ((pickLevels v 41400 true [17, 40, 62, 88] 39390).2.map fun x => (x.1, (pwmLeg 1 x.2 0 2400).cmpA, (pwmLeg 1 x.2 0 2400).offA)) =
        some (62, 1178, 589) := by decide +kernel
/-- R394, the worked example of 16_acquisition.md: 37 ps measured, 1,200 ps declared. -/
theorem test_fd_of_example_A : fdOf 37 1200 = (-23, false) := by decide +kernel
/-- R393 and R400: a stream of 4-byte rows packs 524,272 rows into the data bytes of a page. -/
theorem test_rows_in_a_page : pageData / 4 = 524272 := by decide
/-- R422 and R429: 105.1 °C is over the limit of band 2, and 102.1 °C does not leave it. -/
theorem test_band_hysteresis : bandOf 0 1551 = 2 ∧ bandOf 2 1521 = 2 ∧ bandOf 2 1520 = 1 := by decide
/-- R423: a level deasserts at its threshold less the hysteresis and is kept between. -/
theorem test_level_hysteresis : levelOf false true 951 1000 5 = true ∧ levelOf false true 950 1000 5 = false ∧
    levelOf false false 999 1000 5 = false ∧ levelOf true false 999 1000 5 = true := by decide
/-- R394: FD is the skew less its offset in units of 50 ps, rounded half away from zero and clamped. -/
theorem test_fd_rounds_away : fdOf 25 0 = (1, false) ∧ fdOf (-25) 0 = (-1, false) ∧ fdOf 24 0 = (0, false) := by decide +kernel
/-- R405: RECID compares by signed difference across its wrap. -/
theorem test_recid_wraps : recidBefore 0xFFFFFFFF 0 = true ∧ recidBefore 0 0xFFFFFFFF = false := by decide +kernel
/-- R403: a page header has 64 bytes and begins with LYPG. -/
theorem test_page_header : (pageHeader 3 1 0 0 0 0xFFFF 0 0).length = 64 ∧
    (pageHeader 3 1 0 0 0 0xFFFF 0 0).take 4 = [0x4C, 0x59, 0x50, 0x47] := by decide +kernel

/-! ### Witnesses: helpers -/

/-- Nothing of the last command waits, as a value. -/
def quietB (s : State) : Bool := s.evt.raised.isEmpty && s.evt.woReq.isNone && s.evt.resignReq.isNone && s.evt.notifies.isEmpty

theorem quiet_of {s : State} (h : quietB s = true) : s.Quiet := by
  simpa [quietB, State.Quiet, and_assoc] using h

/-- The head is ready for a path, as a value. -/
def readyB (s : State) (p : Nat) : Bool :=
  s.get F.SEC_STATE_HSTATE == 2 && decide (s.otp.lcs ≤ 2) && (s.get F.RED_STAT_ROLE == 0 || s.get F.RED_STAT_ROLE == 2) &&
  s.pathOn p && s.bus.g2.isNone && !s.poisoned p && !s.regFull && s.bus.waiting.isEmpty && quietB s

theorem ready_of {s : State} {p : Nat} (h : readyB s p = true) : s.Ready p := by
  simp only [readyB, Bool.and_eq_true, Bool.or_eq_true, Bool.not_eq_true', beq_iff_eq, decide_eq_true_eq, Option.isNone_iff_eq_none,
    List.isEmpty_iff] at h
  obtain ⟨⟨⟨⟨⟨⟨⟨⟨h1, h2⟩, h3⟩, h4⟩, h5⟩, h6⟩, h7⟩, h8⟩, h9⟩ := h
  exact ⟨h1, h2, h3, h4, h5, h6, ⟨h7, h8⟩, quiet_of h9⟩

/-- A head in RUN with its four PLLs locked, neither standby nor active of a pair. -/
def run : State := (State.reset.put F.CLK_STAT_LOCKED 15).put F.SEC_STATE_HSTATE 2

/-- Path 0 has thawed. -/
def thaw (s : State) : State := { s with bus := { s.bus with thaw := [0] } }

/-- A duplex head in RUN in a role. -/
def roled (r : Nat) : State := (run.put F.RED_MODE_MODE 1).put F.RED_STAT_ROLE r

/-- A cell in a state. -/
def celled (s : State) (c st : Nat) : State := s.put F.CELL_STAT_STATE st c

/-- A lane in a state. -/
def laned (s : State) (l st : Nat) : State := s.put F.DML_STAT_STATE st l

/-- Every string lane is used. -/
def strung (s : State) : State := { s with img := { s.img with strings := { s.img.strings with lanes := List.replicate 24 { used := true } } } }

/-- A recorder of an open record in entry 0. -/
def recording (k st : Nat) (r : Record) : State :=
  ((run.setRcr k { entry := some 0, holdDone := true }).setRec 0 (some r)).setRState k st

/-- One buffered write. -/
def buffered (s : State) (a : Nat) (v mask : Word) : State := { s with bus := { s.bus with buf := [⟨0, a, v, mask, false, none, false⟩] } }

/-- Cell 0 stands BLOCKED on lane 23. -/
def laneOf1 (s : State) : State := (celled s 0 csBlocked).wr 0xB0000 (BitVec.ofNat 32 (23 * 2 ^ 9))

/-! ### Witnesses: queue, resets, boot and life cycle. The constants of Config have no value, so a witness that needs one assumes it. -/

theorem witness_IdleStepIsOneControlTick :
    State.reset.pending = [] ∧ State.reset.Quiet ∧ ∀ n < 16, (State.reset.chan n).rejNow = false := by
  and_intros <;> first | exact quiet_of (by decide +kernel) | decide +kernel

theorem reset_canon : State.reset.Canon :=
  ⟨by decide +kernel, by decide +kernel, by decide +kernel, by decide +kernel, by decide +kernel⟩

theorem witness_EveryStepKeepsTheCanonicalForm : State.reset.Canon ∧ ∃ t, step State.reset = .next t := ⟨reset_canon, _, rfl⟩

theorem witness_EveryCommandLeavesTheRestOfTheQueue :
    let s : State := { State.reset with pending := [.attestDone, .keyopComplete] }
    s.pending = .attestDone :: [.keyopComplete] ∧ ∃ t, step s = .next t ∧ t.pending = [.keyopComplete] := ⟨rfl, _, rfl, rfl⟩

theorem witness_FusesAndFlashChangeOnlyByTheirOwnCommands :
    (∃ t, exec .keyopComplete State.reset = .next t) ∧ (∃ t, exec (.nvmOperationDone true) State.reset = .next t) ∧
      (∃ t, exec .slotVerify State.reset = .next t ∧ State.reset.nv.wipePending = none) ∧
      ∃ t, exec .periodBoundary State.reset = .next t := ⟨⟨_, rfl⟩, ⟨_, rfl⟩, ⟨_, rfl, rfl⟩, _, rfl⟩

theorem witness_ResetCausesLeaveTheResetState :
    State.reset.get F.SEC_STATE_HSTATE ≤ 1 ∧ (2 ≤ run.get F.SEC_STATE_HSTATE ∧ run.get F.SEC_STATE_HSTATE ≤ 3 ∧ run.Quiet) ∧ (7 : BitVec 3) ≠ 0 ∧
    ((2 : BitVec 3) &&& 6 ≠ 0 ∧ (4 : BitVec 3) &&& 6 ≠ 0 ∧ State.reset.Quiet) ∧
      ((run.put F.SEC_STATE_HSTATE 4).get F.SEC_STATE_HSTATE = 4 ∧ (run.put F.SEC_STATE_HSTATE 4).Quiet) ∧
      (let r := run.put F.SEC_STATE_HSTATE 3
       r.get F.SEC_STATE_HSTATE = 3 ∧ r.get F.SEC_RESIGN_NOTO = 0 ∧
         ((r.put F.SEC_RESIGN_NOTO 1).get F.SEC_RESIGN_NOTO = 1 ∧ (r.put F.SEC_RESIGN_NOTO 1).Quiet)) := by
  and_intros <;> first | exact quiet_of (by decide +kernel) | decide +kernel

theorem witness_ResetsFromRegistersAndTheLifeCycleChange :
    ((thaw run).Ready 0 ∧ (thaw run).thawed 0 = true) ∧
      (let r := (thaw run).put F.SEC_STATE_HSTATE 3
       r.Quiet ∧ r.get F.SEC_STATE_HSTATE = 3 ∧ r.otp.lcs ≤ 2 ∧ r.pathOn 0 = true ∧ r.bus.g2 = none ∧ r.thawed 0 = true ∧
         r.bus.waiting = [] ∧ r.regFull = false ∧ r.poisoned 0 = false) ∧
      ∀ l ∈ [2, 3], ({ run with sec := { run.sec with lcTarget := some l } } : State).sec.lcTarget = some l := by
  and_intros <;> first | exact ready_of (by decide +kernel) | exact quiet_of (by decide +kernel) | decide +kernel

theorem witness_LifeCycleAndKeyRequestsAreAccepted :
    (let s : State := { run with otp := { run.otp with lcs := 1 } }
     let n : State := { s with net := { run.net with sess := [(4, { open_ := true, port := 0 })] } }
     s.Ready 0 ∧ (2 : Word).toNat < 8 ∧ s.lcAllowed (2 : Word).toNat = true ∧ s.anyEnabled = false ∧ n.Ready 4 ∧ (4 : Path) ≠ 0 ∧
       n.lcAllowed (2 : Word).toNat = true ∧ n.anyEnabled = false) ∧
      run.Ready 0 ∧ run.flag F.SEC_KEYSTAT_BUSY = false := by
  and_intros <;> first | exact ready_of (by decide +kernel) | decide +kernel

theorem witness_KeyOperationsEndInTheFuses : ∀ bad : Bool, ∀ op < 8,
    let s : State := { run with sec := { run.sec with keyop := some (op, 3, bad) } }
    quietB s = true ∧ s.sec.keyop = some (op, 3, bad) := by decide +kernel

theorem witness_WipesClocksAndQuadsAreReported :
    (State.reset.Quiet ∧ State.reset.get F.SEC_STATE_HSTATE ≠ 2 ∧ State.reset.get F.SEC_STATE_HSTATE ≠ 3) ∧
      (run.Quiet ∧ run.get F.SEC_STATE_HSTATE = 2) ∧ (run.put F.DML_QSTAT_POWERED 1 6).flag F.DML_QSTAT_POWERED 6 = true ∧
      (strung run).get F.SEC_STATE_HSTATE = 2 ∧ (∃ l < 26, quadOf l = 5 ∧ (strung run).laneUsed l = true) ∧
      ∀ l < 26, quadOf l = 6 → run.laneUsed l = false := by
  and_intros <;> first | exact quiet_of (by decide +kernel) | decide +kernel

/-- Sixteen failing pages are retired, and one more ends the boot. -/
theorem witness_WipesClocksAndQuadsAreReported_pages :
    ∀ n ∈ [16, 17], ((List.range 4096).filter fun p => (State.reset.page p).retired || (List.range n).contains p).length = n := by
  decide +kernel

/-- What a run of written bytes reads as. -/
theorem get_setRun (d : Nat → Byte) (vs : List Byte) : ∀ (l : Sparse Byte) (k j : Nat),
    Sparse.get d (Sparse.setRun d 1 l k vs) j = if k ≤ j ∧ j < k + vs.length then vs.getD (j - k) 0 else Sparse.get d l j := by
  induction vs with
  | nil =>
    intro l k j
    rw [if_neg (by simp)]
    rfl
  | cons v vs ih =>
    intro l k j
    simp only [Sparse.setRun]
    rw [ih, Sparse.get_set]
    by_cases h1 : j = k
    · subst h1
      rw [if_neg (by omega), if_pos rfl, if_pos ⟨Nat.le_refl _, by simp⟩]
      simp
    · by_cases h2 : k + 1 ≤ j ∧ j < k + 1 + vs.length
      · rw [if_pos h2, if_pos ⟨by omega, by simp; omega⟩]
        obtain ⟨m, rfl⟩ : ∃ m, j = k + 1 + m := ⟨j - (k + 1), by omega⟩
        rw [show k + 1 + m - (k + 1) = m by omega, show k + 1 + m - k = m + 1 by omega]
        rfl
      · rw [if_neg h2, if_neg h1, if_neg (by simp; omega)]

/-- A header that passes step 1: part 0x7640, a section stream of 64 bytes, owner key slot 0. -/
def headerBytes : List Byte :=
  let b := leBytes 4 0x4D49594C ++ leBytes 2 2 ++ leBytes 2 256 ++ leBytes 2 0x7640 ++ leBytes 2 0 ++ leBytes 4 7 ++ leBytes 4 1 ++
    leBytes 4 (64 + 5632) ++ leBytes 4 64 ++ List.replicate (0xFC - 28) 0
  b ++ leBytes 4 (crc32c b)

/-- A head whose two slots hold that header, in OWNED, with the clocks locked and an owner key that fits. -/
def bootingOn (f : Sparse Byte) : State :=
  let s : State := { State.reset.put F.CLK_STAT_LOCKED 15 with
    flash := f, otp := { State.reset.otp with lcs := 1 }, nv := { State.reset.nv with lcMirror := 1 } }
  { s with otp := { s.otp with owner := [(0, Config.sha384 (s.imgBytes 0 0x100 32) ++ Config.sha384 (s.imgBytes 0 0x120 1952))] } }

def booting : State :=
  bootingOn (Sparse.setRun (fun _ => 0xFF) 1 (Sparse.setRun (fun _ => 0xFF) 1 [] 0 headerBytes) (2 ^ 25) headerBytes)

theorem bootingOn_owner (f : Sparse Byte) : Sparse.get (fun _ => []) (bootingOn f).otp.owner 0 =
    Config.sha384 ((bootingOn f).imgBytes 0 0x100 32) ++ Config.sha384 ((bootingOn f).imgBytes 0 0x120 1952) := rfl

theorem bootingOn_flash (f : Sparse Byte) : (bootingOn f).flash = f := rfl

theorem booting_hdr (k : Nat) (hk : k < 2) : booting.hdr k = headerBytes := by
  have len : headerBytes.length = 256 := by decide +kernel
  have b0 : booting.slotBase 0 = 0 := rfl
  have b1 : booting.slotBase 1 = 2 ^ 25 := rfl
  apply List.ext_getElem
  · simp [State.hdr, State.flashGet, Sparse.getRun, len]
  · intro i h1 h2
    have h3 : i < 256 := Nat.lt_of_lt_of_eq h2 len
    simp only [State.hdr, State.flashGet, Sparse.getRun, List.getElem_map, List.getElem_range]
    have e : headerBytes.getD i 0 = headerBytes[i]'h2 := by simp only [List.getD, List.getElem?_eq_getElem h2, Option.getD]
    obtain rfl | rfl : k = 0 ∨ k = 1 := by omega
    · rw [b0, booting, bootingOn_flash, get_setRun, get_setRun, len, if_neg (by omega), if_pos (by omega), ← e]
      simp
    · rw [b1, booting, bootingOn_flash, get_setRun, len, if_pos (by omega), ← e]
      simp

theorem witness_BootReadsASlotAndVerifiesIt :
    (State.reset.Quiet ∧ State.reset.clocksUp = false) ∧
      (let s : State := { State.reset.put F.CLK_STAT_LOCKED 15 with
        otp := { State.reset.otp with lcs := 2 }, nv := { State.reset.nv with lcMirror := 2 } }
       s.clocksUp = true ∧ s.get F.SEC_STATE_HSTATE = 0 ∧ s.boot.stage = .idle ∧ s.boot.ordered = false ∧ s.nv.lcMirror = s.otp.lcs ∧
         s.aon.tamperNew = false ∧ s.aon.oneshot = false ∧ s.nv.wipePending = none ∧ s.boot.mustWipe = false ∧ s.otp.lcs = 2 ∧ s.pins.sfdp = true ∧
         4 * 2 ^ 20 ≤ s.pins.density ∧ s.pins.density ≤ 64 * 2 ^ 20 ∧ s.hdrCode 0 = 2 ∧ s.hdrCode 1 = 2) ∧
      (let s : State := { State.reset with boot := { State.reset.boot with slot := some 1, stage := .reading } }
       s.Quiet ∧ s.boot.slot = some 1 ∧ s.boot.stage = .reading) := by
  and_intros <;> first | exact quiet_of (by decide +kernel) | decide +kernel

/-- Both headers pass and slot 0 is taken. -/
theorem witness_BootReadsASlotAndVerifiesIt_valid :
    booting.clocksUp = true ∧ booting.get F.SEC_STATE_HSTATE = 0 ∧ booting.boot.stage = .idle ∧ booting.boot.ordered = false ∧
      booting.nv.lcMirror = booting.otp.lcs ∧ booting.nv.wipePending = none ∧ booting.boot.mustWipe = false ∧ booting.otp.lcs = 1 ∧
      booting.hdrCode 0 = 0 ∧ booting.hdrCode 1 = 0 ∧
      booting.slotCode 0 = 0 ∧ booting.Quiet := by
  have ok : ∀ k < 2, booting.hdrCode k = 0 := by
    intro k hk
    have a : headerBytes.all (· == 0xFF) = false := by decide +kernel
    have b : leAt headerBytes 0x14 4 ≤ booting.slotSize := by
      rw [show leAt headerBytes 0x14 4 = 5696 by decide +kernel, show booting.slotSize = 2 ^ 25 from rfl]
      omega
    have c : (leAt headerBytes 0 4 == 0x4D49594C && leAt headerBytes 4 2 == 2 && leAt headerBytes 6 2 == 256 &&
      leAt headerBytes 0xFC 4 == crc32c (headerBytes.take 0xFC) && leAt headerBytes 0x14 4 == leAt headerBytes 0x18 4 + 5632) = true := by
      decide +kernel
    have d : (leAt headerBytes 0x18 4 % 16 == 0) = true := by decide +kernel
    have e : 64 ≤ leAt headerBytes 0x18 4 := by decide +kernel
    unfold State.hdrCode
    rw [booting_hdr k hk, a, if_neg Bool.false_ne_true, if_pos]
    unfold hdrOk
    rw [c, d, decide_eq_true b, decide_eq_true e]
    rfl
  refine ⟨by decide +kernel, by decide +kernel, rfl, rfl, rfl, rfl, rfl, rfl, ?_, ?_, ?_, quiet_of (by decide +kernel)⟩
  · exact ok 0 (by omega)
  · exact ok 1 (by omega)
  · unfold State.slotCode State.ownerKeyOk
    rw [booting_hdr 0 (by omega)]
    have p : leAt headerBytes 8 2 = 0x7640 := by decide +kernel
    have q : leAt headerBytes 0xA 1 = 0 := by decide +kernel
    have r : leAt headerBytes 0x10 4 = 1 := by decide +kernel
    simp only [p, q, r]
    have held : Sparse.get (fun _ => []) booting.otp.owner 0 =
        Config.sha384 (booting.imgBytes 0 0x100 32) ++ Config.sha384 (booting.imgBytes 0 0x120 1952) := bootingOn_owner _
    have full : (Sparse.get (fun _ => []) booting.otp.owner 0).isEmpty = false := by
      rw [held]
      have : (Config.sha384 (booting.imgBytes 0 0x100 32)).length = 48 := Vector.length_toList
      cases hx : Config.sha384 (booting.imgBytes 0 0x100 32) with
      | nil => rw [hx] at this; simp at this
      | cons => rfl
    have rev : booting.otp.ownerRev = [] := rfl
    have svn : booting.otp.svn = 0 := rfl
    rw [full, held, rev, svn]
    simp

theorem witness_TheCheckPassAcceptsAnImageAndRunBegins :
    (let b : Boot := { State.reset.boot with slot := some 1, stage := .applied }
     (({ State.reset with boot := { b with cfgref := State.reset.configCrc } } : State).configCrc = State.reset.configCrc) ∧
       (({ State.reset with boot := { b with cfgref := State.reset.configCrc + 1 } } : State).configCrc ≠ State.reset.configCrc + 1)) ∧
      (let s : State := { State.reset.put F.SEC_STATE_HSTATE 1 with
        boot := { stage := .accepted, sramDone := true, dramDone := true, stagingDone := true } }
       s.get F.SEC_STATE_HSTATE = 1 ∧ s.boot.stage = .accepted ∧ s.whiteout = false ∧ s.flag F.ACQ_STAT_SHED = false ∧
         s.img.safety = false ∧ (∀ n < 8, s.safeMode n = 0) ∧
         ({ s with img := { s.img with safety := true } } : State).img.safety = true) := by
  refine ⟨⟨rfl, ?_⟩, ?_⟩
  · show State.reset.configCrc ≠ State.reset.configCrc + 1
    omega
  · and_intros <;> decide +kernel

theorem witness_AttestationAndFlashOperationsRun :
    (run.Ready 0 ∧ run.flag F.SEC_ATTSTAT_BUSY = false) ∧ ((run.put F.SEC_ATTSTAT_BUSY 1).Ready 0 ∧
      (run.put F.SEC_ATTSTAT_BUSY 1).Quiet ∧ (run.put F.SEC_ATTSTAT_BUSY 1).flag F.SEC_ATTSTAT_BUSY = true) ∧
      ((thaw run).Ready 0 ∧ (thaw run).thawed 0 = true ∧ (thaw run).flag F.SEC_NVMSTAT_BUSY = false) ∧
      ∀ cmd < 4, ({ run with sec := { run.sec with nvm := some (cmd, 4096) } } : State).sec.nvm = some (cmd, 4096) := by
  and_intros <;> first | exact ready_of (by decide +kernel) | exact quiet_of (by decide +kernel) | decide +kernel

/-- A flash address inside the density, in the running slot and outside it. -/
theorem witness_AttestationAndFlashOperationsRun_flash :
    ∀ slot < 2, let s := (thaw run).put F.SEC_STATE_SLOT slot
      readyB s 0 = true ∧ s.thawed 0 = true ∧ s.flag F.SEC_NVMSTAT_BUSY = false ∧ (0xFFF000 : BitVec 26).toNat < s.pins.density ∧
        (0xFFF000 : BitVec 26).toNat % 4096 = 0 ∧ (s.inRunSlot (0xFFF000 : BitVec 26).toNat = true ↔ slot = 0) := by
  decide +kernel

/-- R35: a set-point whose crossing fails parity is discarded and EV_XING_PAR (source 4) is raised; the same write without the error waits. -/
theorem test_parity_discards_the_word :
    (run.badCrossing 0 (F.CE_SP_VALUE.addr 3) 7).bus.buf = [] ∧
      (run.badCrossing 0 (F.CE_SP_VALUE.addr 3) 7).evt.raised = [(4, 0, 0)] ∧
      (run.pathWrite 0 (F.CE_SP_VALUE.addr 3) 7).bus.buf = [⟨0, F.CE_SP_VALUE.addr 3, 7, 0xFFFFFFFF, false, none, false⟩] := by
  and_intros <;> decide +kernel

/-- R443: before the first boundary the supply is not watched, the clock is. -/
theorem test_supply_tamper_watched_in_run :
    State.reset.tamperSeen 3 = 2 ∧ run.tamperSeen 3 = 3 := by decide +kernel

/-! ### Witnesses: events, registers and transactions -/

/-- One occurrence of source 7 waits; it is enabled with a reaction. -/
def occurred (react cnt : Nat) : State :=
  let e := ((((run.evt.put F.EVT_CFG_REACT react 7).put F.EVT_EN_EN (2 ^ 7)).put F.EVT_CNT_CNT cnt 7).put F.EVT_CFG_SQBURST 0 7).put F.EVT_CTRL_LOGEN 1
  { run with evt := { e with raised := [(7, 1, 2)] } }

theorem witness_AnOccurrenceIsCountedAndItsReactionPerformed : ∀ react < 4, ∀ cnt ∈ [0, 0xFFFFFFFD, 0xFFFFFFFF],
    let s := occurred react cnt
    s.evt.raised = [(7, 1, 2)] ∧ s.evt.nowLog = 0 ∧ s.evt.woReq = none ∧ s.evt.resignReq = none ∧ s.get F.CE_TRTRIG_SRC ≠ 2 ∧
      (∀ k < 8, s.rState k ≠ 1 ∧ s.rState k ≠ 2) ∧ s.evt.enabled 7 = true ∧ s.evt.get F.EVT_CFG_REACT 7 = react ∧
      s.evt.get F.EVT_CNT_CNT 7 = cnt ∧ s.evt.get F.EVT_CFG_SQBURST 7 = 0 ∧ s.evt.get F.EVT_CTRL_LOGEN = 1 ∧ s.evt.queue.length < 64 ∧
      ({ s with evt := s.evt.put F.EVT_EN_EN 0 } : State).evt.enabled 7 = false := by decide +kernel

theorem witness_AnOccurrenceIsCountedAndItsReactionPerformed_notify : ∀ react < 4, ∀ on < 2,
    ((occurred react 0).evt.put F.EVT_CTRL_NETNOTIFY on).get F.EVT_CTRL_NETNOTIFY = on ∧ (occurred react 0).evt.notifies = [] := by
  decide +kernel

theorem witness_CountsEntriesAndSummariesOfTheFabric :
    run.Quiet ∧ ({ run with evt := { run.evt with changed := [0, 1023] } } : State).evt.changed = [0, 1023] ∧
      ({ run with evt := { run.evt with queue := [] } } : State).evt.queue = [] ∧ run.evt.queue ≠ [] ∧
      (let s : State := { run with evt := { run.evt.put F.EVT_CTRL_LOGEN 1 with buckets := [(1023, some ⟨1, 0, 5, 1, 2⟩)] } }
       s.Quiet ∧ 0 < (⟨1, 0, 5, 1, 2⟩ : Bucket).suppressed ∧ 0 < (s.evt.refill 1023 s.ct).tokens ∧
         s.evt.get F.EVT_CTRL_LOGEN = 1 ∧ s.evt.queue.length < 64 ∧ s.evt.nowLog = 0) ∧ run.evt.derateHold = [] ∧
      ({ run with evt := { run.evt with derateHold := [(7, 1), (9, 1), (8, 2)] } } : State).evt.derateHold = (7, 1) :: [(9, 1), (8, 2)] ∧
      (thaw run).Ready 0 ∧ (thaw run).thawed 0 = true := by
  and_intros <;> first | exact ready_of (by decide +kernel) | exact quiet_of (by decide +kernel) | decide +kernel

/-- No register, complement word or window word stands at an address that every path may reach. -/
def unmapped (s : State) (a : Nat) : Bool :=
  s.pathOn 0 && !s.poisoned 0 && s.bus.g2.isNone && !s.mustWait 0 a && !s.shut a && (a % 4 != 0 || (blockOf a != some .window && (s.rowAt a).isNone && (complOf a).isNone))

/-- Odd addresses at both ends of a block and of the window, the last word below the window, the first above the registers. -/
theorem witness_AccessesToNoRegisterReturnNomap : run.Quiet ∧
    ∀ a ∈ [0x3, 0xFC003, 0x100000, 0x0FFFFFFC, 0x10000001, 0x13FFFFFF, 0x14000000], unmapped run a = true := by
  and_intros <;> first | exact quiet_of (by decide +kernel) | decide +kernel

theorem witness_AccessesToNoRegisterReturnNomap_holes : ∀ a ∈ [0x100000, 0x0FFFFFFF, 0x14000000], blockOf a = none := by decide

theorem witness_WritesAnswerWithTheirStatus :
    run.Ready 0 ∧ run.ownsOpen 0 = false ∧ run.bufCount (F.CE_SP_VALUE.addr 15) < 64 ∧ run.bus.held = [] ∧ run.get F.RED_STAT_ROLE = 0 ∧
      (99 : Word).toNat < 100 ∧ run.thawed 0 = false ∧ run.txBusy = false := by
  and_intros <;> first | exact ready_of (by decide +kernel) | decide +kernel

theorem witness_BufferedWritesApplyAtTheirPoint :
    (let s := buffered run (F.CE_SP_VALUE.addr 15) 9 0xFFFFFFFF
     s.Quiet ∧ s.bus.stage = [] ∧ s.bus.buf = [⟨0, F.CE_SP_VALUE.addr 15, 9, 0xFFFFFFFF, false, none, false⟩] ∧ s.bus.held = []) ∧
      (let s := buffered run (F.LVS_CMP_CMP.addr 17) 0xFFFFF 0xFFFFF
       s.Quiet ∧ s.bus.stage = [] ∧ (0xFFFFF : Word).toNat < 2 ^ 20 ∧ s.bus.buf = [⟨0, F.LVS_CMP_CMP.addr 17, 0xFFFFF, 0xFFFFF, false, none, false⟩] ∧ s.bus.held = [] ∧
         (16 : ChanId) ≠ 17) := by
  and_intros <;> first | exact quiet_of (by decide +kernel) | decide +kernel

/-- An open session of path 4 beside HSPI, and a head in OWNED whose life cycle may go on. -/
def twoPaths : State :=
  { run with otp := { run.otp with lcs := 1 }, net := { run.net with sess := [(4, { open_ := true, port := 0 })] } }

theorem witness_ThawsAndComplementPairsGuardTheirWrites :
    (run.Quiet ∧ run.pathOn 0 = true ∧ run.poisoned 0 = false ∧ run.bus.g2 = none ∧ run.bus.waiting = [] ∧ run.otp.lcs ≠ 4 ∧ (0x7A3D : Word) ≠ 0x7A3C) ∧
      (twoPaths.Ready 0 ∧ twoPaths.Ready 4 ∧ twoPaths.pathOn 4 = true ∧ twoPaths.poisoned 4 = false ∧ (4 : Path) ≠ 0) ∧ ((5 : Word) ≠ ~~~ 5 ∧ (0xFC028 : Word) ≠ 0xFC020 + 4) ∧
      (2 : Word).toNat < 8 ∧ twoPaths.lcAllowed (2 : Word).toNat = true ∧ twoPaths.anyEnabled = false := by
  and_intros <;> first | exact ready_of (by decide +kernel) | exact quiet_of (by decide +kernel) | decide +kernel

/-- A transaction of path 0 in a state. -/
def txning (st : Nat) : State := run.put F.SYS_TXNSTAT_STATE st

theorem witness_TransactionsOpenStageCommitAndRollBack :
    (run.Ready 0 ∧ run.get F.RED_STAT_ROLE = 0 ∧ run.txBusy = false) ∧
      (let s := (txning txOpen).put F.SYS_TXNSTAT_COUNT 8191
       s.Ready 0 ∧ s.ownsOpen 0 = true ∧ s.get F.SYS_TXNSTAT_POISON = 0 ∧ s.get F.SYS_TXNSTAT_COUNT < 8192 ∧
         s.commitFault = none ∧ s.txBusy = true ∧ s.get F.SYS_TXNSTAT_OWNER = 0 ∧ s.txState ≠ txRef ∧ s.bus.txn.passed = false) ∧
      ((txning txOpen).cellList.filter fun c => affectable ((txning txOpen).cState c) && !((txning txOpen).stagedPrm c).isEmpty) = [] ∧
      (let s := celled { txning txOpen with bus := { (txning txOpen).bus with txn := { staged := [(F.CELL_PRM_VALUE.addr 0 0, 5)] } } } 0 csBlocked
       s.Ready 0 ∧ s.ownsOpen 0 = true ∧ s.commitFault = none ∧
         (s.cellList.filter fun c => affectable (s.cState c) && !(s.stagedPrm c).isEmpty) ≠ []) := by
  and_intros <;> first | exact ready_of (by decide +kernel) | decide +kernel

theorem witness_TransactionsEndWithoutTheirOwner :
    ((txning txOpen).Quiet ∧ (txning txOpen).get F.RED_STAT_ROLE = 0 ∧ (txning txOpen).get F.SEC_STATE_HSTATE = 2 ∧
      (txning txOpen).txState = txOpen ∧ (txning txOpen).bus.txn.peer = false ∧ (txning txOpen).get F.SYS_TXNSTAT_POISON = 0 ∧ (txning txOpen).get F.SYS_TXNSTAT_OWNER = 0) ∧
      ((txning txOpen).put F.SYS_TXNSTAT_OWNER 4).get F.SYS_TXNSTAT_OWNER ≠ 0 ∧ run.txState ≠ txOpen ∧ ({ txning txOpen with bus := { (txning txOpen).bus with txn := { peer := true } } } : State).bus.txn.peer = true ∧
      (let s : State := { txning txPrepare with bus := { (txning txPrepare).bus with txn := { affected := [0, 287], acked := [0] } } }
       s.Quiet ∧ s.txState = txPrepare ∧ s.bus.txn.peer = false ∧ 287 ∈ s.bus.txn.affected ∧ 287 ∉ s.bus.txn.acked ∧
         ∀ d ∈ s.bus.txn.affected, d ∉ s.bus.txn.acked → 287 ≤ d) := by
  and_intros <;> first | exact quiet_of (by decide +kernel) | decide +kernel

/-- The configuration monitor in a pass. -/
def monitored (discard : Bool) : State := { run with bus := { run.bus with mon := { armed := true, running := true, discard := discard } } }

theorem witness_TheMonitorComparesEveryPass :
    ((monitored false).Quiet ∧ (monitored false).bus.mon.armed = true ∧ run.bus.mon.running = false) ∧
      ((monitored true).bus.mon.running = true ∧ (monitored true).bus.mon.discard = true ∧ (monitored false).bus.mon.discard = false) ∧
      (monitored false).get F.SYS_CFGSTAT_REFPASS = 0 ∧
      ((monitored false).put F.SYS_CFGSTAT_REFPASS 1).get F.SYS_CFGSTAT_REFPASS = 1 := by
  and_intros <;> first | exact quiet_of (by decide +kernel) | decide +kernel

theorem witness_FreezeCopiesEveryCounter : run.Ready 0 ∧ (roled 2).Ready 0 := by
  and_intros <;> exact ready_of (by decide +kernel)

theorem witness_ReadsOfLowWordsLatchTheHighWords :
    run.get F.SEC_STATE_HSTATE = 2 ∧ run.Ready 0 ∧ run.shut R.SYS_PERIODHI.base = false ∧
      Sparse.get (fun _ => 0) run.bus.periodHi 0 = Sparse.get (fun _ => 0) (thaw run).bus.periodHi 0 := by
  and_intros <;> first | exact ready_of (by decide +kernel) | decide +kernel

/-! ### Witnesses: lanes and the crosslink -/

theorem witness_LanesMoveThroughTheirStates :
    (let s := (thaw (strung run)).put F.DML_QSTAT_POWERED 1 5
     s.Ready 0 ∧ s.thawed 0 = true ∧ s.get F.DML_CTRL_EN 23 = 0 ∧ s.lnState 23 = lnOff ∧ s.laneUsed 23 = true ∧
       s.flag F.DML_QSTAT_POWERED (quadOf 23) = true) ∧
      ((thaw (roled 0)).Ready 0 ∧ (thaw (roled 0)).duplex = true ∧ (thaw (roled 0)).lnState 25 = lnOff ∧
        ((thaw (roled 0)).put F.DML_QSTAT_LOCKED 1 6).flag F.DML_QSTAT_LOCKED (quadOf 25) = true) ∧
      (let s := (thaw run).put F.DML_CTRL_EN 1 25
       s.Ready 0 ∧ s.get F.DML_CTRL_EN 25 = 1 ∧ s.laneBusy 25 = false ∧ s.flag F.DML_HALOSTAT_BUSY 25 = false) ∧
      (let s := celled ((thaw run).put F.DML_CTRL_EN 1 0) 0 csRun
       s.Ready 0 ∧ s.get F.DML_CTRL_EN 0 = 1 ∧ s.laneBusy 0 = true) ∧
      (∀ en : Bool, readyB (laned ((thaw run).put F.DML_CTRL_EN en.toNat 3) 3 lnFault) 0 = true ∧
        (laned ((thaw run).put F.DML_CTRL_EN en.toNat 3) 3 lnFault).get F.DML_CTRL_EN 3 = en.toNat ∧
        (laned ((thaw run).put F.DML_CTRL_EN en.toNat 3) 3 lnFault).lnState 3 = lnFault) ∧
      ((laned (thaw run) 0 lnAlign).lnState 0 = lnAlign ∧ (laned (thaw run) 0 lnService).lnState 0 = lnService) ∧
      ((laned run 4 lnLost).lnState 4 = lnLost ∧ run.lnState 4 ≠ lnLost ∧ (laned run 25 lnLink).lnState 25 = lnLink ∧
        (run.lane 25).idleOk = false) ∧
      (let s := laned (celled run 0 csBlocked) 0 lnService
       s.lnState 0 = lnService ∧ 0 ∈ s.laneCells 0 ∧ s.cState 0 ≠ csRefused) ∧
      (laned (run.put F.DML_STAT_BLOCKLOCK 1 7) 7 lnService).lnState 7 = lnService ∧
      (laned (run.put F.DML_STAT_BLOCKLOCK 1 7) 7 lnService).flag F.DML_STAT_BLOCKLOCK 7 = true := by
  and_intros <;> first | exact ready_of (by decide +kernel) | decide +kernel

/-- A gather frame of two records, the second of which may fail parity. -/
def gathered (parity : Bool) : GatherRx := ⟨0, 2, 0, 0, [3], 0, 0, none, [], [⟨[], false, false, false⟩, ⟨[1], false, false, parity⟩]⟩

theorem witness_WhatTheReceiverSeesIsNoted :
    (codeErrsOf (gathered true) = 0 ∧ (gathered true).recs.filter (·.parity) = [⟨[1], false, false, true⟩] ∧
      codeErrsOf (gathered false) = 0 ∧ ∀ r ∈ (gathered false).recs, r.parity = false) ∧
    (let s := laned run 25 lnAlign
     s.Quiet ∧ s.laneHears 25 = true ∧ s.lnState 25 ≠ lnOff ∧ s.lnState 25 ≠ lnWait) ∧
      (let s := laned (run.put F.DML_STAT_BLOCKLOCK 1 3) 3 lnLink
       s.Quiet ∧ s.laneHears 3 = true ∧ s.lnState 3 = lnLink ∧ s.flag F.DML_STAT_BLOCKLOCK 3 = true ∧
         s.flag F.DML_STAT_GEN 3 = (s.flag F.DML_STAT_GEN 3) ∧ (3 : BitVec 5).toNat = 3 ∧ (4 : BitVec 5).toNat ≠ 3) ∧
      run.laneHears 3 = false := by
  and_intros <;> first | exact quiet_of (by decide +kernel) | decide +kernel

theorem witness_AHaloScanRunsStopsAndReports :
    (let s := laned run 0 lnService
     s.Ready 0 ∧ s.flag F.THM_STAT_SHED = false ∧ 20 ≤ (20 : BitVec 6).toNat ∧ (32 : BitVec 6).toNat ≤ 32 ∧ s.lnState 0 = lnService ∧
       s.flag F.DML_HALOSTAT_BUSY 0 = false) ∧ run.lnState 0 ≠ lnService ∧
      (let s := run.put F.DML_HALOSTAT_BUSY 1 25
       s.Ready 0 ∧ s.flag F.DML_HALOSTAT_BUSY 25 = true ∧ s.Quiet ∧ s.haloRuns 25 = true) ∧ (List.replicate 2048 1).length = 2048 := by
  and_intros <;> first | exact ready_of (by decide +kernel) | exact quiet_of (by decide +kernel) | decide +kernel

/-- A frame of period 0 on X1 with a right CRC and parity. -/
def seg0 : XlSeg := ⟨1, { period := 0 }⟩

/-- A good frame of the own period on the crosslink lane of a state, and the first of its kind. -/
def goodSeg (s : State) (kind : Nat) : Bool :=
  s.xlHears seg0.lane && !seg0.head.parity && seg0.head.crcOk && s.period % 2 ^ 32 == seg0.head.period.toNat && !s.red.got.contains kind

/-- The second copy of a segment kind. -/
def gotSeg (s : State) (kind : Nat) : State := { s with red := { s.red with got := [kind] } }

theorem witness_CrosslinkSegmentsKeepAStandbyInStep :
    (∀ r ∈ [roleAlign, roleReady, roleActive], let s := laned (roled r) 25 lnLink
      quietB s = true ∧ goodSeg s 0 = true ∧ s.red.peerM = none ∧ s.lnState 25 ≠ lnAlign ∧ s.role = r ∧ s.red.peerGone = false) ∧
      (BitVec.ofNat 4 roleResigned).toNat = roleResigned ∧ (BitVec.ofNat 4 roleReady).toNat ≠ roleResigned ∧
      (roled roleReady).period % 2 ^ 32 ≠ (1 : Word).toNat ∧ run.xlHears 0 = false ∧
      ({ period := 0, crcOk := false } : XlHead).crcOk = false ∧ ({ period := 0, parity := true } : XlHead).parity = true ∧
      (let s := laned (roled roleSync) 25 lnService
       quietB s = true ∧ s.inStep = true ∧ (∀ k ∈ [1, 2, 3], goodSeg s k = true ∧ goodSeg (gotSeg s k) k = false) ∧ s.red.takeDue = false ∧
         s.red.ownM = none ∧ s.role = roleSync ∧ s.red.copied = false ∧ s.red.winEnd = false ∧ run.inStep = false ∧
         ({ s with red := { s.red with winEnd := true } } : State).red.winEnd = true) ∧ run.role ≠ roleSync := by
  and_intros <;> decide +kernel

theorem witness_CrosslinkCommandsReachAStandby :
    (let s := laned (roled roleReady) 25 lnService
     quietB s = true ∧ goodSeg s 4 = true ∧ s.isStandby = true ∧ s.bufCount (F.CE_SP_VALUE.addr 15) < 64 ∧ s.bus.held = [] ∧
       (gotSeg s 4).red.got.contains 4 = true ∧ run.isStandby = false) ∧
      (∀ r ∈ [roleReady, roleAlign, roleSync, roleActive], let s := laned (roled r) 25 lnService
        quietB s = true ∧ goodSeg s 5 = true ∧ goodSeg s 6 = true ∧ s.role = r ∧ s.red.takeDue = false ∧
          (gotSeg s 5).red.got.contains 5 = true ∧ (gotSeg s 6).red.got.contains 6 = true) ∧
      ((roled 2).duplex = true ∧ (roled 2).xlUp 0 = false ∧ (roled 2).xlUp 1 = false ∧ (laned (roled 2) 25 lnService).xlUp 1 = true) ∧
      (laned (roled roleSync) 23 lnService).inStep = true ∧ (laned (roled roleSync) 23 lnService).lnState 23 = lnService ∧
      (let s := laned (laneOf1 (roled roleSync)) 23 lnService
       s.inStep = true ∧ s.lnState 23 = lnService ∧ s.laneCells 23 = [0]) ∧ run.inStep = false := by
  and_intros <;> decide +kernel

/-! ### Witnesses: cells, trace, the LV stage, the gate drives and the pump -/

theorem witness_CellAndGroupCommandsWaitForTheBoundary :
    (let s := (celled (thaw run) 287 csBlocked).put F.CELL_STAT_PRMOK 1 287
     s.Ready 0 ∧ s.thawed 0 = true ∧ s.ownsOpen 0 = false ∧ s.regFull = false ∧ s.bus.held = [] ∧
       s.bufCount (F.CELL_CTRL_CMD.addr 287) < 64 ∧ s.bufCount R.CELL_GCTRL.base < 64 ∧ s.cellCmdOk 287 1 = true ∧
       s.cellCmdOk 287 2 = false ∧ s.cellCmdOk 0 1 = false ∧ s.whiteout = false ∧ (s.stagedHash fun _ => true) = false ∧
       (s.put F.SAF_STAT_WO 1).whiteout = true ∧
       (({ s with bus := { s.bus with txn := { staged := [(F.CELL_ENTRYW_WORD.addr 5, 1)] } } } : State).put F.SYS_TXNSTAT_STATE txOpen).stagedHash
         (fun _ => true) = true) ∧
      (∀ x ∈ [(csReady, 2, true), (csRun, 3, true), (csFailed, 4, true), (csReady, 4, false), (csLost, 3, false)],
        let s := (celled (thaw run) 287 x.1).wr 0xC1F00 0x20000000
        readyB s 0 = true ∧ s.thawed 0 = true ∧ s.regFull = false ∧ s.bufCount (F.CELL_CTRL_CMD.addr 287) < 64 ∧
          s.cellCmdOk 287 x.2.1 = x.2.2) := by
  and_intros <;> first | exact ready_of (by decide +kernel) | decide +kernel

/-- One waiting command of a cell in a state. -/
def cellWaits (c st cmd : Nat) : State :=
  buffered ((celled run c st).put F.CELL_STAT_PRMOK 1 c) (F.CELL_CTRL_CMD.addr c) (BitVec.ofNat 32 cmd) 7

theorem witness_CellAndGroupCommandsActAtTheBoundary :
    (∀ c ∈ [0, 287], ∀ x ∈ [(csBlocked, 1, true), (csQueued, 1, true), (csReady, 2, true), (csFailed, 4, true), (csRun, 2, false),
        (csRun, 3, false)], let s := cellWaits c x.1 x.2.1
      quietB s = true ∧ s.bus.buf = [⟨0, F.CELL_CTRL_CMD.addr c, BitVec.ofNat 32 x.2.1, 7, false, none, false⟩] ∧ s.bus.held = [] ∧
        s.bus.stage = [] ∧
        s.cellCmdOk c x.2.1 = x.2.2 ∧ s.cState c = x.1) ∧
      (let s := (cellWaits 0 csRun 3).wr 0xB0000 0x20000000
       s.cByp 0 ≠ 0 ∧ s.cellCmdOk 0 3 = true) ∧
      (let s := (cellWaits 5 csPrecharge 2).setCell 5 { unit := true }
       (s.cell 5).unit = true ∧ s.cellCmdOk 5 2 = true) ∧
      (buffered run R.CELL_GCTRL.base 1 3).bus.buf = [⟨0, R.CELL_GCTRL.base, 1, 3, false, none, false⟩] ∧
      (buffered run R.CELL_GCTRL.base 2 3).bus.buf = [⟨0, R.CELL_GCTRL.base, 2, 3, false, none, false⟩] := by
  and_intros <;> decide +kernel

theorem witness_GroupStartsAtTheBoundary :
    (let s := (celled run 287 csBlocked).put F.CELL_STAT_PRMOK 1 287
     (s.stagedHash fun _ => true) = false ∧ s.whiteout = false ∧ s.startTest = true ∧ (∀ c ∈ s.cellList, s.cState c = csBlocked → s.flag F.CELL_STAT_PRMOK c = true)) ∧
      (run.put F.SAF_STAT_WO 1).whiteout = true ∧ (celled run 287 csRun).cState 287 = csRun ∧
      (∀ c < 288, (celled run 287 csReady).cState c ≠ csRun) := by
  and_intros <;> decide +kernel

/-- A cell whose sets begin with one of a kind, sent up to a word, some times over. -/
def staging (k : SetKind) (next resends : Nat) : State := run.setCell 7 { sets := [⟨k, 1, [0, 0, 0], next, resends⟩] }

theorem witness_PrechargeAndStagingTimersActOnTheCell :
    (run.Quiet ∧ run.cState 0 ≠ csPrecharge ∧ (run.cell 0).sets = []) ∧
      (let s := (celled run 287 csPrecharge).setCell 287 { unit := true }
       s.cState 287 = csPrecharge ∧ (s.cell 287).unit = true) ∧
      (∀ x ∈ [(SetKind.txn, 3, 0), (SetKind.params, 2, 0), (SetKind.params, 3, 2), (SetKind.params, 3, 3)],
        ((staging x.1 x.2.1 x.2.2).cell 7).sets = [⟨x.1, 1, [0, 0, 0], x.2.1, x.2.2⟩]) := by
  and_intros <;> first | exact quiet_of (by decide +kernel) | decide +kernel

/-- A trace channel 15 that fills its halves. -/
def tracing (st mode : Nat) (x : Trace) : State :=
  { (run.put F.CE_TRSTAT_STATE st 15).put F.CE_TRCFG_MODE mode 15 with ce := { run.ce with trc := [(15, x)] } }

theorem witness_TraceChannelsArmStopAndSpill :
    run.Ready 0 ∧ run.ownsOpen 0 = false ∧ run.regFull = false ∧ run.bus.held = [] ∧ run.bufCount R.CE_TRTRIG.base < 64 ∧
      (0x80000000 : Word) &&& 0x700FF000#32 = 0 ∧ run.get F.CE_TRCFG_MODE 0 = 0 ∧ (tracing 1 1 {}).get F.CE_TRCFG_MODE 15 ≠ 0 ∧
      (tracing 2 1 {}).get F.CE_TRSTAT_STATE 15 = 2 ∧ (0x8000 : BitVec 16).getLsbD 15 = true ∧ (0x7FFF : BitVec 16).getLsbD 15 = false ∧
      (let s := tracing 1 3 { taken := 32768 }
       s.Quiet ∧ s.get F.CE_TRSTAT_STATE 15 = 1 ∧ s.get F.CE_TRCFG_MODE 15 = 3 ∧ (s.trace 15).halves < (s.trace 15).taken / 32768) ∧
      ¬ (run.get F.CE_TRSTAT_STATE 15 = 1) := by
  and_intros <;> first | exact ready_of (by decide +kernel) | exact quiet_of (by decide +kernel) | decide +kernel

theorem witness_HostComparesAndForcesReachTheChannels :
    (∀ n : ChanId, (0xFFFFF : Word).toNat < 2 ^ 20 ∧ run.bufCount (F.LVS_CMP_CMP.addr n) < 64) ∧
      run.Ready 0 ∧ run.ownsOpen 0 = false ∧ run.regFull = false ∧ run.bus.held = [] ∧ 16 ≤ (17 : ChanId).val ∧
      (run.put F.LVS_CFG_HOSTCTL 1 15).flag F.LVS_CFG_HOSTCTL 15 = true ∧ run.flag F.LVS_CFG_HOSTCTL 0 = false ∧
      (thaw run).Ready 0 ∧ (thaw run).thawed 0 = true := by
  and_intros <;> first | exact ready_of (by decide +kernel) | decide +kernel

/-- A channel that runs with a compare inside its period. -/
def counting (n : Nat) (x : Chan) : State := ((run.setChan n { x with running := true }).put F.LVS_CMP_CMP 5 n).put F.LVS_PER_PER 10 n

theorem witness_CountersAndDelaysFormTheRawDrives :
    (∀ n ∈ [0, 15], let s := counting n {}
      quietB s = true ∧ (s.chan n).running = true ∧ 0 < s.get F.LVS_CMP_CMP n ∧ s.get F.LVS_CMP_CMP n < s.get F.LVS_PER_PER n ∧
        (s.chan n).restart = false ∧ s.get F.LVS_DT_DF n = 0 ∧ (s.put F.LVS_DT_DF 3 n).get F.LVS_DT_DF n ≠ 0 ∧ s.counter n = 0 ∧
        ({ s with ct := 5 } : State).counter n = s.get F.LVS_CMP_CMP n ∧
        (∀ high : Bool, (s.chan n).rawCt + s.delayOf n high ≤ s.ct) ∧
        ¬ (s.chan n).rawCt + (s.put F.LVS_DT_DF 3 n).delayOf n true ≤ s.ct) ∧
      ((counting 17 {}).put F.LVS_CHOPCFG_MODE 2 1).chopMode 1 = 2 ∧ (counting 17 {}).counter 17 = 0 ∧
      ({ counting 17 {} with ct := 5 } : State).counter 17 ≠ 0 ∧ (run.chan 0).running = false ∧
      (let s := ((counting 3 { rejecting := true, clean := 1023 }).put F.LVS_PWM_STAT_SHOOTCNT 14 3).put F.LVS_GCFG_SHOOTN 15
       s.counter 3 = 0 ∧ (s.chan 3).rejecting = true ∧ s.get F.LVS_GCFG_SHOOTN ≤ satInc 15 (s.get F.LVS_PWM_STAT_SHOOTCNT 3) ∧ (s.chan 3).shoot = false ∧
         1024 ≤ (s.chan 3).clean + 1) ∧
      (let s := ((counting 16 { chopHold := true, chopWin := true }).put F.LVS_CHOPCFG_MODE 1 0)
       (s.chan 16).chopHold = true ∧ s.chopMode 0 = 1 ∧ (s.chan 16).raw ≠ (s.chan 16).chopWin) ∧
      (let s := ((counting 17 { chopHold := true }).put F.LVS_CHOPCFG_MODE 1 1)
       (s.chan 17).chopHold = true ∧ (s.chan 17).raw = (s.chan 17).chopWin) ∧ (run.chan 16).chopHold = false := by
  and_intros <;> decide +kernel

/-- Trip line `l` watches its software source, which is asserted. -/
def tripping (l : Nat) : State := (run.put F.LVS_TRIPCFG_SRC 0x31 l).put F.LVS_TRIPSW_LINE (2 ^ l)

theorem witness_TripsDriveTheirScopeLowUntilCleared :
    (run.Ready 0 ∧ run.tripLevel 7 = false ∧ (tripping 7).tripLevel 7 = true ∧ (tripping 7).flag F.LVS_TRIPCFG_EN 7 = false ∧
      ((tripping 7).put F.LVS_TRIPCFG_EN 1 7).tripLevel 7 = true ∧ (run.put F.LVS_TRIPCFG_EN 1 7).flag F.LVS_TRIPCFG_EN 7 = true ∧
      run.flag F.GDI_FIRST_VALID = false ∧ (run.put F.GDI_FIRST_VALID 1).flag F.GDI_FIRST_VALID = true ∧
      (let s : State := { (tripping 7).put F.GDI_FIRST_CLASS 7 with gdi := { firstAt := 4 }, ct := 4 }
       s.gdi.firstAt = s.ct ∧ s.tripClass 7 < s.get F.GDI_FIRST_CLASS ∧ ({ s with ct := 5 } : State).gdi.firstAt ≠ ({ s with ct := 5 } : State).ct) ∧
      ((run.put F.LVS_TRIPSCOPE_SCOPE 0x20001 7).get F.LVS_TRIPSCOPE_SCOPE 7).testBit 17 = true) ∧
      (let s := run.putBit F.LVS_TRIPSTAT_LATCHED 7 true
       s.Ready 0 ∧ (s.get F.LVS_TRIPSTAT_LATCHED).testBit 7 = true ∧ (s.get F.LVS_TRIPSTAT_ACTIVE).testBit 7 = false ∧
         s.justSet (1, 7) = false ∧ ({ s with gdi := { nowAct := [(1, 7)] } } : State).justSet (1, 7) = true ∧
         s.latchLow 0 = false ∧ (s.put F.LVS_TRIPSCOPE_SCOPE 1 7).latchLow 0 = true ∧
         ((s.put F.LVS_TRIPSCOPE_SCOPE 1 7).put F.LVS_TRIPSTAT_LATCHED 0).latchLow 0 = false ∧
         ((s.putBit F.LVS_TRIPSTAT_ACTIVE 7 true).get F.LVS_TRIPSTAT_ACTIVE).testBit 7 = true) ∧
      (let s := run.setChan 15 { shoot := true }
       s.Ready 0 ∧ (s.chan 15).shoot = true ∧ s.forceH 15 ≠ 2 ∧ s.forceL 15 ≠ 2 ∧ (s.put F.LVS_PWM_STAT_FORCE 2 15).forceH 15 = 2 ∧
         (s.put F.LVS_PWM_STAT_FORCE 8 15).forceL 15 = 2 ∧ (s.chan 0).shoot = false ∧ s.justSet (2, 15) = false ∧
         ({ s with gdi := { nowAct := [(2, 15)] } } : State).justSet (2, 15) = true) := by
  and_intros <;> first | exact ready_of (by decide +kernel) | decide +kernel

theorem witness_DriverFaultsHoldThenDropTheirScope :
    (let s := run.setChan 15 { running := true, raw := true, dH := true, outH := true }
     s.Quiet ∧ (s.chan 15).blank = false ∧ (s.faultScope 15).testBit 15 = true ∧ s.inDeadTime 15 = false ∧
       ¬ ((s.drives 15).1 = true ∧ (s.drives 15).2 = true)) ∧
      (let s := (run.setChan 15 { running := true, raw := true, dH := true, outH := true })
       s.hardLow 15 = false ∧ s.flag F.GDI_HOLD_ACTIVE = false) ∧
      (let s := run.setChan 0 { blank := true }
       (s.chan 0).blank = true ∧ s.gdi.fltAct.testBit 0 = false ∧ ({ s with gdi := { fltAct := 1 } } : State).gdi.fltAct.testBit 0 = true) ∧
      (let s : State := { run.put F.GDI_HOLD_ACTIVE 1 with gdi := { holdScope := 2 ^ 17 } }
       s.Quiet ∧ s.flag F.GDI_HOLD_ACTIVE = true ∧ s.gdi.holdScope.testBit 17 = true) ∧
      (let s := (thaw run).put F.GDI_FLT_LATCHED 0x8000
       s.Ready 0 ∧ s.thawed 0 = true ∧ (s.get F.GDI_FLT_LATCHED).testBit 15 = true ∧ (s.get F.GDI_FLT_LATCHED).testBit 0 = false ∧
         s.gdi.fltAct.testBit 15 = false) := by
  and_intros <;> first | exact ready_of (by decide +kernel) | exact quiet_of (by decide +kernel) | decide +kernel

/-- The pump in a state. -/
def pumping (st : Nat) (p : Pump) : State := { run.put F.GDI_PUSTAT_STATE st with pump := p }

theorem witness_ThePumpStartsThroughItsStates :
    ((thaw run).Ready 0 ∧ (thaw run).thawed 0 = true ∧ (thaw run).ownsOpen 0 = false ∧ (thaw run).regFull = false ∧
      (thaw run).bus.held = [] ∧ (thaw run).bufCount R.GDI_PUCTRL.base < 64 ∧ (thaw run).puState ≠ pumpLatched ∧
      ((thaw run).put F.GDI_PUSTAT_STATE pumpLatched).puState = pumpLatched) ∧
      (∀ st ∈ [pumpOff, pumpDiag, pumpRunning, pumpLatched],
        (buffered (pumping st { holdsUnits := true }) R.GDI_PUCTRL.base 1 3).puState = st) ∧
      (buffered run R.GDI_PUCTRL.base 1 3).bus.buf = [⟨0, R.GDI_PUCTRL.base, 1, 3, false, none, false⟩] ∧
      (buffered run R.GDI_PUCTRL.base 2 3).bus.buf = [⟨0, R.GDI_PUCTRL.base, 2, 3, false, none, false⟩] ∧ pumpBusyState pumpDiag = true ∧
      (∀ k ∈ [1, 2, 3, 4, 5], (pumping pumpDiag { step := k }).puState = pumpDiag ∧ (pumping pumpDiag { step := k }).pump.step = k ∧
        quietB (pumping pumpDiag { step := k }) = true) ∧
      (pumping pumpDiag { step := 5 }).get F.GDI_PUDIAG_MARKS = 0 ∧
      ((pumping pumpDiag { step := 5 }).put F.GDI_PUDIAG_MARKS 1).get F.GDI_PUDIAG_MARKS ≠ 0 ∧
      (∀ st ∈ [pumpRunning, pumpLatched], let s := pumping st { endAt := some (0, 15) }
        s.puState = st ∧ s.pump.endAt = some (s.ct, 15)) ∧
      ({ run with pump := { endAt := some (0, 15) } } : State).pump.endAt = some (run.ct, 15) ∧ run.pump.endAt = none ∧ run.bus.stage = [] ∧
      (pumping pumpBoot { bootLow := true }).puState = pumpBoot ∧
      (let s := (pumping pumpStarting { holdsUnits := true }).put F.GDI_PUSTART_SPDOK 1
       s.puState = pumpStarting ∧ s.get F.GDI_PUSTAT_SPEED < s.get F.GDI_PUSTART_SPDOK ∧
         s.get F.GDI_PUSTART_SPDOK ≤ (s.put F.GDI_PUSTAT_SPEED 0xFFFF).get F.GDI_PUSTAT_SPEED) := by
  and_intros <;> first | exact ready_of (by decide +kernel) | decide +kernel

theorem witness_ARunningPumpIsWatched :
    (let s := (pumping pumpRunning { hallKnown := true, sector := 3, rev := 4, edgeAt := some 5 }).put F.GDI_PUSTAT_HALLERR 7
     let t : State := { s with ct := 9 }
     t.Quiet ∧ t.puState = pumpRunning ∧ (hallSector 6 + 6 - t.pump.sector) % 6 ∈ [2, 3, 4] ∧ 7 ≤ t.get F.GDI_PUSTAT_HALLERR ∧
       t.pump.edgeAt = some 5 ∧ 5 < t.ct) ∧
      (let s := pumping pumpRunning { bootLow := true, duty := 2 ^ 30 }
       s.puState ≠ pumpLatched ∧ (s.put F.GDI_PUPWM_PER 10).pumpHigh = true ∧ 2 ^ 30 / 10 < s.pump.duty ∧ s.pump.ovBrake = false ∧
         s.get F.SEC_STATE_HSTATE = 2 ∧ (⟨0, true⟩ : PumpSense).bootLow = true ∧ (⟨0, true⟩ : PumpSense).vm.toNat ≤ s.get F.GDI_PUVLIM0_OVLIM) ∧
      (let s := (pumping pumpStarting {}).put F.GDI_PUSTAT_HALL 7
       s.get F.GDI_PUSTAT_HALL = 7 ∧ s.puState = pumpStarting) ∧
      (let s := (pumping pumpRunning { cut := true, limited := 254 }).put F.GDI_PUOC_OCN 255
       s.pump.cut = true ∧ s.pumpCounter = 0 ∧ s.get F.GDI_PUOC_OCN ≤ s.pump.limited + 1 ∧ s.puState ≠ pumpLatched) ∧
      ((pumping pumpRunning {}).pump.cut = false ∧ (pumping pumpRunning {}).pumpCounter = 0 ∧ (pumping pumpRunning {}).pump.bootLow = false) ∧
      (pumping pumpRunning { overV := true }).pump.overV = true ∧ run.pumpHigh = false ∧
      (let s : State := { (pumping pumpRunning {}).put F.GDI_PUPWM_PER 10 with ct := 3 }
       s.pumpCounter ≠ 0) ∧
      (let s := (pumping pumpRunning { overV := false }).put F.GDI_PUVLIM0_OVLIM 600
       s.puState ≠ pumpLatched ∧ s.flag F.GDI_RETRYSTAT_LATCHED 0 = false ∧ s.gdi.nowClr = [] ∧ s.pump.ovBrake = false ∧
         s.get F.GDI_PUVLIM0_OVLIM < (601 : BitVec 10).toNat ∧ s.pump.overV = false) ∧
      (∀ tries ∈ [0, 3], let s := ((pumping pumpWait { ovBrake := true }).put F.GDI_PUVLIM0_OVLIM 600).put F.GDI_RETRYCFG_TRIES tries 0
       s.get F.SEC_STATE_HSTATE = 2 ∧ s.pump.ovBrake = true ∧ (0 : BitVec 10).toNat ≤ s.get F.GDI_PUVLIM1_BRKOFF ∧
         ¬ s.get F.GDI_PUVLIM0_OVLIM < (0 : BitVec 10).toNat ∧ s.puState = pumpWait ∧ s.get F.GDI_RETRYSTAT_WAITING 0 = 0 ∧
         s.get F.GDI_RETRYCFG_TRIES 0 = tries ∧ s.get F.GDI_RETRYSTAT_COUNT 0 = 0) ∧
      State.reset.get F.SEC_STATE_HSTATE ≠ 2 ∧ State.reset.Quiet ∧
      (let s := (((pumping pumpRunning {}).put F.GDI_PUVLIM0_OVLIM 600).put F.GDI_PUVLIM0_UVLIM 100).put F.GDI_PUVLIM1_BRKON 500
       s.get F.SEC_STATE_HSTATE = 2 ∧ s.get F.GDI_PUVLIM0_OVLIM < (601 : BitVec 10).toNat ∧ s.get F.GDI_PUVM_VM ≤ s.get F.GDI_PUVLIM0_OVLIM ∧
         (99 : BitVec 10).toNat < s.get F.GDI_PUVLIM0_UVLIM ∧ s.get F.GDI_PUVLIM1_BRKON ≤ (601 : BitVec 10).toNat ∧
         ¬ (601 : BitVec 10).toNat ≤ (s.put F.GDI_PUVLIM1_BRKOFF 400).get F.GDI_PUVLIM1_BRKOFF ∧ s.pump.brkOff = false ∧
         s.flag F.GDI_PUSTAT_BRK = false) ∧
      ((pumping pumpRunning {}).put F.GDI_PUSTAT_BRK 1).flag F.GDI_PUSTAT_BRK = true := by
  and_intros <;> first | exact quiet_of (by decide +kernel) | decide +kernel

theorem witness_RetriesWaitLatchAndClear :
    (run.Quiet ∧ run.get F.SEC_STATE_HSTATE ≠ 3 ∧ (run.put F.SEC_STATE_HSTATE 3).get F.SEC_STATE_HSTATE = 3 ∧
      (∀ c < 3, run.flag F.GDI_RETRYSTAT_WAITING c = false)) ∧
      (let s := (pumping pumpWait {}).put F.GDI_RETRYSTAT_WAITING 1 0
       s.flag F.GDI_RETRYSTAT_WAITING 0 = true ∧ s.pumpCauseEnded (s.get F.GDI_PUSTAT_LASTFAULT) = true ∧ s.puState = pumpWait ∧
         (s.put F.GDI_PUSTAT_LASTFAULT 9).pumpCauseEnded 9 = false ∧ (s.put F.GDI_PUSTAT_LASTFAULT 3).get F.GDI_PUSTAT_LASTFAULT = 3 ∧
         ∀ y ∈ s.gdi.nowClr, y.1 ≠ (3, 1)) ∧
      (let s := run.put F.GDI_RETRYSTAT_WAITING 1 2
       s.flag F.GDI_RETRYSTAT_WAITING 2 = true ∧ s.chopCool 1 = true ∧ (s.setChan 17 { energy := 1 }).chopCool 1 = false) ∧
      (let s := ((thaw run).put F.GDI_RETRYSTAT_LATCHED 1 0).put F.GDI_RETRYSTAT_LATCHED 1 2
       s.Ready 0 ∧ s.thawed 0 = true ∧ s.flag F.GDI_RETRYSTAT_LATCHED 0 = true ∧ s.flag F.GDI_RETRYSTAT_LATCHED 2 = true ∧
         s.flag F.GDI_RETRYSTAT_LATCHED 1 = false ∧ s.pumpCauseEnded (s.get F.GDI_PUSTAT_LASTFAULT) = true ∧
         s.gdi.nowAct.contains (3, 0) = false ∧ s.chopCool 1 = true ∧
         ({ s with gdi := { nowAct := [(3, 2)] } } : State).gdi.nowAct.contains (3, 2) = true) := by
  and_intros <;> first | exact ready_of (by decide +kernel) | exact quiet_of (by decide +kernel) | decide +kernel

/-! ### Witnesses: measurement, redundancy and safety -/

theorem witness_FastChannelsConvertAtTheirInstants :
    State.reset.periodsRun = false ∧ State.reset.Quiet ∧ run.Quiet ∧ run.periodsRun = true ∧ (0 : BitVec 9).toNat < run.ns ∧
      (39 : BitVec 9).toNat < run.ns ∧ run.ns ≤ (40 : BitVec 9).toNat ∧ (∀ k < 8, run.rState k = 0) ∧ run.acq.mapOfs = none ∧
      (0x800000 : BitVec 24).getLsbD 23 = true ∧ (0x800000 : BitVec 24).getLsbD 0 = false ∧ run.testOn false 0 = false ∧ run.adc.dacSeen.testBit 0 = false ∧
      pu32of16 (run.getS F.ADC_FLIM_MIN 23) ≤ run.fastValue 23 [0] ∧ run.fastValue 23 [0] ≤ pu32of16 (run.getS F.ADC_FLIM_MAX 23) ∧
      run.adc.delivered.testBit 0 = false ∧ ({ run with adc := { delivered := 1 } } : State).adc.delivered.testBit 0 = true ∧
      run.netStopped = false ∧ (run.put F.CLK_ALARM_ALARM 8).netStopped = true ∧ (run.put F.CLK_ALARM_ALARM 0x40).netStopped = true ∧
      (∀ n < 24, clipped (codeOf ((Vector.replicate 24 (0x7FFF : BitVec 16)).toList.map (·.toInt)) n) = true ∧
        clipped (codeOf ((Vector.replicate 24 (5 : BitVec 16)).toList.map (·.toInt)) n) = false) := by
  and_intros <;> first | exact quiet_of (by decide +kernel) | decide +kernel

/-- A scan of two entries with the first taken. -/
def scanning (bad lost : Bool) : State :=
  { ((run.put F.ADC_STAT_HKBUSY 1).put F.ADC_HKCFG_NENT 2).put F.ADC_HKENT_CHAN 31 1 with
    adc := { hkNext := 1, hkBad := bad, hkLost := lost, hkGot := [(0, 5, true)] } }

theorem witness_AHousekeepingScanRunsThroughItsList :
    (let s := run.put F.ADC_HKCFG_SCANDIV 1
     s.Quiet ∧ s.periodsRun = true ∧ s.get F.ADC_HKCFG_SCANDIV ≠ 0 ∧ s.period % 1 = 0 ∧ s.flag F.ADC_STAT_HKBUSY = false) ∧
      (∀ bad lost : Bool, let s := scanning bad lost
        quietB s = true ∧ s.flag F.ADC_STAT_HKBUSY = true ∧ s.adc.hkNext = 1 ∧ 1 < s.get F.ADC_HKCFG_NENT ∧ s.adc.hkLost = lost ∧
          s.hkChans = [0, 31] ∧ s.get F.ADC_HKENT_CHAN 1 = 31 ∧ s.netStopped = false ∧ (s.put F.CLK_ALARM_ALARM 0x40).netStopped = true) ∧
      (0 + 1 < (scanning false false).get F.ADC_HKCFG_NENT ∧
        ({ scanning false false with adc := { hkNext := 0 } } : State).adc.hkNext = 0) ∧
      (∀ w lost : Bool, let s := scanning false lost
        let t : State := { s with adc := { s.adc with hkWait := w } }
        t.adc.hkWait = w ∧ t.adc.hkLost = lost ∧ t.flag F.ADC_STAT_HKBUSY = true ∧ (t.put F.ADC_STAT_HKBUSY 0).flag F.ADC_STAT_HKBUSY = false) ∧
      ([(0, 5, true), (31, 4095, true)] : List (Nat × Nat × Bool)).reverse.find? (fun y => y.1 == 31) = some (31, 4095, true) := by
  and_intros <;> first | exact quiet_of (by decide +kernel) | decide +kernel

theorem witness_TheTestDacIsConnectedCheckedAndReleased :
    (thaw run).Ready 0 ∧ (thaw run).thawed 0 = true ∧ 24 ≤ (24 : BitVec 5).toNat ∧ (23 : BitVec 5).toNat < 24 ∧
      (thaw run).testRefused true 31 = false ∧ (thaw run).testRefused false 23 = false ∧ (thaw run).adc.testRun = false ∧
      ((thaw run).put F.LVS_GCFG_VBSRC 0x817).testRefused false 23 = true ∧
      (∀ got ∈ [4, 3000], let s : State := { run with adc := { testRun := true, testHk := true, testCode := 1, testGot := List.replicate 16 got } }
       quietB s = true ∧ s.adc.testRun = true ∧ s.adc.testGot.length = 16 ∧
         ((s.testMean - s.testExpect).natAbs ≤ s.get F.ADC_TESTTOL_TOL ↔ got = 4)) ∧
      (let s : State := { thaw run with adc := { testRun := true, testGot := List.replicate 15 4 } }
       s.Quiet ∧ s.Ready 0 ∧ s.adc.testRun = true ∧ s.adc.testGot.length ≠ 16 ∧ s.testRefused true 31 = false ∧ s.netStopped = false ∧
         (s.put F.CLK_ALARM_ALARM 8).netStopped = true) := by
  and_intros <;> first | exact ready_of (by decide +kernel) | exact quiet_of (by decide +kernel) | decide +kernel

/-- Window 15 is enabled and settled, watches channel 0 with UTH 600 and LTH 400, and its input has stood at `v` µV for long. -/
def watching (v : Int) (upper : Bool) : State :=
  let s : State := (((run.put F.CMP_CFG_EN 1 15).put F.CMP_THR_UTH 600 15).put F.CMP_THR_LTH 400 15).putB F.CMP_STAT_RAWU upper 15
  { s with adc := { winReady := 0x8000, rawHist := if upper then [(31, [(0, true)])] else [] }
           pins := { s.pins with vin := [(0, v)] }, ct := 99999 }

theorem witness_WindowsLatchCaptureAndWake :
    (run.Ready 0 ∧ run.netStopped = false ∧ run.flag F.CMP_CFG_EN 15 = false ∧ (run.put F.CMP_CFG_EN 1 15).flag F.CMP_CFG_EN 15 = true ∧
      run.adc.winReady.testBit 15 = false) ∧
      ((watching 2000000 false).compares 15 true = some true ∧ (watching 2000000 false).compares 15 false = some false ∧
        (watching (-2000000) false).compares 15 true = some false ∧ (watching (-2000000) false).compares 15 false = some true ∧
        (watching 880000 false).compares 15 true = none ∧ (watching (-1120000) false).compares 15 false = none) ∧
      (∀ up : Bool, let s := watching 0 up
       quietB s = true ∧ s.flag F.CMP_CFG_EN 15 = true ∧ s.adc.winReady.testBit 15 = true ∧ s.filterShows 15 true up = true ∧
         s.filterShows 15 true (!up) = false ∧ (s.putB F.CMP_STAT_OUTU (!up) 15).flag F.CMP_STAT_OUTU 15 ≠ up ∧ s.netStopped = false) ∧
      (run.put F.CLK_ALARM_ALARM 8).netStopped = true ∧
      ((run.put F.CMP_CFG_LATCH 1 15).get F.CMP_CFG_LATCH 15 ≠ 0 ∧ run.flag F.CMP_STAT_OUTU 15 = false) ∧
      run.aonEn 0 = false ∧
      (let s : State := { run with aon := { run.aon with cmpCfg := [(3, 0x80)] } }
       s.aonEn 3 = true ∧ s.aon.out.testBit 3 = false ∧ s.aon.cause = 0 ∧
         (∀ v ∈ [0, 199, 0], aonStrobe (s.aonCfg 3) false v ≠ false) ∧ ¬ (∀ v ∈ [0, 200, 0], aonStrobe (s.aonCfg 3) false v ≠ false) ∧
         (∀ v ∈ [226, 999, 226], aonStrobe (s.aonCfg 3) true v ≠ true) ∧ aonStrobe (s.aonCfg 3) true 225 = true) := by
  and_intros <;> first | exact ready_of (by decide +kernel) | exact quiet_of (by decide +kernel) | decide +kernel

theorem witness_HeadsElectResignAndReintegrate :
    (run.Quiet ∧ run.duplex = false ∧ (roled roleElect).duplex = true ∧ (roled roleElect).role = roleElect ∧
      (roled roleElect).flag F.RED_STAT_RESIGNI = true) ∧
      (∀ r ∈ [roleReady, roleAlign, roleSync, roleActive], (roled r).duplex = true ∧ (roled r).role = r ∧
        ((roled r).put F.RED_STAT_RESIGNI 0).flag F.RED_STAT_RESIGNI = false ∧ (roled r).red.takeDue = false ∧
        ((roled r).put F.RED_STAT_RESIGNI 1).flag F.RED_STAT_RESIGNI = true) ∧ (roled roleElect).isStandby = false ∧
      ({ roled roleReady with red := { takeDue := true } } : State).red.takeDue = true ∧
      (run.get F.SEC_STATE_HSTATE = 2 ∧ run.sec.holdFrames = none ∧ run.conflictMet = false) ∧
      (((roled roleActive).put F.RED_STAT_HEADID 1).put F.RED_STAT_RESIGNI 0).conflictMet = true ∧ (roled roleActive).red.sentReady = false ∧
      (roled roleReady).isStandby = true ∧ ((roled roleReady).put F.RED_CFG_SWAPDUE 1).get F.RED_CFG_SWAPDUE ≠ 0 ∧
      (let s := run.put F.RED_SLSTAT_STATE slReint 2
       s.slState 2 = slReint ∧ ({ s with period := 4 } : State).slState 2 = slReint ∧ (s.slice 2).since + 4 ≤ ({ s with period := 4 } : State).period ∧
         ¬ (s.slice 2).since + 4 ≤ s.period) ∧ run.slState 2 ≠ slReint ∧
      ((roled roleElect).servoLocked = false ∧ ∀ st ∈ [plFree, plHold],
        let s := (((roled roleElect).put F.NET_PTPSTAT_STATE 3).put F.NET_PLCFG_LOCKEN 1).put F.NET_PLSTAT_STATE st
        s.servoLocked = true ∧ s.flag F.NET_PLCFG_LOCKEN = true ∧ s.get F.SEC_STATE_HSTATE ≠ 3 ∧ s.get F.NET_PLSTAT_STATE = st ∧
          s.role = roleElect ∧ quietB s = true) := by
  and_intros <;> first | exact quiet_of (by decide +kernel) | decide +kernel

theorem witness_TakeoversSwapsAndModeChangesAreOrdered :
    (let s : State := { (roled roleReady).put F.SYS_TXNSTAT_STATE txOpen with red := { takeDue := true, bSeen := true, safe0 := true } }
     s.Quiet ∧ s.isStandby = true ∧ s.red.takeDue = true ∧ s.red.bSeen = true ∧ s.txBusy = true ∧ s.txState ≠ txRef ∧ s.bus.txn.passed = false ∧
       s.red.safe0 = true) ∧ (roled roleReady).red.safe0 = false ∧ (roled roleReady).red.takeDue = false ∧
      (let s := thaw (roled roleSync)
       s.get F.SEC_STATE_HSTATE = 2 ∧ s.otp.lcs ≤ 2 ∧ s.pathOn 0 = true ∧ s.bus.g2 = none ∧ s.Quiet ∧ s.poisoned 0 = false ∧ s.regFull = false ∧ s.bus.waiting = [] ∧ s.thawed 0 = true ∧
         s.inStep = true ∧ s.swapAllowed = false) ∧
      (let s := (laned (laned (thaw (roled roleActive)) 24 lnService) 25 lnService).put F.RED_STAT_PEERRDY 1
       s.get F.SEC_STATE_HSTATE = 2 ∧ s.otp.lcs ≤ 2 ∧ s.pathOn 0 = true ∧ s.bus.g2 = none ∧ s.Quiet ∧ s.poisoned 0 = false ∧ s.regFull = false ∧ s.bus.waiting = [] ∧ s.thawed 0 = true ∧ s.swapAllowed = true ∧ s.inStep = false) ∧
      ((0 : Word) ≠ ~~~ (0 : Word) ∧ (roled roleActive).Ready 0 ∧ (roled roleActive).get F.RED_MODE_MODE = 1 ∧
        (run.put F.RED_MODE_MODE 3).get F.RED_MODE_MODE = 3 ∧ (roled roleActive).stopped = true ∧
        (roled roleActive).ownsOpen 0 = false ∧ (roled roleActive).txBusy = false ∧
        ((roled roleActive).put F.CE_LOOPEN_CONV 1).stopped = false) ∧
      (let s := (run.put F.RED_MODE_MODE 3).put F.SYS_TXNSTAT_STATE txOpen
       s.Ready 0 ∧ s.stopped = true ∧ s.ownsOpen 0 = true ∧ s.get F.SYS_TXNSTAT_POISON = 0 ∧ s.get F.SYS_TXNSTAT_COUNT < 8192) := by
  and_intros <;> first | exact ready_of (by decide +kernel) | exact quiet_of (by decide +kernel) | decide +kernel

theorem witness_WhiteoutLatchesUntilAnAllowedReset :
    (run.Quiet ∧ run.get F.SAF_TGSTAT_STATE 3 ≠ 2 ∧ (run.put F.SAF_TGSTAT_STATE 2 3).get F.SAF_TGSTAT_STATE 3 = 2 ∧
      run.whiteout = false ∧ (run.put F.SAF_STAT_WO 1).whiteout = true) ∧
      ((thaw run).Ready 0 ∧ (thaw run).thawed 0 = true ∧ (thaw run).resetAllowed = true ∧
        ((thaw run).put F.SAF_STAT_LOGICOK 0).resetAllowed = false ∧ (thaw run).saf.demandAt ≠ some (thaw run).ct ∧
        ({ thaw run with saf := { demandAt := some 0 } } : State).saf.demandAt = some (thaw run).ct) ∧
      (∀ first : Bool, let s : State := { run with saf := { resetAt := true, resetCt := if first then 0 else 9 }, ct := 9 }
        s.saf.resetAt = true ∧ (s.saf.resetCt = s.ct ↔ first = false) ∧ quietB s = true) ∧
      ((⟨1, 0⟩ : WhiteoutCause).cls ≠ 0 ∧ (⟨0xB, 5⟩ : WhiteoutCause).cls.toNat ≤ 0xB ∧ 0xB < (⟨0xC, 0⟩ : WhiteoutCause).cls.toNat) := by
  and_intros <;> first | exact ready_of (by decide +kernel) | exact quiet_of (by decide +kernel) | decide +kernel

/-- Ports A, B and M are open, port A has accepted a telegram frame, and connection 3 awaits the telegrams of group 9. -/
def telegrammed (pend : Option (Telegram × Nat)) : State :=
  { ((run.put F.NET_CTRL_EN 7).put F.SAF_TGCFG_EN 1 3).put F.SAF_TGCFG_TGID 9 3 with saf := { conns := [(3, ⟨pend, none⟩)] }, net := { run.net with rx := [(0, some 3)] } }

/-- A telegram of group 9 with its own check. -/
def telegram (flags seq : Nat) : Telegram :=
  let x : Telegram := ⟨9, 1, flags, seq, 0, 0, true, true, 0, false⟩
  { x with scrc := crc32c (tgBytes x) }

theorem witness_SafeInputsAndTelegramsDemand :
    (let s := (run.put F.SAF_INCFG_MODE 1 7).putBit F.SAF_CHAN_B 7 true
     s.Quiet ∧ s.safeMode 7 = 1 ∧ s.safeMode 0 ≠ 1 ∧ (s.safeIn 7).failA = 0 ∧ (s.put F.SAF_TPCFG_TPFAILN 0).get F.SAF_TPCFG_TPFAILN ≤ (s.safeIn 7).failA ∧
       (s.get F.SAF_INSTAT_AFLT).testBit 7 = false ∧ (s.get F.SAF_INSTAT_DISC).testBit 7 = false ∧
       s.safeChanDemand 7 false ≠ s.safeChanDemand 7 true ∧ (s.get F.SAF_INSTAT_DEMAND).testBit 7 = false ∧
       s.periodsRun = true ∧ s.pins.coreGood = true ∧ State.reset.periodsRun = false ∧
       ((s.putBit F.SAF_INSTAT_DISC 7 true).get F.SAF_INSTAT_DISC).testBit 7 = true ∧
       s.flag F.SAF_INCFG_ACT 7 = true ∧ (s.put F.SAF_INCFG_ACT 0 7).flag F.SAF_INCFG_ACT 7 = false) ∧
      (let s := ((((run.put F.SAF_INCFG_MODE 1 7).putBit F.SAF_CHAN_A 7 true).putBit F.SAF_CHAN_B 7 true).putBit F.SAF_INSTAT_AFLT 7 true).putBit
         F.SAF_INSTAT_DEMAND 7 true
       let t := s.putBit F.SAF_CHAN_A 7 false
       (s.get F.SAF_INSTAT_DEMAND).testBit 7 = true ∧ (t.safeMode 7 != 0 && (t.safeLevel 7 || t.safeLatched 7)) = true ∧
         (t.safeLevel 7 && !s.safeLevel 7) = true ∧ (s.safeLevel 7 && !t.safeLevel 7) = false) ∧
      (let s := telegrammed none
       s.inFrame 0 3 = true ∧ s.inFrame 1 3 = false ∧ s.tgMine 0 (telegram 2 1) = true ∧
         s.tgMine 0 { telegram 2 1 with dst := 1 } = false ∧ s.flag F.SAF_TGCFG_EN 3 = true ∧
         (s.put F.SAF_TGCFG_EN 0 3).flag F.SAF_TGCFG_EN 3 = false ∧
         ((s.put F.SAF_TGCFG_EN 0 3).tgFind (telegram 2 1)) = some 3 ∧ { telegram 2 1 with fcsOk := false }.fcsOk = false) ∧
      (let s := telegrammed none
       s.Quiet ∧ s.portOn 0 = true ∧ run.portOn 0 = false ∧ s.tgFind (telegram 2 1) = some 3 ∧ s.tgFind { telegram 2 1 with tgid := 8 } = none ∧
         (telegram 2 1).parity = false ∧ ({ telegram 2 1 with parity := true } : Telegram).parity = true ∧ tgRight (telegram 2 1) = true ∧ tgRight (telegram 1 0x7FFFFFFF) = true ∧ tgRight { telegram 2 1 with scrc := 0 } = false ∧
         0 < toSigned 32 ((1 + 2 ^ 32 - s.get F.SAF_TGSEQ_LAST 3) % 2 ^ 32) ∧
         ¬ 0 < toSigned 32 ((0x80000000 + 2 ^ 32 - s.get F.SAF_TGSEQ_LAST 3) % 2 ^ 32) ∧ (s.tgConn 3).pend = none) ∧
      (((telegrammed (some (telegram 2 1, 1))).tgConn 3).pend.map fun x => (x.1.seq, x.2)) = some (1, 1) ∧ (telegram 2 2).seq ≠ (telegram 2 1).seq ∧ tgBytes (telegram 2 1) ≠ tgBytes (telegram 0 1) ∧
      (telegram 2 1).scrc = (telegram 2 1).scrc ∧ (telegram 2 1).scrc ≠ (telegram 0 1).scrc ∧ (1 : Nat) ≠ (0 : Fin 2) ∧
      (telegrammed none).flag F.SAF_TGCFG_SINGLE 3 = false ∧
      ((telegrammed none).put F.SAF_TGCFG_SINGLE 1 3).flag F.SAF_TGCFG_SINGLE 3 = true := by
  and_intros <;> first | exact quiet_of (by decide +kernel) | decide +kernel

/-! ### Witnesses: network -/

/-- Port A is open and has accepted a PTP frame; domain 1 listens there, with what it holds. -/
def ptp (st : Nat) (x : PtpDomain) : State :=
  { ((((run.put F.NET_CTRL_EN 1).put F.NET_DCFG_EN 1 1).put F.NET_DCFG_PORTS 1 1).put F.NET_PTPSTAT_STATE st).put F.NET_PTPSTAT_STEERING 1 with
    net := { doms := [(1, x)], rx := [(0, some 0)] } }

/-- The head of a message that passes the checks of a domain, and one that does not. -/
def ptpHead : PtpHead := ⟨2, 1, 0, Config.ptpSdo 0, true, 0⟩

theorem ptpHead_ok {s : State} {d : Nat} (h : s.get F.NET_DCFG_DOMAIN d = 0) (k : s.get F.NET_DCFG_PROFILE d = 0) : s.ptpOk d ptpHead = true := by
  simp [State.ptpOk, ptpHead, h, k]

/-- A sample on port A that lies `ofs` units off. -/
def sample (ofs : Int) : PtpSample := ⟨ptpHead, ofs, 0, 0⟩

/-- An Announce on port A. -/
def announce (prio1 : Nat) (sender : Nat) : PtpAnnounce := ⟨0, ptpHead, prio1, 6, 0, 0, 128, 5, 1, sender, some 37, none⟩

theorem witness_NetworkTimeFollowsItsDomains :
    (run.Quiet ∧ run.inFrame 0 0 = false ∧ (ptp ptpLocked {}).listens 0 0 = false) ∧
      (∀ st ∈ [ptpAcquire, ptpLocking, ptpLocked, ptpHoldover], let s := ptp st { n := 4, since := 4, jc := 2 }
        quietB s = true ∧ s.inFrame 0 0 = true ∧ s.listens 1 0 = true ∧ (s.dom 1).announced = false ∧ s.flag F.NET_PTPSTAT_ARMED = false ∧
          s.steering = 1 ∧ s.get F.NET_PTPSTAT_STATE = st ∧ s.stepLimit < absQ (s.syncOffset (sample (2 ^ 40)) - (s.dom 1).ofs) ∧
          absQ (s.syncOffset (sample 65536) - (s.dom 1).ofs) ≤ (s.put F.NET_PTPCFG_STEPLIM 1).stepLimit ∧
          (s.put F.NET_PTPCFG_JUMPN 3).get F.NET_PTPCFG_JUMPN = 3) ∧
      ((ptp ptpLocked { restart := true }).dom 1).restart = true ∧
      ((ptp ptpLocked { announced := true }).dom 1).announced = true ∧
      ((ptp ptpLocked { announced := true }).put F.NET_DSTAT_PORT 1 1).get F.NET_DSTAT_PORT 1 ≠ (0 : Fin 2).val ∧
      (let s := ptp ptpHoldover { n := 4, back := 2, pre := 1 }
       s.steering = (1 : Fin 2).val ∧ s.get F.NET_PTPSTAT_STATE = ptpHoldover ∧
         (s.put F.NET_PTPCFG_JUMPN 3).get F.NET_PTPCFG_JUMPN ≤ (s.dom 1).back + 1 ∧
         (s.dom 1).back + 1 < (s.put F.NET_PTPCFG_JUMPN 4).get F.NET_PTPCFG_JUMPN) := by
  and_intros <;> first | exact quiet_of (by decide +kernel) | decide +kernel

/-- The best of two masters, another grandmaster than the one known, and the other domain good, lost or neither. -/
theorem witness_NetworkTimeFollowsItsDomains_announce :
    (let s := ptp ptpLocked { gmSeen := true, ann := [announce 1 7] }
     (s.dom 1).gmSeen = true ∧ s.get F.NET_DGMLO_ID 1 + 2 ^ 32 * s.get F.NET_DGMHI_ID 1 ≠ (5 : BitVec 64).toNat ∧
       (s.put F.NET_DGMLO_ID 5 1).get F.NET_DGMLO_ID 1 + 2 ^ 32 * (s.put F.NET_DGMLO_ID 5 1).get F.NET_DGMHI_ID 1 = 5) ∧
      (((ptp ptpLocked {}).dom 1).hear (announce 1 7)).best = some (announce 1 7) ∧
      ((ptp ptpLocked {}).otherGood = false ∧ run.flag F.NET_DCFG_EN 0 = false ∧ (ptp ptpLocked {}).flag F.NET_DCFG_EN 1 = true) ∧
      (∀ lost : Bool, let s : State := { (thaw (ptp ptpLocked {})).put F.NET_DCFG_EN 1 0 with net := { doms := [(0, { since := 16, timedOut := lost })] } }
       s.otherGood = true ∧ (s.dom 0).timedOut = lost ∧ readyB s 0 = true ∧ s.thawed 0 = true ∧ (1 : BitVec 2).toNat = 2 - s.steering ∧
         (2 : BitVec 2).toNat ≠ 2 - s.steering ∧ s.net.switchedAt ≠ some s.period ∧
         ({ s with net := { s.net with switchedAt := some 0 } } : State).net.switchedAt = some s.period) ∧
      (let s := run.put F.NET_PLSTAT_STATE plPull
       s.get F.NET_PLSTAT_STATE = plPull ∧ (s.getS F.NET_PLSTAT_E).natAbs ≤ 10) ∧ run.get F.NET_PLSTAT_STATE ≠ plPull := by
  and_intros <;> first | rfl | decide +kernel

/-- A message's head is right for both domains, for domain 1 alone, or for none. -/
theorem witness_NetworkTimeFollowsItsDomains_head :
    (ptp ptpLocked {}).ptpOk 1 ptpHead = true ∧ (ptp ptpLocked {}).ptpOk 0 ptpHead = true ∧
      ((ptp ptpLocked {}).put F.NET_DCFG_DOMAIN 1 0).ptpOk 0 ptpHead = false ∧
      ((ptp ptpLocked {}).put F.NET_DCFG_DOMAIN 1 0).ptpOk 1 ptpHead = true ∧
      ∀ d < 2, (ptp ptpLocked {}).ptpOk d { ptpHead with version := 1 } = false := by
  refine ⟨ptpHead_ok (by decide +kernel) (by decide +kernel), ptpHead_ok (by decide +kernel) (by decide +kernel), ?_,
    ptpHead_ok (by decide +kernel) (by decide +kernel), fun d _ => rfl⟩
  have h : ((ptp ptpLocked {}).put F.NET_DCFG_DOMAIN 1 0).get F.NET_DCFG_DOMAIN 0 = 1 := by decide +kernel
  simp [State.ptpOk, ptpHead, h]

/-- A GOOSE frame of port A. -/
def gooseFrame (len : Nat) (tag : Option Nat) : NetFrame := ⟨0x88B8, tag, len, true, false, 0⟩

theorem witness_PortsAndTimedOutputsAct :
    (run.Quiet ∧ run.portOn 0 = false) ∧
      (let s := run.put F.NET_CTRL_EN 7
       s.portOn 2 = true ∧ (s.get F.NET_STAT_LINK).testBit 2 ≠ true ∧ s.frameClass 0 (gooseFrame 1522 none) = some 1 ∧
         s.frameClass 2 (gooseFrame 1522 none) = none ∧ some 4095 ≠ some (s.get F.NET_PCFG_VID 0) ∧ ¬ (gooseFrame 1523 none).len ≤ 1522 ∧
         s.frameClass 2 ⟨0x0806, none, 60, true, true, 0⟩ = some 4 ∧ s.frameClass 0 ⟨0x0806, none, 60, true, true, 0⟩ = none) ∧
      (let s := run.put F.NET_TOUTTGT_TGT 0x7FFFFFFF 7
       s.Ready 0 ∧ s.get F.NET_TOUTCFG_MODE 7 = 0 ∧ 0 < s.toutAhead (s.get F.NET_TOUTTGT_TGT 7) ∧
         run.toutAhead (run.get F.NET_TOUTTGT_TGT 7) ≤ 0 ∧ (s.put F.NET_TOUTCFG_MODE 2 7).get F.NET_TOUTCFG_MODE 7 = 2 ∧
         (s.put F.NET_TOUTCFG_MODE 1 7).get F.NET_TOUTCFG_MODE 7 = 1) ∧
      (∀ st ∈ [1, 2], ∀ mode ∈ [1, 2], ∀ tgt ∈ [0, 0x7FFFFFFF], let s := (run.put F.NET_TOUTSTAT_STATE st 7).setTout 7 { mode := mode, tgt := tgt }
        s.get F.NET_TOUTSTAT_STATE 7 = st ∧ (s.tout 7).mode = mode ∧ (s.toutAhead (s.tout 7).tgt ≤ 0 ↔ tgt = 0)) ∧
      (run.get F.NET_TOUTSTAT_STATE 7 = 0 ∧ run.flag F.NET_TOUTSTAT_DONE 7 = false ∧
        (run.put F.NET_TOUTSTAT_DONE 1 7).flag F.NET_TOUTSTAT_DONE 7 = true ∧ (run.tout 7).mode ≠ 2) ∧
      (∀ stop stepped : Bool, ∀ tgt ∈ [0, 0x7FFFFFFF],
        let s : State := (run.put F.NET_TOUTSTAT_STATE 2 7).setTout 7 { mode := 2, tgt := tgt, stop := stop, stepped := stepped }
        s.get F.NET_TOUTSTAT_STATE 7 = 2 ∧ (s.tout 7).mode = 2 ∧ (s.tout 7).stop = stop ∧ (s.tout 7).stepped = stepped ∧
          (0 < s.toutAhead (s.tout 7).tgt ↔ tgt ≠ 0)) := by
  and_intros <;> first | exact ready_of (by decide +kernel) | exact quiet_of (by decide +kernel) | decide +kernel

/-- A policer whose bucket is empty passes a frame, one past its depth does not. -/
theorem witness_PortsAndTimedOutputsAct_police : (run.police 0 1).2 = true ∧
    (({ run with net := { buckets := [(1, (Config.policerDepth 1 + 1, 0))] } } : State).police 0 1).2 = false := by
  simp [State.police, run, State.put, State.wr, Sparse.get, State.reset]

/-- Port A is open and has accepted a GOOSE frame (or Sampled Values); subscription 63 (or stream 7) takes APPID 5 of destination 6 there; the
subscription's state. -/
def subscribed (x : GooseSub) : State :=
  { ((run.put F.NET_CTRL_EN 1).wr (0xE1000 + 0x20 * 63) 0xA0000500).wr (0xE1004 + 0x20 * 63) 6 with net := { goose := [(63, x)], rx := [(0, some 1)] } }
def streamed (x : SvSub) : State :=
  { ((run.put F.NET_CTRL_EN 1).wr (0xE1800 + 0x20 * 7) 0xA0000500).wr (0xE1804 + 0x20 * 7) 6 with net := { sv := [(7, x)], rx := [(0, some 2)] } }

theorem witness_SubscriptionsTakeTheirMessages :
    run.Quiet ∧ run.inFrame 0 1 = false ∧ run.inFrame 0 2 = false ∧
      (let s := subscribed ⟨true, 5, 5, 0, [], 0⟩
       s.Quiet ∧ s.inFrame 0 1 = true ∧ addrMatch (s.gsubW 63 0) (s.gsubW 63 1) (s.gsubW 63 2) 6 5 = true ∧
         addrMatch (s.gsubW 0 0) (s.gsubW 0 1) (s.gsubW 0 2) 6 5 = false ∧ (fieldGet (s.gsubW 63 0) 30 29).testBit 0 = true ∧
         (fieldGet (s.gsubW 63 0) 30 29).testBit 1 = false ∧ (0 : Word) = s.gsubW 63 3 ∧ (0 : Word) = s.gsubW 63 4 ∧
         0 = fieldGet (s.gsubW 63 0) 7 0 ∧ (s.gsub 63).seen = true ∧ 0 < toSigned 32 ((6 : Word).toNat + 2 ^ 32 - (s.gsub 63).st) ∧
         toSigned 32 ((5 : Word).toNat + 2 ^ 32 - (s.gsub 63).st) = 0 ∧ toSigned 32 ((4 : Word).toNat + 2 ^ 32 - (s.gsub 63).st) < 0 ∧
         s.gooseValid 63 = false ∧ (s.wr (0xE101C + 0x20 * 63) 0x80000000).gooseValid 63 = true ∧ (s.gsub 63).at_ = s.ct ∧
         ((subscribed ⟨true, 5, 5, 0, [], 4⟩).wr (0xE101C + 0x20 * 63) 0x80000000).gooseValid 63 = true ∧
         (((subscribed ⟨true, 5, 5, 0, [], 4⟩).wr (0xE101C + 0x20 * 63) 0x80000000).gsub 63).at_ ≠
           ((subscribed ⟨true, 5, 5, 0, [], 4⟩).wr (0xE101C + 0x20 * 63) 0x80000000).ct) ∧
      (run.gsub 63).seen = false ∧
      (let s : State := { (run.put F.NET_GPCFG_EN 1 7).put F.NET_GPCFG_PORTS 1 7 with net := { pubs := [(7, { started := true })] } }
       s.flag F.NET_GPCFG_EN 7 = true ∧ s.driving = true ∧ (s.pub 7).started = true ∧ (s.put F.NET_CTRL_EN 1).portOn 0 = true ∧
         (s.get F.NET_GPCFG_PORTS 7).testBit 0 = true) ∧ run.flag F.NET_GPCFG_EN 7 = false ∧
      (let s := streamed { seen := true, cnt := 5, used := [(1, [7])] }
       s.Quiet ∧ s.inFrame 0 2 = true ∧ addrMatch (s.svsubW 7 0) (s.svsubW 7 1) (s.svsubW 7 2) 6 5 = true ∧
         (fieldGet (s.svsubW 7 0) 30 29).testBit 0 = true ∧ (0 : Word) = s.svsubW 7 3 ∧ (0 : Word) = s.svsubW 7 4 ∧
         ([] : List GElem).length = fieldGet (s.svsubW 7 0) 7 0 ∧ (1 - (0 : Fin 2).val, [7]) ∈ (s.svsub 7).used ∧
         (1 - (0 : Fin 2).val, [6]) ∉ (s.svsub 7).used ∧ (s.svsub 7).seen = true ∧
         fieldGet (s.svsubW 7 5) 7 0 < (8 + 2 * svRate (s.svsubW 7 0) - 5 % svRate (s.svsubW 7 0) - 1) % svRate (s.svsubW 7 0) ∧
         ¬ fieldGet (s.svsubW 7 5) 7 0 < (6 + 2 * svRate (s.svsubW 7 0) - 5 % svRate (s.svsubW 7 0) - 1) % svRate (s.svsubW 7 0)) := by
  and_intros <;> first | exact quiet_of (by decide +kernel) | decide +kernel

/-- Port M takes register access and has accepted a frame of it, key slot 1 holds a key, and session 1 is open. -/
def accessed (open_ : Bool) (lastSeq : Option Nat) : State :=
  { run.put F.NET_CTRL_EN 7 with
    otp := { run.otp with lcs := 2 }, nv := { run.nv with netKeys := [(1, [1])] },
    net := { sess := [(1, { open_ := open_, kslot := 1, ks := [2], lastSeq := lastSeq })], rx := [(2, some 5)] } }

/-- A message of session 1 with its MAC, and one whose MAC is wrong. -/
def rapMsg (op : RapOp) (seq : Word) (count : Nat) (body : List Word) : RapMsg :=
  let m : RapMsg := { port := 2, sess := 1, kslot := 1, seq := seq, addr := BitVec.ofNat 32 (F.CE_SP_VALUE.addr 15), count := count, body := body, mac := [] }
  { m with mac := Config.hmac [2] (rapBytes m op) }

theorem witness_SessionsOpenAnswerAndClose :
    (let s := accessed true (some 9)
     s.Quiet ∧ s.inFrame 2 5 = true ∧ run.inFrame 2 5 = false ∧ s.rapPort 2 = true ∧ run.rapPort 2 = false ∧ s.netKeyIn 1 = true ∧
       s.netKeyIn 0 = false ∧ (s.session 1).open_ = true ∧ (s.session 2).open_ = false ∧ s.pathOn 1 = true ∧ (s.session 1).lastSeq = some 9 ∧
       s.net.rapHeld = [] ∧ s.duplex = false ∧ ((s.busWrite 1 (F.CE_SP_VALUE.addr 15) 5).1.session 1).open_ = true) ∧
      (accessed false none).session 1 = { kslot := 1, ks := [2] } ∧
      (∀ k, 1 ≤ k → k < 1 → ((accessed false none).session k).open_ = true) ∧ ((accessed false none).session 1).open_ = false ∧
      (let s : State := { accessed true none with net := { sess := [(1, { open_ := true }), (2, { open_ := true }), (3, { open_ := true }),
        (4, { open_ := true })] } }
       ∀ n < 5, 1 ≤ n → (s.session n).open_ = true) := by
  and_intros <;> first | exact quiet_of (by decide +kernel) | (intro k h1 h2; omega) | decide +kernel

/-- OPEN: a right head and MAC, and a wrong one of each. -/
theorem witness_SessionsOpenAnswerAndClose_open :
    (let q : RapOpenReq := { port := 2, kslot := 1, seq := 0, nonce := List.replicate 16 7, mac := [] }
     let s := accessed false none
     (s.rapPort q.port = true ∧ rapRight q.magic q.ver = true ∧ s.netKeyIn q.kslot = true ∧ q.nonce.length = 16) ∧
       rapRight q.magic 2 = false ∧ (List.replicate 15 (7 : Byte)).length ≠ 16 ∧
       Config.hmac (s.netKey 1) (rapOpenBytes q) = Config.hmac (s.netKey 1) (rapOpenBytes { q with mac := Config.hmac (s.netKey 1) (rapOpenBytes q) }) ∧
       0 :: Config.hmac (s.netKey 1) (rapOpenBytes q) ≠ Config.hmac (s.netKey 1) (rapOpenBytes q)) :=
  ⟨⟨by decide +kernel, rfl, by decide +kernel, rfl⟩, rfl, by decide, rfl, List.cons_ne_self _ _⟩

/-- A newer message, the last one again and an older one; counts at their bounds; a WRITE that the REG segment has no room for. -/
theorem witness_SessionsOpenAnswerAndClose_message : ∀ op : RapOp,
    let s := accessed true (some 9)
    let m := fun seq : Word => rapMsg op seq 1 [5]
    (∀ seq : Word, (m seq).parity = false ∧ (m seq).mac = Config.hmac (s.session 1).ks (rapBytes (m seq) op)) ∧
      0 :: (m 9).mac ≠ Config.hmac (s.session 1).ks (rapBytes { m 9 with mac := 0 :: (m 9).mac } op) ∧
      s.rapTakes (m 10) = true ∧ s.rapTakes { m 10 with kslot := 0 } = false ∧ s.rapAhead (m 10) = 1 ∧ s.rapAhead (m 9) = 0 ∧
      s.rapAhead (m 8) = -1 ∧ rapCounted op (m 10) = true ∧ s.rapHolds op (m 10) = false :=
  fun op => ⟨fun _ => ⟨rfl, rfl⟩, List.cons_ne_self _ _, by cases op <;> decide +kernel, by cases op <;> decide +kernel,
    by cases op <;> decide +kernel, by cases op <;> decide +kernel, by cases op <;> decide +kernel, by cases op <;> decide +kernel,
    by cases op <;> decide +kernel⟩

theorem witness_SessionsOpenAnswerAndClose_wait :
    rapCounted .read (rapMsg .read 10 64 []) = true ∧ rapCounted .read (rapMsg .read 10 65 []) = false ∧
      rapCounted .write (rapMsg .write 10 1 []) = false ∧
      (let s : State := { accessed true none with net := { (accessed true none).net with rapHeld := [(.write, rapMsg .write 10 1 [5])] } }
       s.rapHolds .keepalive (rapMsg .keepalive 11 0 []) = true) :=
  ⟨rfl, rfl, rfl, rfl⟩

/-! ### Witnesses: acquisition, clocks, temperature and the period -/

/-- The first pages of the capture memory are retired, others as listed. -/
def retiredUpTo (n : Nat) (t : Sparse Page) : Sparse Page := ((List.range' 0 n).map fun p => (p, { retired := true })) ++ t
def pageless (n : Nat) (s : State) : State := { s with acq := { s.acq with pages := retiredUpTo n [] } }

theorem get_range_const {β : Type} (d : Nat → β) (x : β) (t : Sparse β) (k : Nat) : ∀ n a, a ≤ k → k < a + n →
    Sparse.get d (((List.range' a n).map fun p => (p, x)) ++ t) k = x := by
  intro n
  induction n with
  | zero => intro a h h2; omega
  | succ n ih =>
    intro a h h2
    rw [List.range'_succ, List.map_cons, List.cons_append, Sparse.get]
    by_cases e : a = k
    · rw [if_pos e]
    · rw [if_neg e]
      exact ih _ (by omega) (by omega)

theorem pageless_page (n : Nat) (s : State) (p : Nat) (h : p < n) : ((pageless n s).page p).isFree = false := by
  have : (pageless n s).page p = { retired := true } := get_range_const _ _ _ p n 0 (by omega) (by omega)
  rw [this]; rfl

theorem pageless_takes_none {n : Nat} {s : State} (hn : 4096 ≤ n)
    (h : (pageless n s).oldest (pageless n s).evictable = none) : (pageless n s).takePage = none := by
  have : (List.range 4096).find? (fun p => ((pageless n s).page p).isFree) = none := by
    rw [List.find?_eq_none]
    intro p hp
    rw [List.mem_range] at hp
    rw [pageless_page n s p (by omega)]
    exact Bool.false_ne_true
  unfold State.takePage
  rw [this]
  unfold State.evictOne
  rw [h]

theorem witness_RecordersArmStopTriggerAndClose :
    (run.Ready 0 ∧ ((recording 7 2 {}).Quiet ∧ ((recording 7 2 {}).rcr 7).due = none) ∧
      (∀ q ∈ [0, 1], let s := (recording 7 2 {}).setRcr 7 { entry := some 0, due := some ⟨3, 9, 1, 20, q⟩ }
        (s.rState 7 = 1 ∨ s.rState 7 = 2) ∧ (s.rcr 7).due = some ⟨3, 9, 1, 20, q⟩ ∧ (s.rcr 7).entry = some 0 ∧ s.recEntry 0 = some {} ∧
          (∀ m < 8, m ≠ 7 → s.rState m = 0) ∧ ({} : Record).listed = false) ∧ run.rState 7 = 0 ∧ run.flag F.ACQ_STAT_SHED = false ∧ (run.put F.ACQ_STAT_SHED 1).flag F.ACQ_STAT_SHED = true ∧
      run.rChans 7 = [] ∧ run.flag F.ACQ_RCFG_KEEP 7 = false ∧ (run.newRec (run.blankRec 7)).toOption.isSome = true ∧
      (∀ c < 4, run.get F.ACQ_RTRG0_KIND 7 c ≠ 5) ∧ run.get F.ACQ_RSTAT_RECORDS 7 = 0) ∧
      (∀ st ∈ [1, 2, 3, 4], let s := recording 7 st {}
        readyB s 0 = true ∧ s.rState 7 = st ∧ (s.rcr 7).entry = some 0 ∧ s.recEntry 0 = some {} ∧ (s.rcr 7).holdDone = true) ∧
      (let s := (((recording 7 2 {}).put F.ACQ_RCOMB_FUNC 1 7).put F.ACQ_RCOMB_ENA 8 7).put F.ACQ_RTRG0_KIND 8 7 3
       s.get F.ACQ_RCOMB_FUNC 7 = 1 ∧ (s.get F.ACQ_RCOMB_ENA 7).testBit 3 = true ∧ s.get F.ACQ_RTRG0_KIND 7 3 = 8 ∧
         ∀ d < 3, ¬ ((s.get F.ACQ_RCOMB_ENA 7).testBit d = true ∧ s.get F.ACQ_RTRG0_KIND 7 d = 8)) := by
  and_intros <;> first | exact ready_of (by decide +kernel) | decide +kernel

/-- A record that writes a stream and has no page for it. -/
def streaming : State := recording 7 3 { streams := [(1, { rowBytes := 4 })] }

theorem witness_RecordersArmStopTriggerAndClose_further :
    (let s := (recording 7 3 {}).put F.ACQ_RCFG_MODE 1 7
     s.get F.ACQ_RCFG_MODE 7 = 1 ∧ s.get F.ACQ_RCFG_COUNT 7 = 0 ∧ (s.rcr 7).maskStop = false ∧ s.flag F.ACQ_STAT_SHED = false) ∧
      (recording 7 3 {}).get F.ACQ_RCFG_MODE 7 ≠ 1 ∧
      (let s := (((recording 7 3 {}).put F.ACQ_MCFG_REC 7 7).put F.ACQ_MCFG_EN 1 7)
       s.Quiet ∧ s.get F.ACQ_MCFG_REC 7 = 7 ∧ s.rState 7 = 3 ∧ (7, 5) ∉ s.acq.viol ∧ (s.rcr 7).first ≤ (5 : Word).toNat ∧
         (7, (5 : Word).toNat) ∈ ({ s with acq := { s.acq with viol := [(7, 5)] } } : State).acq.viol ∧
         (Sparse.get (fun _ => (0, 0)) ({} : Record).masks 7).1 = 0 ∧
         s.get F.ACQ_MCFG_ACTION 7 = 0 ∧ (s.put F.ACQ_MCFG_ACTION 2 7).get F.ACQ_MCFG_ACTION 7 = 2) ∧
      (run.rcr 7).entry = none ∧
      (let r : Record := { streams := [(1, { rowBytes := 4 })] }
       streaming.Quiet ∧ (streaming.rcr 7).entry = some 0 ∧ streaming.recEntry 0 = some r ∧ r.stream 1 = { rowBytes := 4 } ∧ r.opened = true ∧
         streaming.takePage.isSome = true) ∧
      (∀ k < 8, (recording 7 3 {}).get F.ACQ_RCFG_MODE k ≠ 1) ∧ ((recording 7 3 {}).put F.ACQ_RCH_CH 1 7).rChans 7 ≠ [] := by
  and_intros <;> first | exact quiet_of (by decide +kernel) | decide +kernel

theorem witness_RecordersArmStopTriggerAndClose_noPage : (pageless 4096 streaming).takePage = none ∧
    (pageless 4096 streaming).rState 7 = 3 :=
  ⟨pageless_takes_none (Nat.le_refl _) (by decide +kernel), by decide +kernel⟩

theorem witness_CalibrationAndMapsAct :
    (let s := thaw run
     s.Ready 0 ∧ s.thawed 0 = true ∧ s.flag F.ACQ_STAT_SHED = false ∧ (s.put F.ACQ_STAT_SHED 1).flag F.ACQ_STAT_SHED = true ∧
       s.get F.ACQ_CALSTAT_STATE ≠ 2 ∧ (s.put F.ACQ_CALSTAT_STATE 2).get F.ACQ_CALSTAT_STATE = 2 ∧
       (((recording 7 1 {}).put F.ACQ_CALSTAT_STATE 2).rcr 7).entry = some 0) ∧
      ((fdOf 32767 (-32768)).1 = 1311 ∧ (fdOf 32767 (-32768)).2 = false ∧ (fdOf (-37) 32767).2 = false) ∧
      (run.mapPage 1 = none ∧ run.mapPage 2 = none) ∧
      (∀ host : Bool, let s := (run.setPage 1 { mapKind := 1 }).setPage 2 { mapKind := 2, host := host }
        readyB s 0 = true ∧ s.mapPage 1 = some 1 ∧ s.mapPage 2 = some 2 ∧ (s.page 2).host = host ∧
          (s.put F.ACQ_MAPSTAT_BUSY 1).flag F.ACQ_MAPSTAT_BUSY = true ∧ Sparse.wf (fun _ => (0 : Byte)) s.dram = true) ∧
      run.flag F.ACQ_MAPSTAT_BUSY = false := by
  and_intros <;> first | exact ready_of (by decide +kernel) | decide +kernel

/-- With every other page retired and page 4095 bound, no page is loose. -/
theorem loose_none {s : State} (h : ∀ p < 4095, s.page p = { retired := true }) (o : (s.page 4095).owner = some 5)
    (b : s.pageProtected 4095 = true) : s.loosePages = 0 := by
  unfold State.loosePages
  rw [List.length_eq_zero_iff, List.filter_eq_nil_iff]
  intro p hp
  rw [List.mem_range] at hp
  by_cases e : p = 4095
  · subst e
    simp [Page.isFree, o, b]
  · rw [h p (by omega)]
    exact Bool.false_ne_true

theorem get_beyond {β : Type} (d : Nat → β) (x : β) (t : Sparse β) (k : Nat) : ∀ n a, a + n ≤ k →
    Sparse.get d (((List.range' a n).map fun p => (p, x)) ++ t) k = Sparse.get d t k := by
  intro n
  induction n with
  | zero => intro a h; rfl
  | succ n ih =>
    intro a h
    rw [List.range'_succ, List.map_cons, List.cons_append, Sparse.get, if_neg (by omega)]
    exact ih _ (by omega)

/-- Every page but the last is retired; page 4095 belongs to the closed record in entry 5; MINFREE pages must stay loose. -/
def filed (minfree : Nat) : State :=
  let s := (thaw run).put F.ACQ_CFG_MINFREE minfree
  { s with acq := { s.acq with
      recs := [(5, some { listed := true, opened := false, page := 4095 })], pages := retiredUpTo 4095 [(4095, { owner := some 5 })] } }

theorem filed_page (free p : Nat) (h : p < 4095) : (filed free).page p = { retired := true } :=
  get_range_const (fun _ => ({} : Page)) _ [(4095, { owner := some 5 })] p 4095 0 (by omega) (by omega)

theorem filed_last (free : Nat) : (filed free).page 4095 = { owner := some 5 } :=
  get_beyond (fun _ => ({} : Page)) { retired := true } [(4095, { owner := some 5 })] 4095 4095 0 (by omega)

/-- Its record kept, or its page claimed, no page is loose. -/
theorem filed_loose (free : Nat) :
    ((filed free).setRec 5 (some { listed := true, opened := false, page := 4095, prot := true })).loosePages = 0 ∧
      ((filed free).setPage 4095 { (filed free).page 4095 with host := true }).loosePages = 0 := by
  constructor
  · apply loose_none
    · exact filed_page free
    · exact congrArg Page.owner (filed_last free)
    · have : ((filed free).setRec 5 (some { listed := true, opened := false, page := 4095, prot := true })).page 4095 = { owner := some 5 } :=
        filed_last free
      have r : ((filed free).setRec 5 (some { listed := true, opened := false, page := 4095, prot := true })).recEntry 5 =
          some { listed := true, opened := false, page := 4095, prot := true } := by
        simp only [State.recEntry, State.setRec, Sparse.get_set, if_true]
      unfold State.pageProtected
      rw [this]
      simp only [r, Bool.or_true, Bool.true_or]
  · have at_ : ∀ p, ((filed free).setPage 4095 { (filed free).page 4095 with host := true }).page p =
        if p = 4095 then { owner := some 5, host := true } else (filed free).page p := by
      intro p
      rw [filed_last]
      simp only [State.page, State.setPage, Sparse.get_set]
    apply loose_none
    · intro p h
      rw [at_, if_neg (by omega), filed_page free p h]
    · rw [at_, if_pos rfl]
    · simp only [State.pageProtected, at_, if_true, Bool.true_or]

theorem witness_WindowsAndTheDirectoryAct :
    ((thaw run).Ready 0 ∧ (thaw run).findRec ((thaw run).get F.ACQ_DIRARG_RECID) = none) ∧
      (∀ opened : Bool, let r : Record := { listed := true, opened := opened, page := 9 }
        let s := thaw (run.setRec 5 (some r))
        readyB s 0 = true ∧ s.thawed 0 = true ∧ s.findRec (s.get F.ACQ_DIRARG_RECID) = some (5, r) ∧ s.recEntry 5 = some r ∧
          s.recOwned r = false ∧ (s.setPage 9 { host := true }).recOwned r = true) ∧
      (∀ free ∈ [0, 1], let s := filed free
        let r : Record := { listed := true, opened := false, page := 4095 }
        readyB s 0 = true ∧ s.findRec (s.get F.ACQ_DIRARG_RECID) = some (5, r) ∧ s.get F.ACQ_CFG_MINFREE = free ∧
          s.claimable 4095 = true ∧ (s.page 4095).mapKind ≠ 2 ∧ s.flag F.ACQ_WMAP_OWN 31 = false) ∧
      (run.claimable 4095 = false ∧ (run.setPage 4095 { mapKind := 2 }).claimable (4095 : BitVec 12).toNat = true ∧
        ((run.setPage 4095 { mapKind := 2 }).page 4095).mapKind = 2 ∧
        ((run.setRec 0 (some { opened := true })).setPage 4095 { owner := some 0 }).claimable 4095 = false ∧
        (run.put F.ACQ_WMAP_OWN 1 31).flag F.ACQ_WMAP_OWN 31 = true ∧ (∀ m < 31, (run.put F.ACQ_WMAP_OWN 1 31).flag F.ACQ_WMAP_OWN m = false)) := by
  and_intros <;> first | exact ready_of (by decide +kernel) | decide +kernel

theorem witness_ClockAlarmsRecoverAndTemperaturesLimit :
    (run.Quiet ∧ recoverPll 3 = some 3 ∧ recoverPll 6 = some 3 ∧ recoverPll 0 = none ∧ run.clk.recovering.testBit 3 = false ∧
      ({ run with clk := { recovering := 8 } } : State).clk.recovering.testBit 3 = true ∧
      run.netStopped = false ∧ (run.put F.CLK_STAT_LOCKED 13).netStopped = true ∧ run.get F.SEC_STATE_HSTATE ≠ 3 ∧
      (run.put F.SEC_STATE_HSTATE 3).get F.SEC_STATE_HSTATE = 3) ∧
      ((⟨some 5, true⟩ : TempWord).parity = true ∧ (⟨none, false⟩ : TempWord) ∈ [(⟨none, false⟩ : TempWord)]) ∧
      (let s : State := { run with clk := { lastAlarm := [(5, some 7)] }, ct := 6000000007 }
       Sparse.get (fun _ => none) s.clk.lastAlarm 5 = some 7 ∧ s.ct ≤ 7 + 6000000000) ∧
      (quadOf 25 = (14 : ClockId).val - 8 ∧ (laned run 25 lnService).lnState 25 = lnService) ∧
      (let s := recording 7 4 {}
       (∀ k < 8, s.get F.ACQ_RCFG_MODE k ≠ 1) ∧ s.rState 7 = 4 ∧ (s.rcr 7).entry = some 0 ∧ s.recEntry 0 = some {} ∧ ({} : Record).opened = true) ∧
      run.flag F.ACQ_STAT_SHED = false ∧ run.flag F.THM_STAT_SHED = run.flag F.ACQ_STAT_SHED ∧
      (dieInRange (some 2000) = some 2000 ∧ dieInRange (some 2001) = none ∧ nearMedian 4000 2000 = true ∧ nearMedian 4000 1899 = false) ∧
      bandOf (run.get F.THM_STAT_BAND) 1600 ≠ run.get F.THM_STAT_BAND ∧
      (run.put F.ACQ_CFG_CALBAND 1).flag F.ACQ_CFG_CALBAND = true ∧
      run.flag F.THM_EXTCFG_EN 3 = false ∧ (run.put F.THM_EXTCFG_EN 1 3).flag F.THM_EXTCFG_EN 3 = true := by
  and_intros <;> first | exact quiet_of (by decide +kernel) | decide +kernel

/-- Three slices that finish in time, the second differing or the voters at odds. -/
def votes (differs agree : Bool) : List SliceVote :=
  [⟨0, 0, false, 0, 0, agree, 7⟩, ⟨1, 0, differs, 1, 511, true, 7⟩, ⟨2, 0, false, 0, 0, true, if differs then 8 else 7⟩]

theorem witness_ThePeriodTakesItsInputsAllocatesAndLaunches :
    (State.reset.Quiet ∧ State.reset.periodsRun = false ∧ run.Quiet ∧ run.periodsRun = true ∧ run.get F.SEC_STATE_HSTATE = 2 ∧
      run.sec.holdFrames = none ∧ ({ run with sec := { holdFrames := some 0 } } : State).sec.holdFrames = some 0 ∧
      (run.put F.CMP_CFG_LATCH 1 15).get F.CMP_CFG_LATCH 15 = 1) ∧
      ((roled roleReady).duplex = true ∧ (roled roleReady).inStep = true ∧ (roled roleReady).red.takeDue = false ∧
        (roled roleReady).ce.xlIn = none ∧ ({ roled roleReady with ce := { xlIn := some {} } } : State).ce.xlIn = some {} ∧ run.bus.waiting = [] ∧ run.net.rapHeld = [] ∧
        (∀ had : Bool, ({ roled roleReady with red := { (roled roleReady).red with inHad := had } } : State).red.inHad = had) ∧
        run.inStep = false ∧ run.ce.cut = none ∧ ({ run with ce := { cut := some {} } } : State).ce.cut = some {}) ∧
      ((run.put F.MVS_STAT_STOPPING 1).flag F.MVS_STAT_STOPPING = true ∧ run.ce.stopBlk = false ∧ run.ce.stopDue = false ∧
        run.spareComing = false ∧ run.drivesLanes = true) ∧
      ((∃ v ∈ votes true true, ∃ w ∈ votes true true, v.pstar ≠ w.pstar) ∧ ∃ v ∈ votes true true, v.slice.val = 0) ∧
      (let s := (recording 7 1 {}).put F.ACQ_RVCH_VCNT 1 7
       (∀ k < 8, s.get F.ACQ_RCFG_MODE k ≠ 1) ∧ s.rState 7 = 1 ∧ s.rVirt 7 ≠ []) ∧
      ((run.put F.NET_GPCFG_EN 1 7).flag F.NET_GPCFG_EN 7 = true ∧ run.driving = true) ∧
      (∀ d a : Bool, ((votes d a).map (·.slice)).Nodup ∧ (∀ n < 3, run.onTime (votes d a) n = true) ∧
        ((votes d a).filter fun v => v.differs && run.votedSlices.contains v.slice.val) = if d then [⟨1, 0, d, 1, 511, true, 7⟩] else []) ∧
      (run.onTime [] 2 = false ∧ run.votedSlices.length = 3 ∧ run.img.per.perf = true ∧ run.ce.withheld = false ∧
        ((run.put F.RED_SLSTAT_STATE slMasked 2).votedSlices.length = 2) ∧
        (((run.put F.RED_SLSTAT_STATE slMasked 2).put F.RED_SLSTAT_STATE slMasked 1).votedSlices.length < 2) ∧
        ((List.range 3).filter (run.onTime [⟨1, 0, false, 0, 0, true, 7⟩])).length < 2 ∧
        2 ≤ ((List.range 3).filter (run.onTime ((votes false true).drop 1))).length ∧ run.onTime ((votes false true).drop 1) 0 = false ∧
        ({ run with img := { run.img with per := { run.img.per with perf := false } } } : State).img.per.perf = false) ∧
      (let s : State := { run with ce := { withheld := true } }
       s.ce.withheld = true ∧ s.whiteout = false ∧ s.clkBad 4 = false ∧ (s.put F.SAF_STAT_WO 1).whiteout = true ∧ run.flag F.LVS_CFG_HOSTCTL 15 = false ∧
         ({ run with img := { run.img with plant := { pairs := [1] } } } : State).pairUse 0 ≠ 0 ∧
         (let t : State := { run.put F.LVS_CFG_HOSTCTL 1 0 with img := { run.img with plant := { pairs := [1] } } }
          t.pairUse 0 ≠ 0 ∧ t.flag F.LVS_CFG_HOSTCTL 0 = true ∧ t.useLoop 0 = false)) := by
  and_intros <;> first | exact quiet_of (by decide +kernel) | decide +kernel
end Sys2Proof.Tests
end

section
/-! SUPPORT. The scope of the part (00_scope.md): one control tick (R33, log entry 2) and what an apply point does to a waiting write (R9, R62 to R66). -/

namespace Sys2Proof.Machine

variable {s : State}

/-! ### One control tick -/

/-- A tick in which no pair's drives clash rejects nothing (R264). -/
theorem State.foldl_rejectCt_of_no_clash (h : ∀ n < 16, (s.chan n).rejNow = false) :
    (List.range 16).foldl (fun (u : State) n => if (u.chan n).rejNow then u.rejectCt n else u) s = s := by
  refine List.foldlRecOn (motive := (· = s)) (List.range 16) _ rfl fun u hu n hn => ?_
  subst hu
  simp [h n (List.mem_range.mp hn)]

/-- Settles O2: with no clash the tick's interlock leaves the state, and a state with nothing left over settles as it stands. -/
theorem idleStepIsOneControlTick : Obligations.IdleStepIsOneControlTick := by
  unfold Obligations.IdleStepIsOneControlTick
  intro s hp hq hr
  have ht : step s = .next s.tick := by rw [step, hp]
  rw [ht, State.tick]
  refine congrArg Host.Outcome.next ((congrArg State.settle (State.foldl_rejectCt_of_no_clash ?_)).trans (State.settle_quiet ?_))
  · exact hr
  · exact hq

/-! ### An apply point and one waiting write -/

variable {w : BufWrite} {p : ApplyTarget} {i j : Nat}

/-- With no write held, none enters a buffer. -/
theorem State.takeHeld_nil (h : s.bus.held = []) : s.takeHeld = s := by
  obtain ⟨regs, evt, bus⟩ := s
  cases bus
  simp_all [State.takeHeld]

/-- The write at hand is the only one in the buffers, none is held, and the apply stage is empty. -/
structure State.OneWaits (s : State) (w : BufWrite) : Prop where
  buf : s.bus.buf = [w]
  stage : s.bus.stage = []
  held : s.bus.held = []
  last : w.old = false
  bits : w.mask ≠ 0#32

/-- The state with its buffers empty. -/
def State.noBuf (s : State) : State := { s with bus := { s.bus with buf := [], stage := [] } }

/-- The writes that an apply point looks at are the one that waits. -/
theorem State.OneWaits.writes (h : s.OneWaits w) : s.bus.buf.filter (!·.old) ++ s.bus.stage = [w] := by
  simp [h.buf, h.stage, h.last]

/-- An apply point that reaches no bit of the write leaves it waiting. -/
theorem State.OneWaits.drain_unreached (h : s.OneWaits w) (h0 : s.dueBits w p = 0#32) : s.drain p = s := by
  have hb : s.restOf s.bus.buf p = s.bus.buf := by
    have e : w.mask &&& ~~~0#32 = w.mask := BitVec.and_allOnes
    simp only [h.buf, State.restOf, List.map_cons, List.map_nil, h0, e]
    simp [h.bits]
  have hs : s.restOf s.bus.stage p = s.bus.stage := by rw [h.stage]; rfl
  rw [State.drain, h.writes, hb, hs]
  exact (congrArg State.takeHeld (if_pos h0)).trans (State.takeHeld_nil h.held)

/-- An apply point that reaches every bit of the write puts it in force and empties the buffer. -/
theorem State.OneWaits.drain_reached (h : s.OneWaits w) (h1 : s.dueBits w p = w.mask) :
    s.drain p = (s.noBuf.applyBits w.addr w.val w.mask).takeHeld := by
  have hb : s.restOf s.bus.buf p = [] := by simp [h.buf, State.restOf, h1]
  have hs : s.restOf s.bus.stage p = [] := by rw [h.stage]; rfl
  rw [State.drain, h.writes, hb, hs]
  simp only [List.foldl_cons, List.foldl_nil, h1]
  exact congrArg State.takeHeld (if_neg h.bits)

/-- The bits that an apply point reaches of a write that waits for no REG segment and whose commit met no reload. -/
theorem State.dueBits_of_rowAt {r : Row} (h : s.rowAt w.addr = some (r, i, j)) (hw : w.wait = false) (hn : w.notAt = none) :
    s.dueBits w p = w.mask &&& dueMask r i j p := by
  simp [State.dueBits, h, hw, hn]

/-- Arming changes the groups' records alone. -/
theorem State.armGroups_eq (s : State) : ∃ g, s.armGroups = { s with groups := g } := by
  unfold State.armGroups
  refine List.foldlRecOn (motive := fun (t : State) => ∃ g, t = { s with groups := g }) s.groupsUsed _ ⟨_, rfl⟩ ?_
  rintro t ⟨g, rfl⟩ n _
  exact ⟨_, rfl⟩

/-- BUFFERED_WRITE_APPLY at a point that leaves a quiet state as it is. -/
theorem exec_bufferedWriteApply_same (hq : s.Quiet) (hp : p ≠ .period) (h : s.drain p = s) :
    exec (.bufferedWriteApply p) s = .next s := by
  change (s.applyPoint p).done = _
  rw [State.applyPoint, h, if_neg hp, State.done_quiet hq]

/-- Outside the loop graph every state has the same words. -/
theorem State.rowAt_outside_graph (s : State) {a : Nat} (h : a < 0x48000 ∨ 0x5FFFF < a) : s.rowAt a = findRow a := by
  have hn : s.noInst a = false := by
    rcases h with h | h
    · simp [State.noInst, Nat.not_le.mpr h]
    · simp [State.noInst, Nat.not_le.mpr h]
  simp [State.rowAt, hn]

/-- Bits put in force outside the event block go to the register file. -/
theorem State.putBits_outside_evt (s : State) {a : Nat} (h : 0x1FFFF < a) (v mask : Word) :
    s.putBits a v mask = s.wr a ((s.rd a &&& ~~~ mask) ||| (v &&& mask)) := by
  have hn : ¬ (0x10000 ≤ a ∧ a ≤ 0x1FFFF) := by omega
  rw [State.putBits, State.load, State.inForce, if_neg hn, if_neg hn]

/-! ### A set-point write (R62, R64) -/

/-- The word of a set-point lies in its row. -/
theorem State.rowAt_setPoint (s : State) (hi : i < 16) : s.rowAt (F.CE_SP_VALUE.addr i) = some (R.CE_SP, i, 0) := by
  have hf : ∀ i < 16, findRow (F.CE_SP_VALUE.addr i) = some (R.CE_SP, i, 0) := by decide +kernel
  rw [s.rowAt_outside_graph (.inl (by simp only [Fld.addr, F.CE_SP_VALUE]; omega)), hf i hi]

/-- A set-point comes into force as it was written and brings nothing with it. -/
theorem State.applyBits_setPoint (s : State) (v : Word) (hi : i < 16) :
    s.applyBits (F.CE_SP_VALUE.addr i) v 0xFFFFFFFF = s.wr (F.CE_SP_VALUE.addr i) v := by
  have ha : 0x1FFFF < F.CE_SP_VALUE.addr i := by simp only [Fld.addr, F.CE_SP_VALUE]; omega
  have hm : (0xFFFFFFFF : Word) &&& R.CE_SP.rwMask = BitVec.allOnes 32 := by decide
  have hv : fixBits R.CE_SP i v = v := rfl
  have hf : ∀ t : State, s.followUp t R.CE_SP i v = t := fun _ => rfl
  have hp : s.putBits (F.CE_SP_VALUE.addr i) v (BitVec.allOnes 32) = s.wr (F.CE_SP_VALUE.addr i) v := by
    rw [s.putBits_outside_evt ha, BitVec.not_allOnes, BitVec.and_zero, BitVec.zero_or, BitVec.and_allOnes]
  simp only [State.applyBits, s.rowAt_setPoint hi, hv, hm]
  rw [if_neg (by decide), hf, hp]

/-- A set-point waits for the period boundary and for no other apply point. -/
theorem dueMask_setPoint (p : ApplyTarget) :
    dueMask R.CE_SP i j p = if p = .period then BitVec.allOnes 32 else 0#32 := by
  have hm : ∀ q : ApplyPt, R.CE_SP.maskOf (fun f => f.takes && f.apply == q) = if q = .period then BitVec.allOnes 32 else 0#32 := by
    intro q; cases q <;> decide
  cases p <;> simp [dueMask, hm]

/-- A set-point write from a path, as it waits. -/
def setPointWrite (path i : Nat) (v : Word) : BufWrite := ⟨path, F.CE_SP_VALUE.addr i, v, 0xFFFFFFFF, false, none, false⟩

variable {path : Nat} {v : Word}

/-- Every bit of a set-point write is due at the boundary and none elsewhere. -/
theorem State.dueBits_setPoint (hi : i < 16) :
    s.dueBits (setPointWrite path i v) p = if p = .period then 0xFFFFFFFF#32 else 0#32 := by
  rw [State.dueBits_of_rowAt (s.rowAt_setPoint hi) rfl rfl, dueMask_setPoint]
  split <;> simp [setPointWrite]

/-- The boundary drains a set-point write into its register. -/
theorem State.drain_setPoint (h : s.OneWaits (setPointWrite path i v)) (hi : i < 16) :
    s.drain .period = s.noBuf.wr (F.CE_SP_VALUE.addr i) v := by
  rw [h.drain_reached (State.dueBits_setPoint hi)]
  exact (congrArg State.takeHeld (State.applyBits_setPoint s.noBuf v hi)).trans (State.takeHeld_nil h.held)

/-- At the boundary a set-point write comes into force and leaves the buffer, and the registers beside it and the stores stay. -/
theorem exec_bufferedWriteApply_period_setPoint (h : s.OneWaits (setPointWrite path i v)) (hi : i < 16) :
    ∃ u : State, exec (.bufferedWriteApply .period) s = .next u.settle ∧ u.rd (F.CE_SP_VALUE.addr i) = v ∧ u.bus.buf = [] ∧
      (∀ a, a ≠ F.CE_SP_VALUE.addr i → u.rd a = s.rd a) ∧ s.SameStore u := by
  obtain ⟨g, hg⟩ := (s.drain .period).armGroups_eq
  rw [State.drain_setPoint h hi] at hg
  have he : exec (.bufferedWriteApply .period) s = .next ((s.drain .period).armGroups).settle := rfl
  rw [State.drain_setPoint h hi, hg] at he
  refine ⟨_, he, ?_, rfl, fun a ha => ?_, rfl, rfl, rfl, rfl⟩
  · exact s.noBuf.rd_wr_same _ v
  · exact s.noBuf.rd_wr_ne v ha

/-- At a frame, pwm or packet point a set-point write goes on waiting. -/
theorem exec_bufferedWriteApply_other_setPoint (hq : s.Quiet) (h : s.OneWaits (setPointWrite path i v)) (hi : i < 16)
    (hp : p ≠ .period) : exec (.bufferedWriteApply p) s = .next s := by
  refine exec_bufferedWriteApply_same hq hp (h.drain_unreached ?_)
  rw [State.dueBits_setPoint hi, if_neg hp]

/-! ### A host's LV compare (R66, R259) -/

/-- The word of a compare lies in its row. -/
theorem State.rowAt_compare (s : State) (c : ChanId) : s.rowAt (F.LVS_CMP_CMP.addr c) = some (R.LVS_CMP, c.val, 0) := by
  have hf : ∀ c : ChanId, findRow (F.LVS_CMP_CMP.addr c) = some (R.LVS_CMP, c.val, 0) := by decide +kernel
  rw [s.rowAt_outside_graph (.inr (by simp only [Fld.addr, F.LVS_CMP_CMP]; omega)), hf c]

/-- The shadow compare that a compare value gives a channel (R259). -/
def State.shadowOf (s : State) (c v : Nat) : Nat := if isPair c && s.pairUse c != 0 && !s.useLoop c then 0 else v

/-- A compare value is in force, and its channel's shadow holds what the state with the new value gives. -/
def State.compareInForce (s : State) (c : ChanId) (v : Word) : State :=
  (s.put F.LVS_CMP_CMP v.toNat c).setChan c
    { s.chan c with shCmp := (s.put F.LVS_CMP_CMP v.toNat c).shadowOf c (fieldGet v 19 0) }

/-- What a compare brings with it is its channel's shadow alone. -/
theorem State.applyBits_compare (s : State) (c : ChanId) (v : Word) :
    s.applyBits (F.LVS_CMP_CMP.addr c) v 0xFFFFF = s.compareInForce c v := by
  have ha : 0x1FFFF < F.LVS_CMP_CMP.addr c := by simp only [Fld.addr, F.LVS_CMP_CMP]; omega
  have hm : (0xFFFFF : Word) &&& R.LVS_CMP.rwMask = fieldMask F.LVS_CMP_CMP.hi F.LVS_CMP_CMP.lo := by decide
  have hv : fixBits R.LVS_CMP c v = v := rfl
  have hl : BitVec.ofNat 32 v.toNat <<< F.LVS_CMP_CMP.lo = v := by simp [F.LVS_CMP_CMP]
  have hp : s.putBits (F.LVS_CMP_CMP.addr c) v ((0xFFFFF : Word) &&& R.LVS_CMP.rwMask) = s.put F.LVS_CMP_CMP v.toNat c := by
    rw [hm, s.putBits_outside_evt ha, State.put, fieldSet, hl]
  simp only [State.applyBits, s.rowAt_compare c, hv]
  rw [if_neg (by decide), hp]
  rfl

/-- A compare waits for its own channel's point and for no other's. -/
theorem dueMask_compare (c d : ChanId) :
    dueMask R.LVS_CMP c j (.pwm d) = if d = c then 0xFFFFF#32 else 0#32 := by
  have hm : R.LVS_CMP.maskOf (fun f => f.takes && f.apply == .pwm) = 0xFFFFF#32 := by decide
  have hc : pwmChan R.LVS_CMP c j = c.val := rfl
  simp only [dueMask, hc, hm, Fin.ext_iff, eq_comm (a := d.val)]
  rfl

/-- A compare write from a path, as it waits when its commit fell in no reload's control tick. -/
def compareWrite (path : Nat) (c : ChanId) (v : Word) : BufWrite := ⟨path, F.LVS_CMP_CMP.addr c, v, 0xFFFFF, false, none, false⟩

variable {c d : ChanId}

/-- Every bit of a compare write is due at its channel's point and none at another's. -/
theorem State.dueBits_compare : s.dueBits (compareWrite path c v) (.pwm d) = if d = c then 0xFFFFF#32 else 0#32 := by
  rw [State.dueBits_of_rowAt (s.rowAt_compare c) rfl rfl, dueMask_compare]
  split <;> simp [compareWrite]

/-- At its channel's point a compare comes into force and leaves the buffer. -/
theorem exec_bufferedWriteApply_pwm_compare (hq : s.Quiet) (h : s.OneWaits (compareWrite path c v)) :
    exec (.bufferedWriteApply (.pwm c)) s = .next (s.noBuf.compareInForce c v) := by
  have hd : s.drain (.pwm c) = s.noBuf.compareInForce c v := by
    rw [h.drain_reached (State.dueBits_compare.trans (if_pos rfl))]
    exact (congrArg State.takeHeld (State.applyBits_compare s.noBuf c v)).trans (State.takeHeld_nil h.held)
  change (s.applyPoint (.pwm c)).done = _
  rw [State.applyPoint, hd, if_neg (by simp)]
  exact State.done_quiet hq

/-- At another channel's point a compare goes on waiting. -/
theorem exec_bufferedWriteApply_pwm_other_compare (hq : s.Quiet) (h : s.OneWaits (compareWrite path c v)) (hd : d ≠ c) :
    exec (.bufferedWriteApply (.pwm d)) s = .next s :=
  exec_bufferedWriteApply_same hq (by simp) (h.drain_unreached (State.dueBits_compare.trans (if_neg hd)))

/-- A compare in force moves no loop bit of a declared use: the words of the five uses (R25) lie below the compares. -/
theorem State.shadowOf_put_compare (hu : s.pairUse c ≤ 5) (x y : Nat) :
    (s.put F.LVS_CMP_CMP y c).shadowOf c x = s.shadowOf c x := by
  have hl : F.CE_LOOPEN_EN.base ≠ F.LVS_CMP_CMP.addr c := by simp only [Fld.addr, F.LVS_CMP_CMP, F.CE_LOOPEN_EN]; omega
  have hw : F.LVS_USE_LOOP.addr (s.pairUse c - 1) ≠ F.LVS_CMP_CMP.addr c := by
    simp only [Fld.addr, F.LVS_CMP_CMP, F.LVS_USE_LOOP]; omega
  have hp : (s.put F.LVS_CMP_CMP y c).pairUse c = s.pairUse c := rfl
  have hg : (s.put F.LVS_CMP_CMP y c).useLoop c = s.useLoop c := by
    simp only [State.useLoop, State.loopOn, hp]
    rw [State.get_put_addr _ _ _ _ _ _ _ _ hw, State.rd_put_ne _ _ _ hl]
  simp only [State.shadowOf, hp, hg]

/-- Where the image gives the pair one of the uses of R25, as `Plant.ok` asks of every image, a compare acts at its channel's point as R66
and R259 say, with the loop bit of the state before it. -/
theorem exec_bufferedWriteApply_pwm_compare_of_pairUse (hq : s.Quiet) (h : s.OneWaits (compareWrite path c v)) (hv : v.toNat < 2 ^ 20)
    (hu : s.pairUse c ≤ 5) :
    ∃ t : State, exec (.bufferedWriteApply (.pwm c)) s = .next t ∧ t.get F.LVS_CMP_CMP c = v.toNat ∧
      (t.chan c).shCmp = (if isPair c && s.pairUse c != 0 && !s.useLoop c then 0 else v.toNat) ∧ t.bus.buf = [] ∧
      ∀ a, a ≠ F.LVS_CMP_CMP.addr c → t.rd a = s.rd a := by
  have hf : fieldGet v 19 0 = v.toNat := by
    simp only [fieldGet, BitVec.extractLsb'_toNat, Nat.shiftRight_zero]
    exact Nat.mod_eq_of_lt hv
  refine ⟨_, exec_bufferedWriteApply_pwm_compare hq h, ?_, ?_, rfl, fun a ha => ?_⟩
  · exact (s.noBuf.get_put_same F.LVS_CMP_CMP v.toNat c 0 (by decide)).trans (Nat.mod_eq_of_lt hv)
  · have hs : ((s.noBuf.compareInForce c v).chan c).shCmp =
        (s.noBuf.put F.LVS_CMP_CMP v.toNat c).shadowOf c (fieldGet v 19 0) := by
      simp [State.compareInForce, State.chan, State.setChan]
    rw [hs, State.shadowOf_put_compare (s := s.noBuf) hu, hf]
    rfl
  · exact s.noBuf.rd_put_ne _ _ ha

/-- Pair 0 has the use 27, which R25 does not know: LVS_USE of that use would lie at the word of its own compare. Loop bit 1 is set, the
compare in force is 0, and a compare whose bits 17 to 21 name loop bit 1 waits. -/
def useAtItsCompare : State :=
  { State.reset.wr F.CE_LOOPEN_EN.base 2 with
    img := { State.reset.img with plant := { pairs := [27] } }
    bus := { State.reset.bus with buf := [compareWrite 0 0 0x20000] } }

/-- Refutes O21: the statement takes the loop bit from the state before the write, the model from the state after it, and the two differ
where the image's use of the pair is none of R25's. -/
theorem not_bufferedWritesApplyAtTheirPoint : ¬ Obligations.BufferedWritesApplyAtTheirPoint := by
  unfold Obligations.BufferedWritesApplyAtTheirPoint
  intro h
  have hq : useAtItsCompare.Quiet := ⟨rfl, rfl, rfl, rfl⟩
  obtain ⟨-, hc⟩ := h useAtItsCompare hq rfl
  obtain ⟨⟨t, ht, -, hsh, -⟩, -⟩ := hc 0 0 1 0x20000 (by decide) rfl rfl
  have hw : useAtItsCompare.OneWaits (compareWrite 0 0 0x20000) := ⟨rfl, rfl, rfl, rfl, by decide⟩
  rw [exec_bufferedWriteApply_pwm_compare hq hw] at ht
  cases ht
  have hasked : useAtItsCompare.shadowOf 0 0x20000 = 0 := by decide +kernel
  have hgiven : ((useAtItsCompare.noBuf.compareInForce 0 0x20000).chan 0).shCmp = 0x20000 := by decide +kernel
  have hsame : 0x20000 = useAtItsCompare.shadowOf 0 0x20000 := hgiven.symm.trans hsh
  omega

end Sys2Proof.Machine
end

section
/-! SUPPORT. Cell and group commands as writes (06_cell_protocol.md R187, 08_mv_modulation_balancing.md R234): a G1 write that waits in its
block's buffer for its boundary (R62, R67), or that the state refuses. -/

namespace Sys2Proof.Machine

/-! ### A G1 write that waits for its apply point (R62, R67) -/

variable {s : State} {path a i j : Nat} {v mask : Word} {r : Row}

/-- A G1 register of which the bits of a mask wait in the block's buffer; it is not written in a transaction alone and is no compare of a
channel. -/
structure Row.Waits (r : Row) (a i j : Nat) (mask : Word) : Prop where
  row : cmdRow a r i j = true
  guard : r.guarded .g1 = true
  late : r.maskOf (fun f => f.takes && f.apply != .immediate) = mask
  some : mask ≠ 0#32
  plain : txnOnly r = false
  other : R.LVS_CMP.indexOf a = none

/-- The write as it enters its block's buffer, is passed to a standby and arms the path's lock again (R62, R67, R329). -/
def State.waitsFor (s : State) (path a : Nat) (v mask : Word) : State :=
  ((s.pushBuf ⟨path, a, v, mask, false, none, s.regGone⟩).forward ⟨a, v, path, .write⟩).refreeze path

/-- Passing a write on leaves the event block. -/
@[simp] theorem State.forward_evt (s : State) (e : RegEntry) : (s.forward e).evt = s.evt := by
  unfold State.forward
  split <;> rfl

/-- A write that waits raises nothing. -/
theorem State.waitsFor_evt (s : State) (path a : Nat) (v mask : Word) : (s.waitsFor path a v mask).evt = s.evt :=
  State.forward_evt _ _

/-- A write with room in its block's buffer enters it. -/
theorem State.offerBuf_room (w : BufWrite) (hf : s.regFull = false) (hn : s.bufCount w.addr < 64) (hh : s.bus.held = [])
    (hc : R.LVS_CMP.indexOf w.addr = none) :
    s.offerBuf w = (s.pushBuf { w with wait := s.regGone }).forward ⟨w.addr, w.val, w.path, .write⟩ := by
  simp [State.offerBuf, hf, Nat.not_le.mpr hn, hh, hc]

/-- A write command from a thawed path to a register whose fields wait: it joins the buffer and is answered OK. -/
theorem State.Ready.pathWrite_waits (h : s.Ready path) (hw : r.Waits a i j mask) (ht : s.thawed path = true)
    (ho : s.ownsOpen path = false) (hh : s.bus.held = []) (hn : s.bufCount a < 64) (hr : s.rangeFault path a v r i j = none)
    (hs : s.stateOk r i v = true) (hi : ∀ t : State, t.immediate path a v r i = (t, .ok)) :
    s.pathWrite path a v = (s.waitsFor path a v mask).noteCode path .ok := by
  have hb := State.offerBuf_room ⟨path, a, v, mask, false, none, false⟩ h.room.1 hn hh hw.other
  have ha : s.acceptLate path a v r = (s.offerBuf ⟨path, a, v, mask, false, none, false⟩, .ok) := by
    simp [State.acceptLate, hw.late, hw.some, ho, hw.plain]
  have hk : s.takeWrite path a v r i j = (s.offerBuf ⟨path, a, v, mask, false, none, false⟩, .ok) := by
    simp [State.takeWrite, hr, hs, ha, hi]
  simp [State.pathWrite, h.on, h.mustWait, State.busWrite, h.g2, h.checkWrite hw.row, State.guardWrite, cmdRow_g2 hw.row, hw.guard, ht, hk,
    State.noteRefused, hb, State.waitsFor]

/-- A write command from a thawed path that the state refuses is answered STATE and changes nothing else. -/
theorem State.Ready.pathWrite_state (h : s.Ready path) (hw : r.Waits a i j mask) (ht : s.thawed path = true)
    (hr : s.rangeFault path a v r i j = none) (hs : s.stateOk r i v = false) (he : r.base ≠ R.CELL_ENTRYW.base)
    (hx : s.noteRefused a .state = s) : s.pathWrite path a v = s.noteCode path .state := by
  simp [State.pathWrite, h.on, h.mustWait, State.busWrite, h.g2, h.checkWrite hw.row, State.guardWrite, cmdRow_g2 hw.row, hw.guard, ht,
    State.takeWrite, hr, hs, he, hx]

/-! ### CELL_CTRL and CELL_GCTRL as registers (R189) -/

/-- CELL_CTRL of a cell waits in the buffer of the CELL block. -/
theorem cellCtrl_waits (c : CellId) : R.CELL_CTRL.Waits (F.CELL_CTRL_CMD.addr c) c 0 7 := by
  have hrow : ∀ c : CellId, cmdRow (F.CELL_CTRL_CMD.addr c) R.CELL_CTRL c 0 = true := by decide +kernel
  have hcmp : ∀ c : CellId, R.LVS_CMP.indexOf (F.CELL_CTRL_CMD.addr c) = none := by decide +kernel
  exact ⟨hrow c, by decide, by decide, by decide, by decide, hcmp c⟩

/-- CELL_GCTRL waits in the buffer of the CELL block. -/
theorem cellGctrl_waits : R.CELL_GCTRL.Waits R.CELL_GCTRL.base 0 0 3 :=
  ⟨by decide +kernel, by decide, by decide, by decide, by decide, by decide⟩

/-- A command code of R187 is within the range of CELL_CTRL. -/
theorem State.rangeFault_cellCtrl (s : State) (c : CellId) {n : Nat} (hn : n ∈ [1, 2, 3, 4]) :
    s.rangeFault path a (BitVec.ofNat 32 n) R.CELL_CTRL c 0 = none := by
  have hr : ∀ n ∈ [1, 2, 3, 4], rowRange R.CELL_CTRL (BitVec.ofNat 32 n) = true := by decide
  exact State.rangeFault_cmd (hr n hn) (by decide) rfl (.inl (by decide))

/-- Every command code of CELL_GCTRL is within its range. -/
theorem State.rangeFault_cellGctrl (s : State) {n : Nat} (hn : n ∈ [1, 2]) :
    s.rangeFault path a (BitVec.ofNat 32 n) R.CELL_GCTRL 0 0 = none := by
  have hr : ∀ n ∈ [1, 2], rowRange R.CELL_GCTRL (BitVec.ofNat 32 n) = true := by decide
  exact State.rangeFault_cmd (hr n hn) (by decide) rfl (.inl (by decide))

/-- A cell command that is allowed names a cell with a table entry. -/
theorem State.cState_ne_empty_of_cellCmdOk {c n : Nat} (h : s.cellCmdOk c n = true) : s.cState c ≠ csEmpty := by
  intro he
  rw [State.cellCmdOk] at h
  simp [he, csEmpty, csBlocked, csQueued, csPrecharge, csReady, csSpare, csRun, csBypassed, csFailed] at h

/-- The command that a word of CELL_CTRL carries. -/
theorem fieldGet_cellCmd {n : Nat} (hn : n < 8) : fieldGet (BitVec.ofNat 32 n) 2 0 = n := by
  have hd : ∀ n < 8, fieldGet (BitVec.ofNat 32 n) 2 0 = n := by decide
  exact hd n hn

/-- The state admits a write of CELL_CTRL just where R187 admits the command. -/
theorem State.stateOk_cellCtrl (s : State) (c : Nat) {n : Nat} (hn : n < 8) :
    s.stateOk R.CELL_CTRL c (BitVec.ofNat 32 n) = s.cellCmdOk c n := by
  have he : s.stateOk R.CELL_CTRL c (BitVec.ofNat 32 n) = (s.cState c != csEmpty && s.cellCmdOk c (fieldGet (BitVec.ofNat 32 n) 2 0)) := rfl
  rw [he, fieldGet_cellCmd hn]
  cases hk : s.cellCmdOk c n with
  | false => simp
  | true => simp [State.cState_ne_empty_of_cellCmdOk hk]

/-- A cell command from a thawed path, allowed (R62, R187). -/
theorem State.Ready.cellCtrl_ok (h : s.Ready path) (ht : s.thawed path = true) (ho : s.ownsOpen path = false) (hh : s.bus.held = [])
    (c : CellId) (hn : s.bufCount (F.CELL_CTRL_CMD.addr c) < 64) {n : Nat} (hm : n ∈ [1, 2, 3, 4]) (hk : s.cellCmdOk c n = true) :
    (s.cellCtrl path c n).done = .next ((s.waitsFor path (F.CELL_CTRL_CMD.addr c) (BitVec.ofNat 32 n) 7).noteCode path .ok) := by
  have h8 : n < 8 := by simp at hm; omega
  rw [State.cellCtrl, h.pathWrite_waits (cellCtrl_waits c) ht ho hh hn (s.rangeFault_cellCtrl c hm) ((s.stateOk_cellCtrl c h8).trans hk)
    fun _ => rfl]
  exact State.done_quiet (h.quiet.of_evt (s.waitsFor_evt _ _ _ _))

/-- A cell command from a thawed path that the cell's state does not allow (R187). -/
theorem State.Ready.cellCtrl_refused (h : s.Ready path) (ht : s.thawed path = true) (c : CellId) {n : Nat} (hm : n ∈ [1, 2, 3, 4])
    (hk : s.cellCmdOk c n = false) : (s.cellCtrl path c n).done = .next (s.noteCode path .state) := by
  have h8 : n < 8 := by simp at hm; omega
  have hx : s.noteRefused (F.CELL_CTRL_CMD.addr c) .state = s := by
    have h1 : F.CELL_CTRL_CMD.addr c ≠ R.SEC_NVMCTL.base := by simp only [Fld.addr, F.CELL_CTRL_CMD, R.SEC_NVMCTL]; omega
    have h2 : ¬ (F.CELL_CTRL_CMD.addr c = R.SEC_KEYOP.base ∨ F.CELL_CTRL_CMD.addr c = R.SEC_KEYOP.base + 4) := by
      simp only [Fld.addr, F.CELL_CTRL_CMD, R.SEC_KEYOP]; omega
    simp [State.noteRefused, h1, h2]
  rw [State.cellCtrl, h.pathWrite_state (cellCtrl_waits c) ht (s.rangeFault_cellCtrl c hm) ((s.stateOk_cellCtrl c h8).trans hk) (by decide) hx]
  exact State.done_quiet (State.noteCode_quiet h.quiet)

/-- A group command from a thawed path that the state allows. -/
theorem State.Ready.groupCtrl_ok (h : s.Ready path) (ht : s.thawed path = true) (ho : s.ownsOpen path = false) (hh : s.bus.held = [])
    (hn : s.bufCount R.CELL_GCTRL.base < 64) {n : Nat} (hm : n ∈ [1, 2]) (hk : s.stateOk R.CELL_GCTRL 0 (BitVec.ofNat 32 n) = true) :
    (s.pathWrite path R.CELL_GCTRL.base (BitVec.ofNat 32 n)).done =
      .next ((s.waitsFor path R.CELL_GCTRL.base (BitVec.ofNat 32 n) 3).noteCode path .ok) := by
  rw [h.pathWrite_waits cellGctrl_waits ht ho hh hn (s.rangeFault_cellGctrl hm) hk fun _ => rfl]
  exact State.done_quiet (h.quiet.of_evt (s.waitsFor_evt _ _ _ _))

/-- A group command from a thawed path that the state does not allow. -/
theorem State.Ready.groupCtrl_refused (h : s.Ready path) (ht : s.thawed path = true) {n : Nat} (hm : n ∈ [1, 2])
    (hk : s.stateOk R.CELL_GCTRL 0 (BitVec.ofNat 32 n) = false) :
    (s.pathWrite path R.CELL_GCTRL.base (BitVec.ofNat 32 n)).done = .next (s.noteCode path .state) := by
  rw [h.pathWrite_state cellGctrl_waits ht (s.rangeFault_cellGctrl hm) hk (by decide) rfl]
  exact State.done_quiet (State.noteCode_quiet h.quiet)

/-- The state admits a group START outside whiteout while no IDHASH write is staged (R19, R348). -/
theorem State.stateOk_groupStart (s : State) :
    s.stateOk R.CELL_GCTRL 0 1#32 = decide (s.whiteout = false ∧ (s.stagedHash fun _ => true) = false) := by
  have he : s.stateOk R.CELL_GCTRL 0 1#32 = (!s.whiteout && !s.stagedHash fun _ => true) := rfl
  rw [he]
  cases s.whiteout <;> cases (s.stagedHash fun _ => true) <;> rfl

/-- Settles O33: each command is one write of a G1 register whose field waits, and the register's state check is the command's own. -/
theorem cellAndGroupCommandsWaitForTheBoundary : Obligations.CellAndGroupCommandsWaitForTheBoundary := by
  unfold Obligations.CellAndGroupCommandsWaitForTheBoundary
  intro s path h ht ho hh
  refine ⟨fun c hn => ?_, fun hn => ⟨?_, ?_⟩⟩
  · have ok := fun n (hm : n ∈ [1, 2, 3, 4]) => h.cellCtrl_ok ht ho hh c hn hm
    have no := fun n (hm : n ∈ [1, 2, 3, 4]) => h.cellCtrl_refused ht c hm
    exact ⟨ok 1 (by decide), ok 2 (by decide), ok 3 (by decide), ok 4 (by decide),
      no 1 (by decide), no 2 (by decide), no 3 (by decide), no 4 (by decide)⟩
  · exact h.groupCtrl_ok ht ho hh hn (n := 2) (by decide) rfl
  · have hs := s.stateOk_groupStart
    split
    · next hk => exact h.groupCtrl_ok ht ho hh hn (n := 1) (by decide) (hs.trans (decide_eq_true hk))
    · next hk => exact h.groupCtrl_refused ht (n := 1) (by decide) (hs.trans (decide_eq_false hk))

end Sys2Proof.Machine
end

section
/-! SUPPORT. What the boundary does with a waiting cell or group command (01_converter_model.md R22, 06_cell_protocol.md R183 to R187,
08_mv_modulation_balancing.md R234): the moves of one cell with what they leave, and the same over a list of cells. -/

namespace Sys2Proof.Machine

variable {s t u : State} {c d n : Nat} {cs : List Nat} {w : BufWrite}

/-! ### Moves that touch some cells only -/

/-- From `s` to `t` only the cells of a list have moved: their CELL_STAT words, their records, the start budget and the cells that a
committing transaction restages. -/
structure State.MovesCells (cs : List Nat) (s t : State) : Prop where
  rd : ∀ a, (∀ c ∈ cs, a ≠ F.CELL_STAT_STATE.addr c) → t.rd a = s.rd a
  cell : ∀ d, d ∉ cs → t.cell d = s.cell d
  rest : ∃ r l x b, t = { s with regs := r, cells := x, budget := b, bus := { s.bus with txn := { s.bus.txn with restage := l } } }

theorem State.MovesCells.refl (cs : List Nat) (s : State) : State.MovesCells cs s s := ⟨fun _ _ => rfl, fun _ _ => rfl, _, _, _, _, rfl⟩

theorem State.MovesCells.trans (h : State.MovesCells cs s t) (g : State.MovesCells cs t u) : State.MovesCells cs s u := by
  refine ⟨fun a ha => (g.rd a ha).trans (h.rd a ha), fun d hd => (g.cell d hd).trans (h.cell d hd), ?_⟩
  obtain ⟨r, l, x, b, rfl⟩ := h.rest
  obtain ⟨r', l', x', b', rfl⟩ := g.rest
  exact ⟨r', l', x', b', rfl⟩

theorem State.MovesCells.mono {cs' : List Nat} (h : State.MovesCells cs s t) (hs : ∀ c ∈ cs, c ∈ cs') : State.MovesCells cs' s t :=
  ⟨fun a ha => h.rd a fun c hc => ha c (hs c hc), fun d hd => h.cell d fun hc => hd (hs d hc), h.rest⟩

/-- A fold of moves, one cell at a time. -/
theorem State.MovesCells.foldl {f : State → Nat → State} (hf : ∀ t c, State.MovesCells [c] t (f t c)) (cs : List Nat) (s : State) :
    State.MovesCells cs s (cs.foldl f s) := by
  induction cs generalizing s with
  | nil => exact .refl _ _
  | cons c cs ih =>
    exact ((hf s c).mono fun x hx => by simp_all).trans ((ih (f s c)).mono fun x hx => List.mem_cons_of_mem _ hx)

theorem State.MovesCells.evt (h : State.MovesCells cs s t) : t.evt = s.evt := by obtain ⟨r, l, x, b, rfl⟩ := h.rest; rfl
theorem State.MovesCells.buf (h : State.MovesCells cs s t) : t.bus.buf = s.bus.buf := by obtain ⟨r, l, x, b, rfl⟩ := h.rest; rfl
theorem State.MovesCells.held (h : State.MovesCells cs s t) : t.bus.held = s.bus.held := by obtain ⟨r, l, x, b, rfl⟩ := h.rest; rfl
theorem State.MovesCells.sameStore (h : State.MovesCells cs s t) : s.SameStore t := by
  obtain ⟨r, l, x, b, rfl⟩ := h.rest; exact ⟨rfl, rfl, rfl, rfl⟩

/-- The CELL_STAT words of two cells are two words. -/
theorem cellStat_addr_ne (h : d ≠ c) : F.CELL_STAT_STATE.addr d ≠ F.CELL_STAT_STATE.addr c := by
  simp only [Fld.addr, F.CELL_STAT_STATE]; omega

/-- A cell off the list stays in its state. -/
theorem State.MovesCells.cState (h : State.MovesCells cs s t) (hd : d ∉ cs) : t.cState d = s.cState d := by
  have hr : t.rd (F.CELL_STAT_STATE.addr d) = s.rd (F.CELL_STAT_STATE.addr d) :=
    h.rd _ fun c hc => cellStat_addr_ne fun e => hd (e ▸ hc)
  simp only [State.cState, State.get, hr]

/-! Every shared move of a cell touches that cell alone. -/

theorem State.movesCells_setCell (s : State) (c : Nat) (x : Cell) : State.MovesCells [c] s (s.setCell c x) :=
  ⟨fun _ _ => rfl, fun _ hd => s.cell_setCell_ne x (by simpa using hd), _, _, _, _, rfl⟩

theorem State.movesCells_setCState (s : State) (c n : Nat) : State.MovesCells [c] s (s.setCState c n) :=
  ⟨fun _ ha => s.rd_put_ne _ _ (ha c List.mem_cons_self), fun _ _ => rfl, _, _, _, _, rfl⟩

theorem State.movesCells_putPrmok (s : State) (c n : Nat) : State.MovesCells [c] s (s.put F.CELL_STAT_PRMOK n c) :=
  ⟨fun _ ha => s.rd_put_ne F.CELL_STAT_PRMOK _ (ha c List.mem_cons_self), fun _ _ => rfl, _, _, _, _, rfl⟩

theorem State.movesCells_giveUnitBack (s : State) (c : Nat) : State.MovesCells [c] s (s.giveUnitBack c) := by
  unfold State.giveUnitBack
  split
  · exact s.movesCells_setCell c _
  · exact .refl _ _

theorem State.movesCells_unqueueCell (s : State) (c : Nat) : State.MovesCells [c] s (s.unqueueCell c) :=
  ⟨fun _ _ => rfl, fun _ _ => rfl, _, _, _, _, rfl⟩

theorem State.movesCells_noteRestage (s : State) (c : Nat) : State.MovesCells [c] s (s.noteRestage c) := by
  unfold State.noteRestage
  dsimp only
  split
  · exact ⟨fun _ _ => rfl, fun _ _ => rfl, _, _, _, _, rfl⟩
  · exact .refl _ _

theorem State.movesCells_queueCell (s : State) (c : Nat) : State.MovesCells [c] s (s.queueCell c) :=
  (s.movesCells_setCState c csQueued).trans ⟨fun _ _ => rfl, fun _ _ => rfl, _, _, _, _, rfl⟩

theorem State.movesCells_leaveTo (s : State) (c n : Nat) : State.MovesCells [c] s (s.leaveTo c n) :=
  (((s.movesCells_giveUnitBack c).trans (State.movesCells_unqueueCell _ c)).trans (State.movesCells_setCState _ c n)).trans
    (State.movesCells_setCell _ c _)

theorem State.movesCells_enterBlocked (s : State) (c : Nat) : State.MovesCells [c] s (s.enterBlocked c) :=
  ((((s.movesCells_noteRestage c).trans (State.movesCells_setCState _ c _)).trans (State.movesCells_putPrmok _ c _)).trans
    (State.movesCells_setCell _ c _)).trans (State.movesCells_setCell _ c _)

theorem State.movesCells_cellStopNow (s : State) (c : Nat) : State.MovesCells [c] s (s.cellStopNow c) :=
  ((s.movesCells_leaveTo c csBlocked).trans (State.movesCells_enterBlocked _ c)).trans (State.movesCells_setCell _ c _)

/-! ### What a move does to its cell -/

/-- A cell's state reads what was written to it. -/
theorem State.cState_setCState (s : State) (c : Nat) (hn : n < 16) : (s.setCState c n).cState c = n :=
  (s.get_put_same F.CELL_STAT_STATE n c 0 (by decide)).trans (Nat.mod_eq_of_lt hn)

/-- PRMOK lies beside the cell's state. -/
theorem State.cState_putPrmok (s : State) (c n d : Nat) : (s.put F.CELL_STAT_PRMOK n c).cState d = s.cState d :=
  s.get_put_bits F.CELL_STAT_PRMOK F.CELL_STAT_STATE n c 0 d 0 (by decide) (by decide) (by decide)

theorem State.cState_queueCell (s : State) (c : Nat) : (s.queueCell c).cState c = csQueued := s.cState_setCState c (by decide)

/-- The record of a cell that gives its unit back. -/
theorem State.cell_giveUnitBack (s : State) (c : Nat) :
    (s.giveUnitBack c).cell c = { s.cell c with unitBack := (s.cell c).unit || (s.cell c).unitBack } := by
  unfold State.giveUnitBack
  cases hu : (s.cell c).unit with
  | true => simp
  | false =>
    rw [if_neg (by simp)]
    generalize s.cell c = x at hu ⊢
    cases x
    simp_all

@[simp] theorem State.giveUnitBack_budget (s : State) (c : Nat) : (s.giveUnitBack c).budget = s.budget := by
  unfold State.giveUnitBack
  split <;> rfl

/-- The record of a cell that leaves service and the queue (R114, R186). -/
theorem State.cell_leaveTo (s : State) (c n : Nat) :
    (s.leaveTo c n).cell c = { s.cell c with
      unitBack := (s.cell c).unit || (s.cell c).unitBack, prech := 0, leaving := false, bypassDue := false, release := false } := by
  have he : (((s.giveUnitBack c).unqueueCell c).setCState c n).cell c = (s.giveUnitBack c).cell c := rfl
  rw [State.leaveTo, State.cell_setCell_same, he, s.cell_giveUnitBack]

/-- A cell that leaves service has no request in the queue. -/
@[simp] theorem State.leaveTo_queue (s : State) (c n : Nat) :
    (s.leaveTo c n).budget.queue = s.budget.queue.filter fun r => r.pump || r.cell != c := by
  have he : (s.leaveTo c n).budget.queue = (s.giveUnitBack c).budget.queue.filter fun r => r.pump || r.cell != c := rfl
  rw [he, State.giveUnitBack_budget]

@[simp] theorem State.noteRestage_cells (s : State) (c : Nat) : (s.noteRestage c).cells = s.cells := by
  unfold State.noteRestage
  dsimp only
  split <;> rfl

@[simp] theorem State.noteRestage_budget (s : State) (c : Nat) : (s.noteRestage c).budget = s.budget := by
  unfold State.noteRestage
  dsimp only
  split <;> rfl

/-- A cell's parameters lie outside its CELL_STAT word. -/
theorem State.MovesCells.paramPairs (h : State.MovesCells [c] s t) : t.paramPairs c = s.paramPairs c := by
  have hr : ∀ n ∈ List.range 10, t.rd (F.CELL_PRM_VALUE.addr c n) = s.rd (F.CELL_PRM_VALUE.addr c n) := by
    intro n hn
    have := List.mem_range.mp hn
    refine h.rd _ fun d hd => ?_
    simp only [List.mem_singleton.mp hd, Fld.addr, F.CELL_PRM_VALUE, F.CELL_STAT_STATE]
    omega
  exact List.map_congr_left fun n hn => congrArg (Prod.mk n) (hr n hn)

/-- The parameter set that a BLOCKED cell is sent: the next tag, at once (R180, R183). -/
def State.paramSet (s : State) (c : Nat) : StageSet :=
  let tag := ((s.cell c).lastTag + 1) % 256
  ⟨.params, tag, stageWords tag true (s.paramPairs c), 0, 0⟩

/-- The record of a cell that enters BLOCKED: its parameter set is new and last (R183). -/
theorem State.cell_enterBlocked (s : State) (c : Nat) :
    (s.enterBlocked c).cell c = { s.cell c with
      release := false, prech := 0, leaving := false, okRun := 0, lostDue := false, lastTag := ((s.cell c).lastTag + 1) % 256
      sets := ((s.cell c).sets.filter fun x => x.kind != .params) ++ [s.paramSet c] } := by
  have hm := ((s.movesCells_noteRestage c).trans (State.movesCells_setCState _ c csBlocked)).trans (State.movesCells_putPrmok _ c 0)
  have hc : (((s.noteRestage c).setCState c csBlocked).put F.CELL_STAT_PRMOK 0 c).cell c = s.cell c :=
    congrArg (fun x => Sparse.get (fun _ => ({} : Cell)) x c) (s.noteRestage_cells c)
  have hp : ∀ x : Cell, ((((s.noteRestage c).setCState c csBlocked).put F.CELL_STAT_PRMOK 0 c).setCell c x).paramPairs c =
      s.paramPairs c := fun x => hm.paramPairs
  simp only [State.enterBlocked, State.stage, State.cell_setCell_same, hp, hc]
  rfl

/-- A cell that enters BLOCKED reads BLOCKED with its parameters not acknowledged (R183, R185). -/
theorem State.stat_enterBlocked (s : State) (c : Nat) :
    (s.enterBlocked c).cState c = csBlocked ∧ (s.enterBlocked c).get F.CELL_STAT_PRMOK c = 0 := by
  have he : ∀ f, (s.enterBlocked c).get f c = (((s.noteRestage c).setCState c csBlocked).put F.CELL_STAT_PRMOK 0 c).get f c := fun f => rfl
  refine ⟨?_, ?_⟩
  · exact (he _).trans ((State.cState_putPrmok _ c 0 c).trans (State.cState_setCState _ c (by decide)))
  · exact (he _).trans (State.get_put_same _ F.CELL_STAT_PRMOK 0 c 0 (by decide))

theorem State.enterBlocked_budget (s : State) (c : Nat) : (s.enterBlocked c).budget = s.budget := s.noteRestage_budget c

/-- STOP leaves its cell BLOCKED with its parameters not acknowledged (R183, R187). -/
theorem State.stat_cellStopNow (s : State) (c : Nat) :
    (s.cellStopNow c).cState c = csBlocked ∧ (s.cellStopNow c).get F.CELL_STAT_PRMOK c = 0 := by
  obtain ⟨hc, hp⟩ := (s.leaveTo c csBlocked).stat_enterBlocked c
  simp only [State.cellStopNow, State.cState, State.setCell_get]
  exact ⟨hc, hp⟩

/-- STOP takes its cell's request out of the start queue (R115, R187). -/
theorem State.cellStopNow_queue (s : State) (c : Nat) :
    (s.cellStopNow c).budget.queue = s.budget.queue.filter fun r => r.pump || r.cell != c := by
  have he : (s.cellStopNow c).budget = ((s.leaveTo c csBlocked).enterBlocked c).budget := rfl
  rw [he, State.enterBlocked_budget, State.leaveTo_queue]

/-- STOP lets a unit return, forgets the precharge, and puts a fresh parameter set behind the cell's other sets (R114, R183, R186). -/
theorem State.cell_cellStopNow (s : State) (c : Nat) :
    ((s.cellStopNow c).cell c).prech = 0 ∧ ((s.cell c).unit = true → ((s.cellStopNow c).cell c).unitBack = true) ∧
      ((s.cellStopNow c).cell c).sets.getLast? = some (s.paramSet c) := by
  have hs : (s.leaveTo c csBlocked).paramSet c = s.paramSet c := by
    simp only [State.paramSet, (s.movesCells_leaveTo c csBlocked).paramPairs, s.cell_leaveTo]
  simp only [State.cellStopNow, State.cell_setCell_same, State.cell_enterBlocked, State.cell_leaveTo, hs]
  refine ⟨trivial, fun hu => ?_, List.getLast?_concat⟩
  simp [hu]

/-! ### Moves of a list of cells -/

/-- After a fold of moves that leave their cell in one state, the cells of the list are in it. -/
theorem State.cState_foldl {f : State → Nat → State} (hf : ∀ t c, State.MovesCells [c] t (f t c)) (hn : ∀ t c, (f t c).cState c = n)
    (cs : List Nat) (s : State) (hc : c ∈ cs) : (cs.foldl f s).cState c = n := by
  induction cs generalizing s with
  | nil => exact absurd hc List.not_mem_nil
  | cons d cs ih =>
    rw [List.foldl_cons]
    by_cases hl : c ∈ cs
    · exact ih _ hl
    · have hd : c = d := (List.mem_cons.mp hc).resolve_right hl
      subst hd
      exact ((State.MovesCells.foldl hf cs _).cState hl).trans (hn s c)

/-- The cells that a fold of moves names are in the new state, the others in the state they had. -/
theorem State.cState_foldl_eq {f : State → Nat → State} (hf : ∀ t c, State.MovesCells [c] t (f t c)) (hn : ∀ t c, (f t c).cState c = n)
    (cs : List Nat) (s : State) (c : Nat) : (cs.foldl f s).cState c = if c ∈ cs then n else s.cState c := by
  split
  · next hc => exact State.cState_foldl hf hn cs s hc
  · next hc => exact (State.MovesCells.foldl hf cs s).cState hc

theorem mem_insertReq {x r : StartReq} {q : List StartReq} : x ∈ insertReq r q ↔ x = r ∨ x ∈ q := by
  induction q with
  | nil => simp [insertReq]
  | cons y q ih =>
    simp only [insertReq]
    split
    · simp
    · simp only [List.mem_cons, ih]
      exact or_left_comm

theorem State.foldl_queueCell_cells (cs : List Nat) (s : State) : (cs.foldl State.queueCell s).cells = s.cells :=
  List.foldlRecOn (motive := fun t : State => t.cells = s.cells) cs _ rfl fun _ h _ _ => h

/-- Queueing cells drops no request. -/
theorem State.mem_foldl_queueCell {x : StartReq} (cs : List Nat) (s : State) (hx : x ∈ s.budget.queue) :
    x ∈ (cs.foldl State.queueCell s).budget.queue :=
  List.foldlRecOn (motive := fun t : State => x ∈ t.budget.queue) cs _ hx fun _ h _ _ => mem_insertReq.mpr (.inr h)

/-- Every cell that is queued has a request of this period (R115). -/
theorem State.request_mem_foldl_queueCell (cs : List Nat) (s : State) (hc : c ∈ cs) :
    ⟨false, c, s.period⟩ ∈ (cs.foldl State.queueCell s).budget.queue := by
  induction cs generalizing s with
  | nil => exact absurd hc List.not_mem_nil
  | cons d cs ih =>
    rw [List.foldl_cons]
    rcases List.mem_cons.mp hc with hd | hl
    · subst hd
      exact State.mem_foldl_queueCell cs _ (mem_insertReq.mpr (.inl rfl))
    · exact ih (s.queueCell d) hl

/-! ### The commands at their boundary (R22, R187, R234) -/

theorem State.cellCmdNow_refused (h : s.cellCmdOk c n = false) : s.cellCmdNow c n = s.pulse Ev.CELL_CFG_REJ c n := by
  simp [State.cellCmdNow, h]

theorem State.cellCmdNow_start (h : s.cellCmdOk c 1 = true) :
    s.cellCmdNow c 1 = if s.cState c = csBlocked then s.queueCell c else s := by simp [State.cellCmdNow, h]

theorem State.cellCmdNow_stop (h : s.cellCmdOk c 2 = true) : s.cellCmdNow c 2 = s.cellStopNow c := by simp [State.cellCmdNow, h]

theorem State.cellCmdNow_bypass (h : s.cellCmdOk c 3 = true) :
    s.cellCmdNow c 3 = s.setCell c { s.cell c with bypassDue := true } := by simp [State.cellCmdNow, h]

theorem State.cellCmdNow_release (h : s.cellCmdOk c 4 = true) :
    s.cellCmdNow c 4 = s.setCell c { s.cell c with release := true } := by simp [State.cellCmdNow, h]

/-- R187 knows four commands. -/
theorem State.code_of_cellCmdOk (h : s.cellCmdOk c n = true) : n = 1 ∨ n = 2 ∨ n = 3 ∨ n = 4 := by
  refine Classical.byContradiction fun hn => ?_
  simp only [not_or] at hn
  obtain ⟨h1, h2, h3, h4⟩ := hn
  simp only [State.cellCmdOk, if_neg h1, if_neg h2, if_neg h3, if_neg h4] at h
  exact Bool.false_ne_true h

/-- A command that is allowed moves its cell alone. -/
theorem State.movesCells_cellCmdNow (h : s.cellCmdOk c n = true) : State.MovesCells [c] s (s.cellCmdNow c n) := by
  rcases State.code_of_cellCmdOk h with rfl | rfl | rfl | rfl
  · rw [State.cellCmdNow_start h]
    split
    · exact s.movesCells_queueCell c
    · exact .refl _ _
  · rw [State.cellCmdNow_stop h]; exact s.movesCells_cellStopNow c
  · rw [State.cellCmdNow_bypass h]; exact s.movesCells_setCell c _
  · rw [State.cellCmdNow_release h]; exact s.movesCells_setCell c _

/-- What a group START asks of a state (R22, R187, R348, log entry 72). -/
structure State.MayStart (s : State) : Prop where
  hash : (s.stagedHash fun _ => true) = false
  white : s.whiteout = false
  test : s.startTest = true
  prm : ∀ c ∈ s.cellList, s.cState c = csBlocked → s.flag F.CELL_STAT_PRMOK c = true

/-- The cells that a group START queues. -/
def State.blockedCells (s : State) : List Nat := s.cellList.filter fun c => s.cState c == csBlocked

/-- A group START that meets its conditions queues the BLOCKED cells. -/
theorem State.MayStart.groupStartNow (h : s.MayStart) : s.groupStartNow = s.blockedCells.foldl State.queueCell s := by
  have hp : (s.blockedCells.any fun c => !s.flag F.CELL_STAT_PRMOK c) = false := by
    simp only [List.any_eq_false, State.blockedCells, List.mem_filter, beq_iff_eq]
    rintro c ⟨hc, hb⟩
    simp [h.prm c hc hb]
  simp only [State.blockedCells] at hp ⊢
  simp [State.groupStartNow, h.hash, h.white, h.test, hp]

/-- A group START that does not meet its conditions raises one event. -/
theorem State.groupStartNow_refused (h : ¬ s.MayStart) :
    s.groupStartNow = if (s.stagedHash fun _ => true) = true then s.pulse Ev.CELL_CFG_REJ s.hashCell 1 else s.pulse Ev.START_REFUSED := by
  rw [State.groupStartNow]
  split
  · rfl
  · next hh =>
    refine if_pos (Classical.byContradiction fun hg => ?_)
    simp only [Bool.or_eq_true, not_or, Bool.not_eq_true, Bool.not_eq_false', List.any_eq_false, List.mem_filter, beq_iff_eq] at hg
    obtain ⟨⟨hw, ht⟩, hp⟩ := hg
    exact h ⟨by simpa using hh, hw, ht, fun c hc hb => by simpa using hp c ⟨hc, hb⟩⟩

/-- A cell number in a state other than EMPTY has a table entry. -/
theorem State.mem_cellList : c ∈ s.cellList ↔ c < 288 ∧ s.cState c ≠ csEmpty := by simp [State.cellList]

theorem State.mem_blockedCells : c ∈ s.blockedCells ↔ c < 288 ∧ s.cState c = csBlocked := by
  simp only [State.blockedCells, List.mem_filter, State.mem_cellList, beq_iff_eq]
  refine ⟨fun ⟨⟨hc, _⟩, hb⟩ => ⟨hc, hb⟩, fun ⟨hc, hb⟩ => ⟨⟨hc, ?_⟩, hb⟩⟩
  rw [hb]; decide

/-- The cells that a group STOP blocks. -/
def State.stoppable (s : State) : List Nat := s.cellList.filter fun c => s.cellCmdOk c 2

theorem State.mem_stoppable : c ∈ s.stoppable ↔
    c < 288 ∧ (s.cState c = csQueued ∨ s.cState c = csPrecharge ∨ s.cState c = csReady ∨ s.cState c = csSpare) := by
  have hk : s.cellCmdOk c 2 = true ↔ (s.cState c = csQueued ∨ s.cState c = csPrecharge ∨ s.cState c = csReady ∨ s.cState c = csSpare) := by
    simp [State.cellCmdOk, or_assoc]
  simp only [State.stoppable, List.mem_filter, hk, State.mem_cellList]
  refine ⟨fun ⟨⟨hc, _⟩, hb⟩ => ⟨hc, hb⟩, fun ⟨hc, hb⟩ => ⟨⟨hc, fun he => ?_⟩, hb⟩⟩
  rw [he] at hb
  exact absurd hb (by decide)

/-- The state after a group STOP has blocked the cells that can stop. -/
def State.allStopped (s : State) : State :=
  let t := s.stoppable.foldl State.cellStopNow s
  { t with ce := { t.ce with stopDue := false } }

/-- A group STOP sets STOPPING where a cell is left in RUN (R234). -/
theorem State.groupStopNow_eq (s : State) : s.groupStopNow =
    if s.allStopped.cellList.any fun c => s.allStopped.cState c == csRun then s.allStopped.put F.MVS_STAT_STOPPING 1 else s.allStopped := rfl

theorem State.movesCells_stop (s : State) : State.MovesCells s.stoppable s (s.stoppable.foldl State.cellStopNow s) :=
  .foldl State.movesCells_cellStopNow _ _

/-- The state of every cell after a group STOP. -/
theorem State.cState_allStopped (s : State) (hc : c < 288) : s.allStopped.cState c =
    if s.cState c = csQueued ∨ s.cState c = csPrecharge ∨ s.cState c = csReady ∨ s.cState c = csSpare then csBlocked else s.cState c := by
  have he : s.allStopped.cState c = (s.stoppable.foldl State.cellStopNow s).cState c := rfl
  rw [he, State.cState_foldl_eq State.movesCells_cellStopNow (fun t c => (t.stat_cellStopNow c).1)]
  simp only [State.mem_stoppable, hc, true_and]

/-- A cell is in RUN after a group STOP's blocks just where it was before. -/
theorem State.any_run_allStopped (s : State) :
    (s.allStopped.cellList.any fun c => s.allStopped.cState c == csRun) = true ↔ ∃ c < 288, s.cState c = csRun := by
  have hr : ∀ c < 288, s.allStopped.cState c = csRun ↔ s.cState c = csRun := by
    intro c hc
    rw [s.cState_allStopped hc]
    split
    · next h =>
      refine ⟨fun e => absurd e (by decide), fun e => ?_⟩
      rw [e] at h
      exact absurd h (by decide)
    · rfl
  simp only [List.any_eq_true, State.mem_cellList, beq_iff_eq]
  constructor
  · rintro ⟨c, ⟨hc, -⟩, e⟩
    exact ⟨c, hc, (hr c hc).mp e⟩
  · rintro ⟨c, hc, e⟩
    have e' := (hr c hc).mpr e
    exact ⟨c, ⟨hc, by rw [e']; decide⟩, e'⟩

/-- MVS_STAT is no word of a cell. -/
theorem mvsStat_ne_cellStat (c : Nat) : F.MVS_STAT_STOPPING.addr ≠ F.CELL_STAT_STATE.addr c := by
  simp only [Fld.addr, F.MVS_STAT_STOPPING, F.CELL_STAT_STATE]; omega

/-! ### A command word that waits alone -/

/-- The state in which a command word of an address is taken: the buffers are empty and the register, which stores no bit of it, is written
back as it reads. -/
def State.taken (s : State) (a : Nat) : State := s.noBuf.wr a (s.rd a)

@[simp] theorem State.rd_taken (s : State) (a b : Nat) : (s.taken a).rd b = s.rd b := by
  by_cases h : b = a
  · subst h; exact s.noBuf.rd_wr_same _ _
  · exact s.noBuf.rd_wr_ne _ h

@[simp] theorem State.get_taken (s : State) (a : Nat) (f : Fld) (i j : Nat) : (s.taken a).get f i j = s.get f i j := by simp [State.get]

theorem State.cState_taken (s : State) (a c : Nat) : (s.taken a).cState c = s.cState c := s.get_taken a _ _ _

theorem State.stagedHash_taken (s : State) (a : Nat) (p : Nat → Bool) : (s.taken a).stagedHash p = s.stagedHash p := by
  simp only [State.stagedHash, State.txState, State.get_taken]
  rfl

theorem State.whiteout_taken (s : State) (a : Nat) : (s.taken a).whiteout = s.whiteout := by simp [State.whiteout, State.flag]

theorem State.cellCmdOk_taken (s : State) (a c n : Nat) : (s.taken a).cellCmdOk c n = s.cellCmdOk c n := by
  simp only [State.cellCmdOk, State.cState_taken, State.stagedHash_taken, State.whiteout_taken, State.flag, State.get_taken, State.cByp,
    State.entry, State.rd_taken]

theorem State.paramPairs_taken (s : State) (a c : Nat) : (s.taken a).paramPairs c = s.paramPairs c := by simp [State.paramPairs]

theorem State.cellList_taken (s : State) (a : Nat) : (s.taken a).cellList = s.cellList := by simp only [State.cellList, State.cState_taken]

theorem State.startTest_taken (s : State) (a : Nat) : (s.taken a).startTest = s.startTest := by
  have hm : (s.taken a).cMain = s.cMain := by
    funext c
    simp only [State.cMain, State.entry, State.rd_taken]
  have hg : (s.taken a).groupCells = s.groupCells := by
    funext g
    simp only [State.groupCells, State.cellList_taken, State.cGroup, State.entry, State.rd_taken]
  simp only [State.startTest, State.groupsUsed, State.nMain, State.nAvail, hg, hm, State.cState_taken]
  rfl

theorem State.mayStart_taken (s : State) (a : Nat) : (s.taken a).MayStart ↔ s.MayStart := by
  constructor
  · intro ⟨hh, hw, ht, hp⟩
    simp only [State.cellList_taken, State.cState_taken, State.flag, State.get_taken] at hp
    exact ⟨s.stagedHash_taken a _ ▸ hh, s.whiteout_taken a ▸ hw, s.startTest_taken a ▸ ht, hp⟩
  · intro ⟨hh, hw, ht, hp⟩
    refine ⟨(s.stagedHash_taken a _).trans hh, (s.whiteout_taken a).trans hw, (s.startTest_taken a).trans ht, ?_⟩
    simpa only [State.cellList_taken, State.cState_taken, State.flag, State.get_taken] using hp

/-- Writing no bit writes the register back as it reads. -/
theorem State.putBits_none (s : State) {a : Nat} (h : 0x1FFFF < a) (v : Word) : s.putBits a v 0#32 = s.wr a (s.rd a) := by
  have hk : s.rd a &&& ~~~0#32 = s.rd a := BitVec.and_allOnes
  rw [s.putBits_outside_evt h, hk, BitVec.and_zero, BitVec.or_zero]

/-- At the boundary the one write that waits comes into force, and the groups are armed. -/
theorem State.OneWaits.exec_period (h : s.OneWaits w) (hd : s.dueBits w .period = w.mask)
    (hu : s.noBuf.applyBits w.addr w.val w.mask = u) (hh : u.bus.held = []) :
    ∃ g, exec (.bufferedWriteApply .period) s = .next ({ u with groups := g } : State).settle := by
  obtain ⟨g, hg⟩ := u.armGroups_eq
  have he : exec (.bufferedWriteApply .period) s = .next ((s.drain .period).armGroups).settle := rfl
  rw [he, h.drain_reached hd, hu, State.takeHeld_nil hh, hg]
  exact ⟨g, rfl⟩

/-- A cell command from a path, as it waits. -/
def cellWrite (path c n : Nat) : BufWrite := ⟨path, F.CELL_CTRL_CMD.addr c, BitVec.ofNat 32 n, 7, false, none, false⟩

/-- The word of CELL_CTRL lies in its row. -/
theorem State.rowAt_cellCtrl (s : State) (c : CellId) : s.rowAt (F.CELL_CTRL_CMD.addr c) = some (R.CELL_CTRL, c.val, 0) := by
  have hf : ∀ c : CellId, findRow (F.CELL_CTRL_CMD.addr c) = some (R.CELL_CTRL, c.val, 0) := by decide +kernel
  rw [s.rowAt_outside_graph (.inr (by simp only [Fld.addr, F.CELL_CTRL_CMD]; omega)), hf c]

/-- A cell command is due at the boundary. -/
theorem State.dueBits_cellWrite (s : State) (path n : Nat) (c : CellId) : s.dueBits (cellWrite path c n) .period = 7#32 := by
  have hm : R.CELL_CTRL.maskOf (fun f => f.takes && f.apply == .period) = 7#32 := by decide
  rw [State.dueBits_of_rowAt (s.rowAt_cellCtrl c) rfl rfl]
  simp [dueMask, hm, cellWrite]

/-- The state in which a command of a cell is taken. -/
def State.cellTaken (s : State) (c : Nat) : State := s.taken (F.CELL_CTRL_CMD.addr c)

/-- A cell command comes into force as what it does to its cell. -/
theorem State.applyBits_cellWrite (s : State) (c : CellId) (hn : n < 8) :
    s.noBuf.applyBits (F.CELL_CTRL_CMD.addr c) (BitVec.ofNat 32 n) 7 = (s.cellTaken c).cellCmdNow c n := by
  have ha : 0x1FFFF < F.CELL_CTRL_CMD.addr c := by simp only [Fld.addr, F.CELL_CTRL_CMD]; omega
  have hm : (7 : Word) &&& R.CELL_CTRL.rwMask = 0#32 := by decide
  have hv : fixBits R.CELL_CTRL c (BitVec.ofNat 32 n) = BitVec.ofNat 32 n := rfl
  simp only [State.applyBits, State.rowAt_cellCtrl, hv, hm]
  rw [if_neg (by decide), s.noBuf.putBits_none ha]
  exact congrArg (State.cellCmdNow _ c) (fieldGet_cellCmd hn)

/-- The boundary carries a cell command out. -/
theorem State.OneWaits.exec_cellWrite {path : Nat} {c : CellId} (h : s.OneWaits (cellWrite path c n)) (hn : n < 8) :
    ∃ g, exec (.bufferedWriteApply .period) s =
      .next ({ (s.cellTaken c).cellCmdNow c n with groups := g } : State).settle := by
  refine h.exec_period (s.dueBits_cellWrite path n c) (s.applyBits_cellWrite c hn) ?_
  cases hk : (s.cellTaken c).cellCmdOk c n with
  | false => rw [State.cellCmdNow_refused hk]; exact h.held
  | true => exact (State.movesCells_cellCmdNow hk).held.trans h.held

/-- A group command from a path, as it waits. -/
def groupWrite (path n : Nat) : BufWrite := ⟨path, R.CELL_GCTRL.base, BitVec.ofNat 32 n, 3, false, none, false⟩

/-- The word of CELL_GCTRL lies in its row. -/
theorem State.rowAt_cellGctrl (s : State) : s.rowAt R.CELL_GCTRL.base = some (R.CELL_GCTRL, 0, 0) := by
  rw [s.rowAt_outside_graph (.inr (by decide))]
  decide +kernel

/-- A group command is due at the boundary. -/
theorem State.dueBits_groupWrite (s : State) (path n : Nat) : s.dueBits (groupWrite path n) .period = 3#32 := by
  have hm : R.CELL_GCTRL.maskOf (fun f => f.takes && f.apply == .period) = 3#32 := by decide
  rw [State.dueBits_of_rowAt s.rowAt_cellGctrl rfl rfl]
  simp [dueMask, hm, groupWrite]

/-- The state in which a group command is taken. -/
def State.groupTaken (s : State) : State := s.taken R.CELL_GCTRL.base

/-- A group command comes into force as what it does to the cells. -/
theorem State.applyBits_groupWrite (s : State) (v : Word) : s.noBuf.applyBits R.CELL_GCTRL.base v 3 =
    if fieldGet v 1 0 = 1 then s.groupTaken.groupStartNow else if fieldGet v 1 0 = 2 then s.groupTaken.groupStopNow else s.groupTaken := by
  have hm : (3 : Word) &&& R.CELL_GCTRL.rwMask = 0#32 := by decide
  have hv : fixBits R.CELL_GCTRL 0 v = v := rfl
  simp only [State.applyBits, State.rowAt_cellGctrl, hv, hm]
  rw [if_neg (by decide), s.noBuf.putBits_none (by decide)]
  rfl

/-- The boundary carries a group START out. -/
theorem State.OneWaits.exec_groupStart {path : Nat} (h : s.OneWaits (groupWrite path 1)) :
    ∃ g, exec (.bufferedWriteApply .period) s = .next ({ s.groupTaken.groupStartNow with groups := g } : State).settle := by
  refine h.exec_period (s.dueBits_groupWrite path 1) ((s.applyBits_groupWrite 1#32).trans (if_pos (by decide))) ?_
  by_cases hm : s.groupTaken.MayStart
  · rw [hm.groupStartNow]
    exact (State.MovesCells.foldl State.movesCells_queueCell _ _).held.trans h.held
  · rw [State.groupStartNow_refused hm]
    split <;> exact h.held

/-- The boundary carries a group STOP out. -/
theorem State.OneWaits.exec_groupStop {path : Nat} (h : s.OneWaits (groupWrite path 2)) :
    ∃ g, exec (.bufferedWriteApply .period) s = .next ({ s.groupTaken.groupStopNow with groups := g } : State).settle := by
  have hh : s.groupTaken.allStopped.bus.held = [] := s.groupTaken.movesCells_stop.held.trans h.held
  refine h.exec_period (s.dueBits_groupWrite path 2) (((s.applyBits_groupWrite 2#32).trans (if_neg (by decide))).trans (if_pos (by decide))) ?_
  rw [State.groupStopNow_eq]
  split <;> exact hh

/-! ### What stands after the boundary: a cell command -/

theorem State.cState_cellTaken (s : State) (c d : Nat) : (s.cellTaken c).cState d = s.cState d := s.cState_taken _ d

theorem State.cellCmdOk_cellTaken (s : State) (c n : Nat) : (s.cellTaken c).cellCmdOk c n = s.cellCmdOk c n := s.cellCmdOk_taken _ c n

/-- A cell command, allowed or not, leaves the buffers empty, and the stores and every other cell as they were. -/
theorem State.cellTaken_frame (s : State) (c n : Nat) : ((s.cellTaken c).cellCmdNow c n).bus.buf = [] ∧
    s.SameStore ((s.cellTaken c).cellCmdNow c n) ∧
    ∀ d, d ≠ c → ((s.cellTaken c).cellCmdNow c n).cState d = s.cState d ∧ ((s.cellTaken c).cellCmdNow c n).cell d = s.cell d := by
  cases hk : (s.cellTaken c).cellCmdOk c n with
  | false => rw [State.cellCmdNow_refused hk]; exact ⟨rfl, ⟨rfl, rfl, rfl, rfl⟩, fun d _ => ⟨s.cState_cellTaken c d, rfl⟩⟩
  | true =>
    have hm := State.movesCells_cellCmdNow hk
    obtain ⟨otp, mram, flash, dram⟩ := hm.sameStore
    exact ⟨hm.buf, ⟨otp, mram, flash, dram⟩,
      fun d hd => ⟨(hm.cState (by simpa using hd)).trans (s.cState_cellTaken c d), hm.cell d (by simpa using hd)⟩⟩

/-- A command that the cell's state does not allow raises EV_CELL_CFG_REJ and leaves the cell (R187). -/
theorem State.cellTaken_refused (hr : s.evt.raised = []) (hk : s.cellCmdOk c n = false) :
    ((s.cellTaken c).cellCmdNow c n).evt.raised = [(Ev.CELL_CFG_REJ, BitVec.ofNat 32 c, BitVec.ofNat 32 n)] ∧
      ((s.cellTaken c).cellCmdNow c n).cState c = s.cState c ∧ ((s.cellTaken c).cellCmdNow c n).cell c = s.cell c := by
  rw [State.cellCmdNow_refused ((s.cellCmdOk_cellTaken c n).trans hk)]
  exact ⟨congrArg (· ++ _) hr, s.cState_cellTaken c c, rfl⟩

/-- A command that is allowed raises nothing. -/
theorem State.cellTaken_raised (hr : s.evt.raised = []) (hk : s.cellCmdOk c n = true) :
    ((s.cellTaken c).cellCmdNow c n).evt.raised = [] := by
  have hm := State.movesCells_cellCmdNow ((s.cellCmdOk_cellTaken c n).trans hk)
  exact (congrArg Evt.raised hm.evt).trans hr

/-- START of a BLOCKED cell makes it QUEUED with its request in its place (R115, R187). -/
theorem State.cellTaken_start (hk : s.cellCmdOk c 1 = true) (hb : s.cState c = csBlocked) :
    ((s.cellTaken c).cellCmdNow c 1).cState c = csQueued ∧
      ((s.cellTaken c).cellCmdNow c 1).budget.queue = insertReq ⟨false, c, s.period⟩ s.budget.queue := by
  rw [State.cellCmdNow_start ((s.cellCmdOk_cellTaken c 1).trans hk), if_pos ((s.cState_cellTaken c c).trans hb)]
  exact ⟨State.cState_queueCell _ c, rfl⟩

/-- START of a cell that is on its way already changes nothing (R187). -/
theorem State.cellTaken_start_same (hk : s.cellCmdOk c 1 = true) (hb : s.cState c ≠ csBlocked) :
    ((s.cellTaken c).cellCmdNow c 1).cState c = s.cState c ∧ ((s.cellTaken c).cellCmdNow c 1).budget = s.budget := by
  rw [State.cellCmdNow_start ((s.cellCmdOk_cellTaken c 1).trans hk), if_neg (by rwa [s.cState_cellTaken])]
  exact ⟨s.cState_cellTaken c c, rfl⟩

/-- STOP blocks the cell, takes its request out of the queue, lets its unit return and stages its parameters afresh (R114, R115, R183). -/
theorem State.cellTaken_stop (hk : s.cellCmdOk c 2 = true) :
    ((s.cellTaken c).cellCmdNow c 2).cState c = csBlocked ∧ ((s.cellTaken c).cellCmdNow c 2).get F.CELL_STAT_PRMOK c = 0 ∧
      ((s.cellTaken c).cellCmdNow c 2).budget.queue = (s.budget.queue.filter fun r => r.pump || r.cell != c) ∧
      (((s.cellTaken c).cellCmdNow c 2).cell c).prech = 0 ∧
      ((s.cell c).unit = true → (((s.cellTaken c).cellCmdNow c 2).cell c).unitBack = true) ∧
      ∃ x, (((s.cellTaken c).cellCmdNow c 2).cell c).sets.getLast? = some x ∧ x.kind = .params ∧
        x.words = stageWords x.tag true (s.paramPairs c) := by
  rw [State.cellCmdNow_stop ((s.cellCmdOk_cellTaken c 2).trans hk)]
  obtain ⟨hst, hprm⟩ := (s.cellTaken c).stat_cellStopNow c
  obtain ⟨hpre, hunit, hset⟩ := (s.cellTaken c).cell_cellStopNow c
  exact ⟨hst, hprm, (s.cellTaken c).cellStopNow_queue c, hpre, hunit, _, hset, rfl, congrArg (stageWords _ true) (s.paramPairs_taken _ c)⟩

/-- BYPASS and RELEASE leave the cell's state and mark the cell (R185, R187). -/
theorem State.cellTaken_bypass (hk : s.cellCmdOk c 3 = true) : ((s.cellTaken c).cellCmdNow c 3).cState c = s.cState c ∧
    ((s.cellTaken c).cellCmdNow c 3).cell c = { s.cell c with bypassDue := true } := by
  rw [State.cellCmdNow_bypass ((s.cellCmdOk_cellTaken c 3).trans hk)]
  exact ⟨s.cState_cellTaken c c, State.cell_setCell_same _ c _⟩

theorem State.cellTaken_release (hk : s.cellCmdOk c 4 = true) : ((s.cellTaken c).cellCmdNow c 4).cState c = s.cState c ∧
    ((s.cellTaken c).cellCmdNow c 4).cell c = { s.cell c with release := true } := by
  rw [State.cellCmdNow_release ((s.cellCmdOk_cellTaken c 4).trans hk)]
  exact ⟨s.cState_cellTaken c c, State.cell_setCell_same _ c _⟩

/-! ### What stands after the boundary: a group command -/

theorem State.cState_groupTaken (s : State) (c : Nat) : s.groupTaken.cState c = s.cState c := s.cState_taken _ c

/-- A group START that is refused at its boundary raises one event and moves no cell (R22, log entry 72). -/
theorem State.groupTaken_refused (hr : s.evt.raised = []) (h : ¬ s.MayStart) :
    s.groupTaken.groupStartNow.evt.raised = [if (s.stagedHash fun _ => true) = true then (Ev.CELL_CFG_REJ, BitVec.ofNat 32 s.hashCell, 1)
      else (Ev.START_REFUSED, 0, 0)] ∧ s.groupTaken.groupStartNow.bus.buf = [] ∧ s.groupTaken.groupStartNow.cells = s.cells ∧
      s.groupTaken.groupStartNow.budget = s.budget ∧ ∀ a, s.groupTaken.groupStartNow.rd a = s.rd a := by
  have hm : ¬ s.groupTaken.MayStart := mt (s.mayStart_taken _).mp h
  have hh : s.groupTaken.stagedHash (fun _ => true) = s.stagedHash fun _ => true := s.stagedHash_taken _ _
  rw [State.groupStartNow_refused hm, hh]
  split
  · exact ⟨congrArg (· ++ _) hr, rfl, rfl, rfl, s.rd_taken _⟩
  · exact ⟨congrArg (· ++ _) hr, rfl, rfl, rfl, s.rd_taken _⟩

/-- A group START that its boundary carries out queues every BLOCKED cell (R22, R115). -/
theorem State.groupTaken_start (hr : s.evt.raised = []) (h : s.MayStart) :
    s.groupTaken.groupStartNow.evt.raised = [] ∧ s.groupTaken.groupStartNow.bus.buf = [] ∧ ∀ c < 288,
      s.groupTaken.groupStartNow.cState c = (if s.cState c = csBlocked then csQueued else s.cState c) ∧
      (s.cState c = csBlocked → ⟨false, c, s.period⟩ ∈ s.groupTaken.groupStartNow.budget.queue) ∧
      s.groupTaken.groupStartNow.cell c = s.cell c := by
  have hm := State.MovesCells.foldl State.movesCells_queueCell s.groupTaken.blockedCells s.groupTaken
  have hg : s.groupTaken.MayStart := (s.mayStart_taken _).mpr h
  rw [hg.groupStartNow]
  refine ⟨(congrArg Evt.raised hm.evt).trans hr, hm.buf, fun c hc => ⟨?_, fun hb => ?_, ?_⟩⟩
  · rw [State.cState_foldl_eq State.movesCells_queueCell State.cState_queueCell]
    simp only [State.mem_blockedCells, hc, true_and, s.cState_groupTaken]
  · exact State.request_mem_foldl_queueCell _ s.groupTaken (State.mem_blockedCells.mpr ⟨hc, (s.cState_groupTaken c).trans hb⟩)
  · exact congrArg (fun x => Sparse.get (fun _ => ({} : Cell)) x c) (State.foldl_queueCell_cells _ s.groupTaken)

/-- Before STOPPING is set, a group STOP has blocked the cells that can stop and raised nothing (R187). -/
theorem State.groupTaken_allStopped (hr : s.evt.raised = []) :
    s.groupTaken.allStopped.evt.raised = [] ∧ s.groupTaken.allStopped.bus.buf = [] ∧
      (∀ c < 288, s.groupTaken.allStopped.cState c =
        if s.cState c = csQueued ∨ s.cState c = csPrecharge ∨ s.cState c = csReady ∨ s.cState c = csSpare then csBlocked else s.cState c) ∧
      s.groupTaken.allStopped.get F.MVS_STAT_STOPPING = s.get F.MVS_STAT_STOPPING := by
  have hm := s.groupTaken.movesCells_stop
  refine ⟨(congrArg Evt.raised hm.evt).trans hr, hm.buf, fun c hc => ?_, ?_⟩
  · simpa only [s.cState_groupTaken] using s.groupTaken.cState_allStopped hc
  · have hrd : s.groupTaken.allStopped.rd F.MVS_STAT_STOPPING.addr = s.groupTaken.rd F.MVS_STAT_STOPPING.addr :=
      hm.rd _ fun c _ => mvsStat_ne_cellStat c
    have hs : s.groupTaken.rd F.MVS_STAT_STOPPING.addr = s.rd F.MVS_STAT_STOPPING.addr := s.rd_taken _ _
    simp only [State.get, hrd, hs]

/-- A group STOP at its boundary blocks the cells that can stop, and sets STOPPING where a cell is in RUN (R187, R234). -/
theorem State.groupTaken_stop (hr : s.evt.raised = []) :
    s.groupTaken.groupStopNow.evt.raised = [] ∧ s.groupTaken.groupStopNow.bus.buf = [] ∧
      (∀ c < 288, s.groupTaken.groupStopNow.cState c =
        if s.cState c = csQueued ∨ s.cState c = csPrecharge ∨ s.cState c = csReady ∨ s.cState c = csSpare then csBlocked else s.cState c) ∧
      ((∃ c < 288, s.cState c = csRun) → s.groupTaken.groupStopNow.get F.MVS_STAT_STOPPING = 1) ∧
      ((∀ c < 288, s.cState c ≠ csRun) → s.groupTaken.groupStopNow.get F.MVS_STAT_STOPPING = s.get F.MVS_STAT_STOPPING) := by
  obtain ⟨hraised, hbuf, hst, hstop⟩ := State.groupTaken_allStopped hr
  have hrun := s.groupTaken.any_run_allStopped
  simp only [s.cState_groupTaken] at hrun
  rw [State.groupStopNow_eq]
  split
  · next hx =>
    obtain ⟨c, hc, e⟩ := hrun.mp hx
    refine ⟨hraised, hbuf, fun d hd => ?_, fun _ => State.get_put_same _ F.MVS_STAT_STOPPING 1 0 0 (by decide), fun hno => absurd e (hno c hc)⟩
    rw [← hst d hd]
    exact State.get_put_addr _ _ F.CELL_STAT_STATE 1 0 0 d 0 (mvsStat_ne_cellStat d).symm
  · next hx => exact ⟨hraised, hbuf, hst, fun hr => absurd (hrun.mpr hr) hx, fun _ => hstop⟩

/-- Settles O34: the one command that waits is due, comes into force as what it does to its cell or, cell by cell, to every cell that allows
it, and arming the groups after it touches nothing of that. -/
theorem cellAndGroupCommandsActAtTheBoundary : Obligations.CellAndGroupCommandsActAtTheBoundary := by
  unfold Obligations.CellAndGroupCommandsActAtTheBoundary
  refine ⟨fun s path n c hq hn hb hh hst => ?_, fun s path hq hh hst => ⟨fun hb => ?_, fun hb => ?_⟩⟩
  · obtain ⟨g, he⟩ := State.OneWaits.exec_cellWrite (path := path) ⟨hb, hst, hh, rfl, cellCtrl_waits c |>.some⟩ hn
    obtain ⟨hbuf, hstore, hother⟩ := s.cellTaken_frame c n
    refine ⟨_, he, hbuf, ⟨hstore.otp, hstore.mram, hstore.flash, hstore.dram⟩, fun d hd => hother d (Fin.val_ne_of_ne hd),
      State.cellTaken_refused hq.1, fun hk => ⟨State.cellTaken_raised hq.1 hk, ?_, ?_, ?_, ?_, ?_⟩⟩
    · rintro rfl; exact State.cellTaken_start hk
    · rintro rfl; exact State.cellTaken_start_same hk
    · rintro rfl; exact State.cellTaken_stop hk
    · rintro rfl; exact State.cellTaken_bypass hk
    · rintro rfl; exact State.cellTaken_release hk
  · obtain ⟨g, he⟩ := State.OneWaits.exec_groupStart (path := path) ⟨hb, hst, hh, rfl, cellGctrl_waits.some⟩
    by_cases hm : s.MayStart
    · obtain ⟨hr, hbuf, hc⟩ := State.groupTaken_start hq.1 hm
      exact ⟨_, he, hbuf, fun hn => absurd ⟨hm.hash, hm.white, hm.test, hm.prm⟩ hn, fun _ => ⟨hr, hc⟩⟩
    · obtain ⟨hr, hbuf, hcells, hbud, hrd⟩ := State.groupTaken_refused hq.1 hm
      exact ⟨_, he, hbuf, fun _ => ⟨hr, hcells, hbud, fun a _ => hrd a⟩,
        fun ⟨hash, white, test, prm⟩ => absurd ⟨hash, white, test, prm⟩ hm⟩
  · obtain ⟨g, he⟩ := State.OneWaits.exec_groupStop (path := path) ⟨hb, hst, hh, rfl, cellGctrl_waits.some⟩
    obtain ⟨hr, hbuf, hc, hrun, hno⟩ := State.groupTaken_stop hq.1
    exact ⟨_, he, hbuf, hr, hc, hrun, hno⟩

end Sys2Proof.Machine
end
